-- ==== Sys2Proof/Word.lean ====
section
/-! DEFINITION. The word types of the machine, and the table type in which sparse state is held. -/

namespace Sys2Proof

/-- One byte of memory (R6). -/
abbrev Byte := BitVec 8

/-- A 16-bit field. -/
abbrev W16 := BitVec 16

/-- A 32-bit register or field, and the bits of an FP32 value. -/
abbrev W32 := BitVec 32

/-- A 64-bit register, address or counter. -/
abbrev W64 := BitVec 64

/-- Sparse data by number: pairs in rising order of number. A number that is not listed holds a default
that belongs to the table. -/
abbrev Tab (α : Type) := List (Nat × α)

end Sys2Proof
end

