-- ==== Sys2Proof/Syntax.lean ====
section
/-! DEFINITION. The commands of the Totaosh: one constructor for each row of the opcode table, with the
row's operands, and the types of those operands. What a physical process, a peer or the host brings
to a step (conversion codes, failed pairs, the contents of a frame, the outcome of a cryptographic
check) is an operand of the command. -/

namespace Sys2Proof

/-- A 22-bit thread ID (R168). -/
abbrev Tid := BitVec 22
/-- A g register number (R180). -/
abbrev GReg := BitVec 6
/-- A p register number (R180). -/
abbrev PReg := BitVec 3
/-- An instance, 0 to 31 (R357). -/
abbrev Inst := Fin 32
/-- A fabric link, 0 to 35 (R14). -/
abbrev Link := Fin 36
/-- An entry of the operation table (R183). -/
abbrev OpIx := Fin 4096
/-- An entry of the launch table (R163). -/
abbrev LaunchIx := Fin 1024

/-- The guard of an instruction word (R196). -/
structure Guard where
  pred : PReg
  neg : Bool
  deriving DecidableEq, Repr

/-- The second operand of an instruction that offers the forms R and I (R201). -/
inductive Src where
  | reg (r : GReg)
  | imm (v : BitVec 24)
  deriving DecidableEq, Repr

/-- A physical tile of a Spire (R14). -/
structure TileId where
  spire : Fin 4
  tile : Fin 264
  deriving DecidableEq, Repr

/-- The UNIT of an event record: its kind and its number (R385). -/
structure UnitId where
  kind : BitVec 4
  num : BitVec 28
  deriving DecidableEq, Repr

/-- Who makes a register access (R452, R370). -/
inductive Requester where
  | fn (n : Inst)
  | thread (t : Tid)
  | keep
  deriving DecidableEq, Repr

/-- The four views of a register block (R447). -/
inductive View where
  | base | set | clr | tgl
  deriving DecidableEq, Repr

/-- The target of a register access: BAR0, or an instance page of BAR2 (R439, R176). -/
inductive RegTarget where
  | bar0 (off : BitVec 26)
  | bar2 (inst : Inst) (off : BitVec 16)
  deriving DecidableEq, Repr

/-- A write that completes a 64-bit register: the high half alone, or all eight bytes (R453). -/
inductive RegHigh where
  | high (v : W32)
  | full (v : W64)
  deriving DecidableEq, Repr

/-- The three ways in which CNT_ADD is written (R176). -/
inductive CntWrite where
  | low (v : W32)
  | high (v : W32)
  | full (v : W64)
  deriving DecidableEq, Repr

/-- The two registers of an instance that hold quotas, and the one that holds MSIX (R358, R464). -/
inductive QuotaReg where
  | quota | limits | msix
  deriving DecidableEq, Repr

/-- The reference sources of the Belfry (R147). -/
inductive RefSource where
  | pps | ptp | fabric
  deriving DecidableEq, Repr

/-- What a burst of a transfer, or the fetch of a page, brings from the host: the bytes read, or an error completion
(R339, R241, R254, R276). One whose source is not in host memory uses neither. -/
inductive BurstIn where
  | data (d : List Byte)
  | hostError
  deriving DecidableEq, Repr

/-- An RFP frame as it is received or sent (R309). `fcsOk` is the outcome of the frame check sequence,
and `reservedSet` says that a reserved bit of the header is 1. `cred` and `credPool` are the credits that CRED returns
and their pool; `sync` is the PTP domain of a time message that travels as an IEEE 1588 Sync message (R321). The MAC
addresses of a frame name the devices that SRC_DEV and DST_DEV name. (DESIGN CHOICE, log entry 15) -/
structure Frame where
  version : BitVec 4
  cls : BitVec 2
  hop : Bool
  typ : Byte
  src : W16
  dst : W16
  slice : BitVec 12
  seq : W32
  len : W16
  addr : W64
  payload : List Byte
  fcsOk : Bool
  reservedSet : Bool
  cred : BitVec 12 := 0
  credPool : BitVec 3 := 0
  sync : Option Byte := none
  deriving DecidableEq, Repr

/-- The payload of an ATOMIC frame (R310): AOP of R208, REL, and the operand, with the compare value of
a compare-and-swap. -/
structure AtomicMsg where
  aop : BitVec 4
  rel : Bool
  operand : W64
  compare : W64
  deriving DecidableEq, Repr

/-- The payload of an ACK frame (R313): the cumulative number and the numbers beyond it that the window
marks. -/
structure AckMsg where
  cls : BitVec 2
  cumulative : W32
  window : List W32
  deriving DecidableEq, Repr

/-- The payload of a NAK frame (R310). -/
structure NakMsg where
  cls : BitVec 2
  seq : W32
  reason : Byte
  deriving DecidableEq, Repr

/-- The payload of COLL_PULL and COLL_CTRL frames (R310, R323). `phase` is 0 for the first
pulls of a collective and 1 for the all-gather of COLL.AR; `len` is the length that a pull asks for. -/
structure CollMsg where
  group : W16
  seq : W32
  rank : Nat
  block : Nat
  phase : Nat
  listCrc : W32
  missing : Nat
  len : Nat
  deriving DecidableEq, Repr

/-- The payload of a TIME frame (R321), with the local time at which it was received. -/
structure TimeMsg where
  originNs : W64
  originFrac : W16
  gm : W16
  seq : W16
  hops : Byte
  correction : W64
  deriving DecidableEq, Repr

/-- The payload of a LAUNCH frame (R310, R166). -/
structure LaunchMsg where
  tag : W32
  group : W16
  t : W64
  reason : Byte
  rank : Nat
  listCrc : W32
  outcome : BitVec 2
  missing : Nat
  deriving DecidableEq, Repr

/-- The payload of an IDENT frame (R305). -/
structure IdentMsg where
  dev : W16
  link : Byte
  width : Byte
  slice : BitVec 12
  systemId : W64
  plane : Bool
  deriving DecidableEq, Repr

/-- A placement record of a weight image (R119). -/
structure PlaceRec where
  tile : W16
  array : Byte
  format : Byte
  matrix : W32
  kblock : W16
  nblock : W16
  outliers : W32
  deriving DecidableEq, Repr

/-- A section-table entry of a weight image (R118), with the outcome of its decryption. -/
structure SectionRec where
  typ : W16
  count : W32
  offset : W64
  length : W64
  nonce : BitVec 96
  reservedZero : Bool
  tagOk : Bool
  deriving DecidableEq, Repr

/-- A recipient record of the wrapped-key block (R121): its key ID, and the outcomes of decapsulation
and key unwrapping. -/
structure KeyRec where
  keyId : W64
  unwrapOk : Bool
  deriving DecidableEq, Repr

/-- A weight image as the security engine fetches and decrypts it (R116 to R122), with the outcomes of
the cryptographic operations on it. `weights`, `scales` and `seeds` list the bytes of their sections
that are not 0. (DESIGN CHOICE, log entry 15) -/
structure ImageFile where
  fetchOk : Bool
  magic : W32
  version : W16
  headerLength : W16
  imageId : W64
  deviceId : W16
  minRev : Byte
  rollback : Byte
  sectionCount : W16
  imageLength : W64
  sigOffset : W64
  arrays : W32
  headerReservedZero : Bool
  sections : List SectionRec
  keyMagic : W32
  keyVersion : W16
  keyRecords : W16
  keyImageId : W64
  keyReservedZero : Bool
  keyRecs : List KeyRec
  sigMagic : W32
  sigVersion : W16
  sigFlags : W16
  sigReservedZero : Bool
  publisher : BitVec 384
  ecdsaOk : Bool
  mldsaOk : Bool
  placement : List PlaceRec
  placementReservedZero : Bool
  weights : List (Nat × Byte)
  scales : List (Nat × Byte)
  outliers : List W64
  deriving DecidableEq, Repr

/-- A cell pair found failed by VERIFYING (R76): its row, its cell column (512 + g for check column g),
the value read back, and whether it is in the illegal state (R55). -/
structure FailedPair where
  row : Fin 512
  col : Fin 528
  read : Int
  illegal : Bool
  deriving DecidableEq, Repr

/-- A trim of one column of a physical array (R83): FP16 gain and offset. -/
structure TrimRec where
  col : Fin 528
  gain : W16
  offset : W16
  deriving DecidableEq, Repr

/-- The outcome of a trim measurement (R76): the trims that are not gain 1.0 and offset 0.0, the converter
self-test, and the pairs found in the illegal state (R55). -/
structure CalResult where
  trims : List TrimRec
  selfTestOk : Bool
  illegal : List FailedPair := []
  deriving DecidableEq, Repr

/-- A trim written by drift calibration (R429): the physical tile within the field, the physical
array, and the trim. -/
structure TrimWrite where
  tile : Fin 66
  array : Fin 68
  trim : TrimRec
  deriving DecidableEq, Repr

/-- Where a residue error is found (R377). -/
inductive ResidueSite where
  | readout (t : TileId) (a : Fin 68)
  | accumulator (t : TileId)
  | lanes (t : TileId)
  | exact (t : TileId)
  | attention (n : Fin 8)
  | sampler (lane : Fin 4)
  | collective (n : Fin 4)
  /-- A Lantern slot holds another value than was written to it: its next read fails the check (R94). -/
  | ltnSlot (t : TileId) (slot : Fin 8192) (value : W64)
  /-- The next read of an overflow entry, by its index in its set, fails the check (R94). -/
  | overflow (t : TileId) (ix : Nat)
  deriving DecidableEq, Repr

/-- What the controller finds when it reads a line (R335). -/
inductive ScrubResult where
  | clean | corrected | uncorrectable
  deriving DecidableEq, Repr

/-- What a test of a SENSE input finds (R427). -/
structure SenseTest where
  open_ : Bool
  short : Bool
  reversed : Bool
  deriving DecidableEq, Repr

/-- A block of an ATTN's row as an engine takes it: the row, and what the read of a page in host memory brings (R254). -/
structure RowBlock where
  row : Fin 1024
  data : BurstIn
  deriving DecidableEq, Repr

/-- A link whose retraining through DEGRADE has ended, with the polarity and lane map it found (R302). -/
structure Retrained where
  link : Link
  pol : BitVec 4
  lmap : Byte
  deriving DecidableEq, Repr

/-- A hard fault of a unit that the Keep has found, or the fence of a unit that it has been asked for (R389). -/
structure HardFault where
  unit : UnitId
  asked : Bool
  deriving DecidableEq, Repr

/-- A read of a register or a page: where, and how many bytes (R446). -/
structure ReadSpan where
  place : RegTarget
  size : Nat
  deriving DecidableEq, Repr

/-- The commands, in the order of the opcode table. (DESIGN CHOICE, log entry 15) -/
inductive Instr where
  /-- ADD (R201). Integer add of g[A] and a register or immediate, modulo 2^64, into g[DEST]. -/
  | add (t : Tid) (g : Guard) (d a : GReg) (b : Src)
  /-- SUB (R201). Integer subtract of a register or immediate from g[A], modulo 2^64. -/
  | sub (t : Tid) (g : Guard) (d a : GReg) (b : Src)
  /-- MUL (R201). Low 64 bits of the product of g[A] and a register or immediate. -/
  | mul (t : Tid) (g : Guard) (d a : GReg) (b : Src)
  /-- MULH (R201). High 64 bits of the signed or unsigned 128-bit product of g[A] and g[B]. -/
  | mulh (t : Tid) (g : Guard) (uns : Bool) (d a b : GReg)
  /-- DIV (R202). Signed or unsigned division rounded towards zero, with defined results for a divisor of 0 and for overflow. -/
  | div (t : Tid) (g : Guard) (uns : Bool) (d a b : GReg)
  /-- REM (R202). Signed or unsigned remainder, equal to the dividend when the divisor is 0. -/
  | rem (t : Tid) (g : Guard) (uns : Bool) (d a b : GReg)
  /-- AND (R201). Bitwise AND of g[A] with a register or immediate. -/
  | and (t : Tid) (g : Guard) (d a : GReg) (b : Src)
  /-- OR (R201). Bitwise OR of g[A] with a register or immediate. -/
  | or (t : Tid) (g : Guard) (d a : GReg) (b : Src)
  /-- XOR (R201). Bitwise XOR of g[A] with a register or immediate. -/
  | xor (t : Tid) (g : Guard) (d a : GReg) (b : Src)
  /-- SHL (R201). Shift g[A] left by bits 5:0 of the operand. -/
  | shl (t : Tid) (g : Guard) (d a : GReg) (b : Src)
  /-- SHR (R201). Shift g[A] right with zero fill. -/
  | shr (t : Tid) (g : Guard) (d a : GReg) (b : Src)
  /-- SHA (R201). Shift g[A] right with sign fill. -/
  | sha (t : Tid) (g : Guard) (d a : GReg) (b : Src)
  /-- MIN (R201). Signed minimum of g[A] and g[B]. -/
  | min (t : Tid) (g : Guard) (d a b : GReg)
  /-- MAX (R201). Signed maximum of g[A] and g[B]. -/
  | max (t : Tid) (g : Guard) (d a b : GReg)
  /-- MINU (R201). Unsigned minimum of g[A] and g[B]. -/
  | minu (t : Tid) (g : Guard) (d a b : GReg)
  /-- MAXU (R201). Unsigned maximum of g[A] and g[B]. -/
  | maxu (t : Tid) (g : Guard) (d a b : GReg)
  /-- SEL (R201). Selects g[A] or g[B] by a predicate named in SUB bits 2:0. -/
  | sel (t : Tid) (g : Guard) (d a b : GReg) (p : PReg)
  /-- CLZ (R201). Counts the leading zeros of g[A]. -/
  | clz (t : Tid) (g : Guard) (d a : GReg)
  /-- CTZ (R201). Counts the trailing zeros of g[A]. -/
  | ctz (t : Tid) (g : Guard) (d a : GReg)
  /-- POPC (R201). Counts the one bits of g[A]. -/
  | popc (t : Tid) (g : Guard) (d a : GReg)
  /-- ADDPC (R201). Writes the instruction address plus IMM24 × 8. -/
  | addpc (t : Tid) (g : Guard) (d : GReg) (imm : BitVec 24)
  /-- CMP_EQ (R203). Sets a predicate to g[A] = b. -/
  | cmpEq (t : Tid) (g : Guard) (p : PReg) (a : GReg) (b : Src)
  /-- CMP_NE (R203). Sets a predicate to g[A] ≠ b. -/
  | cmpNe (t : Tid) (g : Guard) (p : PReg) (a : GReg) (b : Src)
  /-- CMP_LT (R203). Sets a predicate to signed g[A] < b. -/
  | cmpLt (t : Tid) (g : Guard) (p : PReg) (a : GReg) (b : Src)
  /-- CMP_LE (R203). Sets a predicate to signed g[A] ≤ b. -/
  | cmpLe (t : Tid) (g : Guard) (p : PReg) (a : GReg) (b : Src)
  /-- CMP_LTU (R203). Sets a predicate to unsigned g[A] < b. -/
  | cmpLtu (t : Tid) (g : Guard) (p : PReg) (a : GReg) (b : Src)
  /-- CMP_LEU (R203). Sets a predicate to unsigned g[A] ≤ b. -/
  | cmpLeu (t : Tid) (g : Guard) (p : PReg) (a : GReg) (b : Src)
  /-- PAND (R203). Predicate AND of two predicates. -/
  | pand (t : Tid) (g : Guard) (p a b : PReg)
  /-- POR (R203). Predicate OR of two predicates. -/
  | por (t : Tid) (g : Guard) (p a b : PReg)
  /-- PXOR (R203). Predicate XOR of two predicates. -/
  | pxor (t : Tid) (g : Guard) (p a b : PReg)
  /-- PANDN (R203). Predicate AND-NOT of two predicates. -/
  | pandn (t : Tid) (g : Guard) (p a b : PReg)
  /-- MOVI_L (R201). Loads a sign-extended 32-bit immediate. -/
  | moviL (t : Tid) (g : Guard) (d : GReg) (imm : W32)
  /-- MOVI_H (R201). Replaces the upper 32 bits of g[DEST] with an immediate. -/
  | moviH (t : Tid) (g : Guard) (d : GReg) (imm : W32)
  /-- FADD (R204). FP32 addition, rounded once, with flags ORed into c8. -/
  | fadd (t : Tid) (g : Guard) (d a b : GReg)
  /-- FSUB (R204). FP32 subtraction. -/
  | fsub (t : Tid) (g : Guard) (d a b : GReg)
  /-- FMUL (R204). FP32 multiplication. -/
  | fmul (t : Tid) (g : Guard) (d a b : GReg)
  /-- FDIV (R204). FP32 division with defined results for division by zero. -/
  | fdiv (t : Tid) (g : Guard) (d a b : GReg)
  /-- FSQRT (R204). FP32 square root. -/
  | fsqrt (t : Tid) (g : Guard) (d a : GReg)
  /-- FMIN (R204). FP32 minimum, with −0 below +0. -/
  | fmin (t : Tid) (g : Guard) (d a b : GReg)
  /-- FMAX (R204). FP32 maximum. -/
  | fmax (t : Tid) (g : Guard) (d a b : GReg)
  /-- FABS (R204). Clears the sign bit of an FP32 value. -/
  | fabs (t : Tid) (g : Guard) (d a : GReg)
  /-- FNEG (R204). Inverts the sign bit of an FP32 value. -/
  | fneg (t : Tid) (g : Guard) (d a : GReg)
  /-- FCMP_EQ (R204). Sets a predicate to FP32 equality. -/
  | fcmpEq (t : Tid) (g : Guard) (p : PReg) (a b : GReg)
  /-- FCMP_LT (R204). Sets a predicate to FP32 less-than. -/
  | fcmpLt (t : Tid) (g : Guard) (p : PReg) (a b : GReg)
  /-- FCMP_LE (R204). Sets a predicate to FP32 less-or-equal. -/
  | fcmpLe (t : Tid) (g : Guard) (p : PReg) (a b : GReg)
  /-- FCMP_UN (R204). Sets a predicate when either operand is NaN. -/
  | fcmpUn (t : Tid) (g : Guard) (p : PReg) (a b : GReg)
  /-- CVT (R205). Converts one element between the formats named in SUB and FMT, by R40. -/
  | cvt (t : Tid) (g : Guard) (d a : GReg) (src dst : BitVec 4)
  /-- UNDEFINED_INSTRUCTION (R194). A word with an undefined opcode, sub-operation or reserved bit raises ILLEGAL. -/
  | undefinedInstruction (t : Tid) (w : W64)
  /-- LD (R206). Loads SIZE bytes from g[A] + OFF24 into g[DEST], with alignment, access and error checks. -/
  | ld (t : Tid) (g : Guard) (d a : GReg) (size : BitVec 2) (sx : Bool) (off : BitVec 24)
  /-- ST (R206). Places a store of SIZE bytes into the store buffer after its checks. -/
  | st (t : Tid) (g : Guard) (a b : GReg) (size : BitVec 2) (off : BitVec 24)
  /-- PREFETCH (R207). Asks for a line to be filled into the data cache, or is dropped. -/
  | prefetch (t : Tid) (g : Guard) (a : GReg) (off : BitVec 24)
  /-- AMO_ADD (R208). Atomic add at the memory controller, returning the old value. -/
  | amoAdd (t : Tid) (g : Guard) (d a b : GReg) (rel : Bool)
  /-- AMO_SWAP (R208). Atomic swap at the memory controller. -/
  | amoSwap (t : Tid) (g : Guard) (d a b : GReg) (rel : Bool)
  /-- AMO_CAS (R208). Atomic compare-and-swap at the memory controller. -/
  | amoCas (t : Tid) (g : Guard) (d a b : GReg) (rel : Bool)
  /-- AMO_AND (R208). Atomic AND at the memory controller. -/
  | amoAnd (t : Tid) (g : Guard) (d a b : GReg) (rel : Bool)
  /-- AMO_OR (R208). Atomic OR at the memory controller. -/
  | amoOr (t : Tid) (g : Guard) (d a b : GReg) (rel : Bool)
  /-- AMO_XOR (R208). Atomic XOR at the memory controller. -/
  | amoXor (t : Tid) (g : Guard) (d a b : GReg) (rel : Bool)
  /-- AMO_MIN (R208). Atomic signed minimum. -/
  | amoMin (t : Tid) (g : Guard) (d a b : GReg) (rel : Bool)
  /-- AMO_MAX (R208). Atomic signed maximum. -/
  | amoMax (t : Tid) (g : Guard) (d a b : GReg) (rel : Bool)
  /-- AMO_MINU (R208). Atomic unsigned minimum. -/
  | amoMinu (t : Tid) (g : Guard) (d a b : GReg) (rel : Bool)
  /-- AMO_MAXU (R208). Atomic unsigned maximum. -/
  | amoMaxu (t : Tid) (g : Guard) (d a b : GReg) (rel : Bool)
  /-- FENCE (R209). Release followed by acquire. -/
  | fence (t : Tid) (g : Guard)
  /-- FENCE_R (R209). Holds later stores, atomics and issues until earlier stores are globally visible. -/
  | fenceR (t : Tid) (g : Guard)
  /-- FENCE_A (R209). Invalidates the core's data cache. -/
  | fenceA (t : Tid) (g : Guard)
  /-- FENCE_I (R209). Invalidates the core's instruction cache. -/
  | fenceI (t : Tid) (g : Guard)
  /-- BR (R210). PC-relative branch. -/
  | br (t : Tid) (g : Guard) (imm : W32)
  /-- BRL (R210). PC-relative branch that writes the link address. -/
  | brl (t : Tid) (g : Guard) (d : GReg) (imm : W32)
  /-- JR (R210). Register jump that writes the link address. -/
  | jr (t : Tid) (g : Guard) (d a : GReg) (imm : BitVec 24)
  /-- EXIT (R211). Ends the thread with an exit value. -/
  | exit (t : Tid) (g : Guard) (a : GReg) (imm : W32)
  /-- NOP (R212). Does nothing. -/
  | nop (t : Tid) (g : Guard)
  /-- STEP (R212). Releases, adds 1 to the thread's STEP and writes its checkpoint. -/
  | step (t : Tid) (g : Guard)
  /-- YIELD (R212). Marks the thread as having held its slot for a full quantum. -/
  | yield (t : Tid) (g : Guard)
  /-- ERET (R213). Leaves the handler and resumes at EXC_PC. -/
  | eret (t : Tid) (g : Guard)
  /-- ERET_SKIP (R213). Leaves the handler and resumes at EXC_PC + 8. -/
  | eretSkip (t : Tid) (g : Guard)
  /-- ERET_TO (R213). Leaves the handler and resumes at g[SRCA]. -/
  | eretTo (t : Tid) (g : Guard) (a : GReg)
  /-- BREAK (R214). Raises the BREAK exception. -/
  | brk (t : Tid) (g : Guard) (imm : W16)
  /-- TRAP (R214). Raises the TRAP exception. -/
  | trap (t : Tid) (g : Guard) (imm : W16)
  /-- CSRR (R215). Reads a control register into g[DEST]. -/
  | csrr (t : Tid) (g : Guard) (d : GReg) (n : BitVec 6)
  /-- CSRW (R215). Writes a control register, with the rules for PRIO, CAD and AFLAGS. -/
  | csrw (t : Tid) (g : Guard) (a : GReg) (n : BitVec 6)
  /-- RDREG (R218). Reads a BAR0 register into g[DEST]. -/
  | rdreg (t : Tid) (g : Guard) (d a : GReg)
  /-- WRREG (R218). Writes a BAR0 register and retires once the block has accepted it. -/
  | wrreg (t : Tid) (g : Guard) (a b : GReg)
  /-- TCTL_SUSPEND (R219). Suspends a target thread at its next instruction boundary. -/
  | tctlSuspend (t : Tid) (g : Guard) (d a : GReg)
  /-- TCTL_RESUME (R219). Returns a suspended thread to its previous state. -/
  | tctlResume (t : Tid) (g : Guard) (d a : GReg)
  /-- TCTL_ABORT (R219). Aborts a target thread. -/
  | tctlAbort (t : Tid) (g : Guard) (d a : GReg)
  /-- RESTORE_FACTORY (R220). A privileged thread passes RESTORE_FACTORY to the Keep. -/
  | restoreFactory (t : Tid) (g : Guard) (d : GReg)
  /-- ZEROISE (R220). A privileged thread starts zeroise when ZARM is armed. -/
  | zeroise (t : Tid) (g : Guard) (d : GReg)
  /-- ZARM_EXPIRY (R217). ZARM disarms 1 µs after it was armed. -/
  | zarmExpiry (t : Tid)
  /-- PASS (R229). Issues an analogue pass operation. -/
  | pass (t : Tid) (g : Guard) (d a : GReg) (try_ : Bool)
  /-- PASS_X (R237). Issues an exact pass operation on the exact units. -/
  | passX (t : Tid) (g : Guard) (d a : GReg) (try_ : Bool)
  /-- DRAIN (R235). Issues a drain of a held accumulator block. -/
  | drain (t : Tid) (g : Guard) (d a : GReg) (try_ : Bool)
  /-- LTN_LOAD (R239). Issues the load of a Lantern set into a range of tiles. -/
  | ltnLoad (t : Tid) (g : Guard) (d a : GReg) (try_ : Bool)
  /-- LTN_REL (R239). Issues the release of a variant in a range of tiles. -/
  | ltnRel (t : Tid) (g : Guard) (d a : GReg) (try_ : Bool)
  /-- ATTN (R242). Issues an attention operation. -/
  | attn (t : Tid) (g : Guard) (d a : GReg) (try_ : Bool)
  /-- SAMPLE (R243). Issues a sampling operation. -/
  | sample (t : Tid) (g : Guard) (d a : GReg) (try_ : Bool)
  /-- XFER_COPY (R241). Issues a copy of LEN bytes. -/
  | xferCopy (t : Tid) (g : Guard) (d a : GReg) (try_ : Bool)
  /-- XFER_GATHER (R241). Issues a gather of indexed rows. -/
  | xferGather (t : Tid) (g : Guard) (d a : GReg) (try_ : Bool)
  /-- XFER_PAGES (R276). Issues a copy of pages along page lists. -/
  | xferPages (t : Tid) (g : Guard) (d a : GReg) (try_ : Bool)
  /-- XFER_FILL (R241). Issues a fill of activation positions from memory. -/
  | xferFill (t : Tid) (g : Guard) (d a : GReg) (try_ : Bool)
  /-- COLL_AR (R324). Issues an all-reduce. -/
  | collAr (t : Tid) (g : Guard) (d a : GReg) (try_ : Bool)
  /-- COLL_RS (R324). Issues a reduce-scatter. -/
  | collRs (t : Tid) (g : Guard) (d a : GReg) (try_ : Bool)
  /-- COLL_AG (R324). Issues an all-gather. -/
  | collAg (t : Tid) (g : Guard) (d a : GReg) (try_ : Bool)
  /-- COLL_A2A (R324). Issues an all-to-all. -/
  | collA2a (t : Tid) (g : Guard) (d a : GReg) (try_ : Bool)
  /-- COLL_BC (R324). Issues a broadcast. -/
  | collBc (t : Tid) (g : Guard) (d a : GReg) (try_ : Bool)
  /-- COLL_BAR (R324). Issues a barrier. -/
  | collBar (t : Tid) (g : Guard) (d a : GReg) (try_ : Bool)
  /-- CWAIT (R247). Waits for the next tick of the thread's bound cadence. -/
  | cwait (t : Tid) (g : Guard) (d : GReg) (limit : W32)
  /-- WAITAT (R248). Waits until the timebase reaches a target. -/
  | waitat (t : Tid) (g : Guard) (d a : GReg)
  /-- CNTWAIT (R249). Waits until a completion counter reaches a target. -/
  | cntwait (t : Tid) (g : Guard) (d a b : GReg) (limit : W32)
  /-- ARM (R250). Places an operation in the launch table for an instant T. -/
  | arm (t : Tid) (g : Guard) (d a b : GReg)
  /-- ARM_G (R250). Places a group launch and reports ARMED or NOT_ARMED to the coordinator. -/
  | armG (t : Tid) (g : Guard) (d a b : GReg)
  /-- DISARM (R251). Moves an ARMED launch entry to MISSED before T − 8 µs. -/
  | disarm (t : Tid) (g : Guard) (d a : GReg)
  /-- WAITAT_RETURN (R248). A time wait returns when NS reaches its target. -/
  | waitatReturn (t : Tid)
  /-- WAIT_LIMIT (R246). A wait that outlasts its LIMIT raises WAIT_LIMIT. -/
  | waitLimit (t : Tid)
  /-- RING_DOORBELL (R177). A write of RINGj.TAIL makes the device read new launch records. -/
  | ringDoorbell (by_ inst : Inst) (j : Fin 4) (tail : W32)
  /-- LAUNCH_RECORD (R178). The device reads one launch record and starts a thread or refuses the record. -/
  | launchRecord (inst : Inst) (j : Fin 4)
  /-- RING_ENABLE (R176). A write of RINGj.CTL.ENABLE starts or stops reading the ring. -/
  | ringEnable (by_ inst : Inst) (j : Fin 4) (ctl : W32)
  /-- CLR_STOP (R176). Clears STOPPED and ERR of a stopped ring. -/
  | clrStop (by_ inst : Inst) (j : Fin 4)
  /-- CNT_ADD (R176). A host write adds its value to the counter at CNT_ADDR, with release. -/
  | cntAdd (by_ inst : Inst) (w : CntWrite)
  /-- ABORT_TID (R192). A host write aborts a thread of the instance. -/
  | abortTid (by_ inst : Inst) (v : W32)
  /-- SWAP (R172). The scheduler saves a victim's context and loads a READY thread into a hot slot. -/
  | swap (t : Tid)
  /-- QUANTUM_EXPIRY (R172). A HOT thread has held its slot for SCHED.QUANTUM and becomes a possible victim. -/
  | quantumExpiry (t : Tid)
  /-- COUNTER_POLL (R184). A plain store or an unwatched add to a counter is seen by its waiter. -/
  | counterPoll (t : Tid)
  /-- CORE_FAULT (R188). A core fault checks and drains store entries, fences the core and moves or aborts its threads. -/
  | coreFault (c : Fin 256) (bad : List Nat)
  /-- THREAD_RESTART (R398). After its post-checkpoint operations end, a suspended thread reloads its checkpoint and resumes. -/
  | threadRestart (t : Tid)
  /-- OPERATION_START (R226). An issued operation starts once its WAIT counter is met, reads its body and validates it. -/
  | operationStart (e : OpIx)
  /-- WAIT_EXPIRED (R226). An operation not started 2^30 ns after issue completes with WAIT_EXPIRED. -/
  | waitExpired (e : OpIx)
  /-- OPERATION_COMPLETE (R227). An operation writes its status, adds its counter and frees its entry. -/
  | operationComplete (e : OpIx)
  /-- POSITION_WRITE (R81). A write to an activation position is accepted once the position is free. -/
  | positionWrite (t : TileId) (p : Fin 64)
  /-- PASS_BOUNDARY (R64). A tile's pass boundary admits passes and applies PASS-class values. -/
  | passBoundary (t : TileId)
  /-- PASS_RESULT (R485). The readout paths deliver the column results of a pass to the accumulator. -/
  | passResult (t : TileId) (a : Fin 64) (codes : List (Nat × BitVec 12))
  /-- BLOCK_DRAIN_END (R233). A block drain has written its outputs, seeds or positions. -/
  | blockDrainEnd (t : TileId) (b : Fin 2)
  /-- SEED (R86). A seed arrives at the next tile of a K-split list. -/
  | seed (t : TileId)
  /-- QUANTISE_RENDEZVOUS (R233). Once every tile knows its part of a vector, quantise forms the scale and codes. -/
  | quantiseRendezvous (e : OpIx) (v : Fin 32)
  /-- SEAL (R263). Once key writes are visible, the page's engine writes its digest and sets DVALID. -/
  | seal (e : OpIx)
  /-- EXACT_PASS_DONE (R113). The exact unit finishes an exact pass, a substitution or a recompute. -/
  | exactPassDone (t : TileId)
  /-- RECOMPUTE_DONE (R381). A recompute compares every conversion with its exact sum. -/
  | recomputeDone (t : TileId)
  /-- LTN_COMMIT (R111). A Lantern set load commits in one tile at a pass boundary. -/
  | ltnCommit (t : TileId) (e : OpIx)
  /-- ATTN_BLOCK (R254, R269). An attention engine finishes a block, which the tail engine combines in order. -/
  | attnBlock (e : OpIx) (row : RowBlock)
  /-- SAMPLE_ROW (R284). A sampler lane processes one row and writes its token. -/
  | sampleRow (e : OpIx) (lane : Fin 4)
  /-- COMPACTION_COPY (R298). The keys and values of accepted nodes are copied and LEN is set. -/
  | compactionCopy (e : OpIx)
  /-- BURST_DONE (R339). A transfer burst lands and PROG advances over the contiguous prefix. -/
  | burstDone (x : Fin 32) (d : BurstIn)
  /-- TRANSFER_ENGINE_FAULT (R340). A faulted engine stops and its operation resumes from PROG on another engine. -/
  | transferEngineFault (x : Fin 32)
  /-- WRITE (R313). A WRITE frame is received, applied once and acknowledged. -/
  | write (l : Link) (f : Frame)
  /-- READ (R310). A READ frame is received and answered with READ_DATA. -/
  | read (l : Link) (f : Frame)
  /-- ATOMIC (R310). An ATOMIC frame is received and performed at the memory controller. -/
  | atomic (l : Link) (f : Frame) (m : AtomicMsg)
  /-- ACK (R313). An ACK frame releases the acknowledged frames. -/
  | ack (l : Link) (f : Frame) (m : AckMsg)
  /-- NAK (R315). A NAK frame fails the operation with PEER_REFUSED. -/
  | nak (l : Link) (f : Frame) (m : NakMsg)
  /-- READ_DATA (R310). The data of a READ arrives. -/
  | readData (l : Link) (f : Frame)
  /-- ATOMIC_DATA (R310). The old value of an ATOMIC arrives. -/
  | atomicData (l : Link) (f : Frame)
  /-- COLL_PULL (R324). A pull is answered, or recorded as an early pull. -/
  | collPull (l : Link) (f : Frame) (m : CollMsg)
  /-- COLL_DATA (R324). Pulled data arrives in reserved staging and is folded in rank order. -/
  | collData (l : Link) (f : Frame)
  /-- ARRIVE (R324). The coordinator records a rank's arrival at a barrier. -/
  | arrive (l : Link) (f : Frame) (m : CollMsg)
  /-- RELEASE (R324). A barrier member is released. -/
  | release (l : Link) (f : Frame) (m : CollMsg)
  /-- ABORT (R326). A member ends its collective with MEMBER_LOST. -/
  | abort (l : Link) (f : Frame) (m : CollMsg)
  /-- COLL_TIMEOUT (R326). An unanswered pull past COLL.TIMEOUT ends the collective. -/
  | collTimeout (e : OpIx)
  /-- TIME (R321). A TIME frame gives a fabric time measurement and is relayed. -/
  | time (l : Link) (f : Frame) (m : TimeMsg)
  /-- DELAY_REQ (R149). A link delay request is timestamped and answered. -/
  | delayReq (l : Link) (f : Frame) (t1 : W64)
  /-- DELAY_RESP (R149). A link delay answer sets the link delay. -/
  | delayResp (l : Link) (f : Frame) (roundTrip : W64)
  /-- ARMED (R166). The coordinator records a member's ARMED message. -/
  | armed (l : Link) (f : Frame) (m : LaunchMsg)
  /-- NOT_ARMED (R166). The coordinator records a member's refusal. -/
  | notArmed (l : Link) (f : Frame) (m : LaunchMsg)
  /-- GO (R166). A member's entry receives GO. -/
  | go (l : Link) (f : Frame) (m : LaunchMsg)
  /-- NOGO (R166). A member's entry receives NOGO and becomes MISSED. -/
  | nogo (l : Link) (f : Frame) (m : LaunchMsg)
  /-- NO_VERDICT (R166). The coordinator records that a member had no verdict. -/
  | noVerdict (l : Link) (f : Frame) (m : LaunchMsg)
  /-- OUTCOME (R167). A member receives the group outcome and writes its status. -/
  | outcome (l : Link) (f : Frame) (m : LaunchMsg)
  /-- IDENT (R305). An IDENT frame is checked and leads to CREDIT or MISWIRED. -/
  | ident (l : Link) (f : Frame) (m : IdentMsg)
  /-- CREDIT (R312). Returned credits may release frames waiting to be sent. -/
  | credit (l : Link) (pool : Fin 8) (credits : BitVec 12)
  /-- PFC_PAUSE (R312). A received pause frame stops or restarts a class on a plane link. -/
  | pfcPause (l : Link) (cls : Fin 4) (xoff : Bool)
  /-- RETRANSMIT (R313). A frame not acknowledged within RTO is sent again, or after 8 tries the destination is lost. -/
  | retransmit (i : Nat)
  /-- PATH_WAIT_EXPIRY (R313). A destination without a path for PATH_WAIT is lost. -/
  | pathWaitExpiry (dst : W16)
  /-- TIME_MESSAGE_SEND (R149). Every 1 ms a time message goes out on each relay link. -/
  | timeMessageSend
  /-- DELAY_EXCHANGE (R149). Every 1 ms a two-way timestamp exchange runs on each relay link. -/
  | delayExchange
  /-- LINK_ENABLE (R304). Writing ENABLE 1 takes a link from DISABLED to DETECT. -/
  | linkEnable (by_ : Requester) (l : Link)
  /-- LINK_DISABLE (R308). Writing ENABLE 0 sends a link to DISABLED. -/
  | linkDisable (by_ : Requester) (l : Link)
  /-- RETRAIN (R308). Retrains a link from DETECT with a = 1. -/
  | retrain (by_ : Requester) (l : Link)
  /-- SIGNAL_DETECT (R304). Signal present for 1 ms moves DETECT to TRAIN, or leaves PARKED. -/
  | signalDetect (l : Link)
  /-- TRAINING_COMPLETE (R304). PMD training ends on every lane with signal. -/
  | trainingComplete (l : Link) (pol : BitVec 4)
  /-- ALIGN_COMPLETE (R306). Lock, lane order and width are resolved. -/
  | alignComplete (l : Link) (lmap : Byte) (healthy : BitVec 4)
  /-- LINK_TIMEOUT (R304). A training state times out and the link goes to BACKOFF. -/
  | linkTimeout (l : Link)
  /-- LOSS_OF_SIGNAL (R304). Loss of signal on every lane sends the link to BACKOFF. -/
  | lossOfSignal (l : Link)
  /-- LANE_FAULT (R306). An ACTIVE lane fault starts retraining at a narrower width. -/
  | laneFault (l : Link) (lanes : BitVec 4) (narrowOk : Bool)
  /-- DEGRADE_DONE (R306). Retraining at the narrower width reaches ACTIVE. -/
  | degradeDone (l : Retrained)
  /-- BACKOFF_END (R307). The backoff wait ends and the link goes to DETECT or PARKED. -/
  | backoffEnd (l : Link)
  /-- PARK_EXPIRY (R304). PARK_S seconds pass and a parked link retries. -/
  | parkExpiry (l : Link)
  /-- EPOCH_BOUNDARY (R156). At an epoch boundary, EPOCH-class values apply together. -/
  | epochBoundary
  /-- CADENCE_TICK (R159). A cadence tick occurs and wakes bound threads. -/
  | cadenceTick (n : Fin 256)
  /-- LAUNCH_DISPATCH (R165). At T a local or COMMITTED entry dispatches its operation. -/
  | launchDispatch (i : LaunchIx)
  /-- COMMIT_POINT (R166). At T − 3 µs the coordinator sends GO or NOGO. -/
  | commitPoint (i : Nat)
  /-- VERDICT_DEADLINE (R166). At T − 1 µs an entry without a verdict becomes MISSED. -/
  | verdictDeadline (i : LaunchIx)
  /-- OUTCOME_SEND (R166). At T + 5 µs the coordinator sends the outcome. -/
  | outcomeSend (i : Nat)
  /-- OUTCOME_DEADLINE (R167). With no outcome by T + 6.5 µs the entry writes UNKNOWN. -/
  | outcomeDeadline (i : LaunchIx)
  /-- PPS_EDGE (R147). A PPS_IN edge gives a measurement, qualification or a pending step. -/
  | ppsEdge (refclk : BitVec 2) (frac : Byte)
  /-- PTP_SYNC (R148). A PTP sync exchange gives a measurement. -/
  | ptpSync (remote : W64) (remoteFrac : W16)
  /-- PTP_ANNOUNCE (R147). A PTP Announce qualifies or keeps the PTP source. -/
  | ptpAnnounce (domain : Byte) (chosen : Bool) (exchanged : Option Bool)
  /-- REFERENCE_LOSS (R147). A source times out and is lost, causing reselection or HOLDOVER. -/
  | referenceLoss (src : RefSource) (refclkGone : Bool)
  /-- SOURCE_REVERT (R150). A higher-priority source qualified for 10 s is selected. -/
  | sourceRevert
  /-- SET_TIME (R152). A write of the high half of SET_TIME steps, arms a step at a PPS edge, or is ignored. -/
  | setTime (by_ : Requester) (v : RegHigh)
  /-- HOLDOVER_LIMIT (R153). HOLDOVER outlasts HOLD_LIMIT and HOLD_EXPIRED is set. -/
  | holdoverLimit
  /-- PPS_OUT_PULSE (R155). PPS_OUT rises at each second of NS. -/
  | ppsOutPulse
  /-- PPS_OUT_END (R155). PPS_OUT falls after 100 µs. -/
  | ppsOutEnd
  /-- IMAGE_LOAD_FULL (R124). GO with MODE FULL starts an image load onto free tiles. -/
  | imageLoadFull (by_ : Requester)
  /-- IMAGE_LOAD_ROLLING (R135). GO with MODE ROLLING starts a rolling rewrite load. -/
  | imageLoadRolling (by_ : Requester)
  /-- IMAGE_LOAD_UNLOCK (R486). GO with MODE UNLOCK starts an unlock load. -/
  | imageLoadUnlock (by_ : Requester)
  /-- IMAGE_COMMIT (R125). Verification ends and the incoming slot is marked valid, or the load fails. -/
  | imageCommit (f : ImageFile)
  /-- PV_GRANT (R128). A program-verify engine and write slot are granted, taking an array to WRITING. -/
  | pvGrant (t : TileId)
  /-- WRITING_DONE (R127). The verify loops end and the array goes to VERIFYING. -/
  | writingDone (t : TileId) (loops : Nat)
  /-- VERIFYING_DONE (R76). After 40 µs the failed pairs decide CALIBRATING, SPARE or FENCED. -/
  | verifyingDone (t : TileId) (failed : List FailedPair)
  /-- CAL_DONE (R76). Trim measurement ends, with CAL_DONE set or a touch-up or fence. -/
  | calDone (t : TileId) (a : Fin 68) (r : CalResult)
  /-- DRAINING_DONE (R76). A draining array's last pass ends and it moves on. -/
  | drainingDone (t : TileId) (a : Fin 68)
  /-- ZEROISE_COMPLETE (R141). The last erase ends and the Keep lifts the fences. -/
  | zeroiseComplete
  /-- INST_ENABLE (R362). Writing ENABLE 1 makes an instance ENABLED. -/
  | instEnable (by_ : Requester) (n : Inst)
  /-- INST_DISABLE (R362). Writing ENABLE 0 resets the instance and leaves it DISABLED. -/
  | instDisable (by_ : Requester) (n : Inst)
  /-- INST_RESET (R367). Writing RESET starts an instance reset. -/
  | instReset (by_ : Requester) (n : Inst)
  /-- VF_FLR (R366). A function-level reset of a VF resets its instance. -/
  | vfFlr (n : Inst)
  /-- VF_ENABLE_CLEAR (R366). Clearing VF Enable resets instances 1 to 31. -/
  | vfEnableClear
  /-- INST_RESET_DONE (R367). Once work has stopped and statuses are written, the instance's state is cleared. -/
  | instResetDone (n : Inst)
  /-- QUOTA_WRITE (R358). A quota write is checked against the device totals. -/
  | quotaWrite (by_ : Requester) (n : Inst) (r : QuotaReg) (view : View) (v : W32)
  /-- MEM_RANGE_WRITE (R361). A MEMi write is checked for overlap and range. -/
  | memRangeWrite (by_ : Requester) (n : Inst) (i : Fin 8) (view : View) (v : W32)
  /-- RANGE_SCRUB_DONE (R361). Zeroing of a removed user-memory range ends. -/
  | rangeScrubDone (n : Inst)
  /-- TID_WRITE (R361). A TID write is checked for overlap and range. -/
  | tidWrite (by_ : Requester) (n : Inst) (view : View) (v : W32)
  /-- TOWN_DATA_WRITE (R360). A TILE_OWN write changes a tile's owner, validity or group. -/
  | townDataWrite (by_ : Requester) (n : Inst) (v : W32)
  /-- RESIDUE_ERROR (R377). A residue error is retried once and a second error fences the unit. -/
  | residueError (r : ResidueSite)
  /-- UNIT_HARD_FAULT (R389). A unit's hard fault fences and contains it under the casebook. -/
  | unitHardFault (u : HardFault)
  /-- PATROL_SCRUB (R335). The patrol scrub reads each line once in 24 h. -/
  | patrolScrub (a : W64) (r : ScrubResult)
  /-- STACK_ZEROED (R469). A memory controller ends zeroing its stack at start-up. -/
  | stackZeroed (s : Fin 8)
  /-- BAR4_READ (R351). A host read of device memory, all ones outside the instance's memory. -/
  | bar4Read (fn : Inst) (a : W64) (len : Nat)
  /-- BAR4_WRITE (R341). A host write of device memory, applied granule by granule. -/
  | bar4Write (fn : Inst) (a : W64) (data : List Byte)
  /-- CXL_MEM_READ (R356). A CXL.mem read through an HDM decoder. -/
  | cxlMemRead (a : W64)
  /-- CXL_MEM_WRITE (R356). A CXL.mem write through an HDM decoder. -/
  | cxlMemWrite (a : W64) (data : List Byte)
  /-- HDM_COMMIT (R356). The PF commits an HDM decoder, refused outside one instance. -/
  | hdmCommit (i : Fin 4) (base size dev : W64) (inst : Inst)
  /-- HOST_COMPLETION (R341). A completion for a device request arrives from the host. -/
  | hostCompletion (tag : Fin 1024) (ok : Bool) (data : List Byte)
  /-- COMPLETION_TIMEOUT (R337). A host request times out and its requester reports an error. -/
  | completionTimeout (tag : Fin 1024)
  /-- MSIX_UNMASK (R354). Unmasking a vector delivers its pending interrupt. -/
  | msixUnmask (fn : Inst) (v : Fin 2048)
  /-- DOE_DISCOVERY (R355). A DOE Discovery request is answered. -/
  | doeDiscovery (index : Byte)
  /-- GET_VERSION (R355). An SPDM GET_VERSION request is answered. -/
  | getVersion
  /-- GET_CAPABILITIES (R355). An SPDM GET_CAPABILITIES request is answered. -/
  | getCapabilities
  /-- NEGOTIATE_ALGORITHMS (R355). An SPDM NEGOTIATE_ALGORITHMS request is answered. -/
  | negotiateAlgorithms (p384 sha384 : Bool)
  /-- GET_DIGESTS (R355). An SPDM GET_DIGESTS request is answered. -/
  | getDigests
  /-- GET_CERTIFICATE (R355). An SPDM GET_CERTIFICATE request returns the identity chain. -/
  | getCertificate (slot : BitVec 4) (off len : W16)
  /-- CHALLENGE (R355). An SPDM CHALLENGE request is signed. -/
  | challenge (slot : BitVec 4) (nonce : BitVec 256)
  /-- GET_MEASUREMENTS (R355). An SPDM GET_MEASUREMENTS request returns signed measurements. -/
  | getMeasurements (op : Byte) (nonce : BitVec 256)
  /-- PERST_N_FALL (R474). PERST_N low resets the host interface and every instance. -/
  | perstNFall
  /-- PERST_N_RISE (R470). PERST_N rises and link training starts. -/
  | perstNRise
  /-- PF_FLR (R474). A PF function-level reset acts as PERST_N with the link kept. -/
  | pfFlr
  /-- PERST_SCRUB_DONE (R475). The reset scrub of stacked memory ends and rings may be read. -/
  | perstScrubDone
  /-- P12AUX_QUALIFIED (R469). P12AUX qualifies, always-on domains start and the Keep boots. -/
  | p12auxQualified (copyA copyB : Bool)
  /-- P12AUX_LOSS (R402). Loss of P12AUX switches all domains off and stops the Keep after hold-up. -/
  | p12auxLoss
  /-- P48_QUALIFIED (R469). P48 qualifies and the Keep brings domains up. -/
  | p48Qualified (v : W16)
  /-- P48_WARNING (R400). P48 falls below 40 V and a POWER record is issued. -/
  | p48Warning (v : W16)
  /-- P48_LOSS (R402). P48 under- or over-voltage switches every domain off. -/
  | p48Loss (v : W16)
  /-- PIN_SHORT (R404). A driven pin disagrees for 1 ms and is released with SHORT set. -/
  | pinShort (p : Fin 9)
  /-- SHORT_RETRY (R404). Every 1 s a shorted pin is tried again. -/
  | shortRetry (p : Fin 9) (free : Bool)
  /-- DOMAIN_ON (R407). A switch-on request with its dependencies, or a refusal. -/
  | domainOn (by_ : Requester) (d : BitVec 6)
  /-- DOMAIN_OFF (R407). A switch-off request, fencing field tiles first, or a refusal. -/
  | domainOff (by_ : Requester) (d : BitVec 6)
  /-- DOMAIN_USABLE (R408). A domain becomes usable and the next group may start. -/
  | domainUsable (d : Fin 47)
  /-- SENSOR_SAMPLE (R411). Every 100 µs the sensors are sampled and out-of-range ones marked FAILED. -/
  | sensorSample (readings : List (Nat × W16))
  /-- SENSOR_CROSSCHECK (R412). Every 1 ms sensors are compared with neighbours and may become SUSPECT. -/
  | sensorCrosscheck
  /-- THROTTLE_UPDATE (R414). On the 100 µs grid the thermal and cap factors are recomputed. -/
  | throttleUpdate (pAvg : W16) (p48 : W16)
  /-- THERMAL_TRIP (R417). A comparator trips, the latch sets and every domain goes off. -/
  | thermalTrip (die : BitVec 4) (sensor : Byte) (reading : W16)
  /-- TRIP_CLEAR (R418). After 30 s below 90 °C the latch clears and domains come up. -/
  | tripClear
  /-- REFERENCE_COMPENSATION (R421). Every 1 ms each field's converter reference is adjusted. -/
  | referenceCompensation
  /-- OSC_TEMP_READ (R420). Every 100 ms the oscillator temperature is read for compensation. -/
  | oscTempRead (temp : W16)
  /-- KEEP_WATCHDOG (R471). The watchdog expires and the Keep restarts while serving continues. -/
  | keepWatchdog (copyA copyB : Bool)
  /-- MET_RESULT (R425). A metrology converter delivers a settled result. -/
  | metResult (c : Fin 5) (code : BitVec 24) (clip : Bool)
  /-- CHANNEL_START (R433). START reads a host channel descriptor and starts the channel. -/
  | channelStart (by_ : Requester) (c : Fin 5) (ch : Fin 8)
  /-- CHANNEL_STOP (R433). STOP ends a channel at the next result boundary. -/
  | channelStop (by_ : Requester) (c : Fin 5) (ch : Fin 8)
  /-- SENSE_PROBE (R427). Every 1 s a probed SENSE input is tested. -/
  | senseProbe (k : Fin 4) (f : SenseTest)
  /-- DRIFT_CALIBRATION (R429). A drift calibration cycle measures replicas and references and writes trims. -/
  | driftCalibration (f : Fin 16) (trims : List TrimWrite)
  /-- DRIFT_MISSED (R429). A field completes no cycle within 4 s and a POWER record is issued. -/
  | driftMissed (f : Fin 16)
  /-- FALLBACK_MEASURE (R430). Every 10 ms SUSPECT or FAILED diodes are measured by metrology. -/
  | fallbackMeasure (s : Nat) (value : W16)
  /-- REG_WRITE (R447). A write, in any view, to a register without a row of its own. -/
  | regWrite (by_ : Requester) (w : RegTarget) (size : Nat) (v : W64)
  /-- REG64_LOW_READ (R452). A low-half read latches the high half for its requester. -/
  | reg64LowRead (by_ : Requester) (off : ReadSpan)
  /-- REG64_HIGH_READ (R452). A high-half read returns the latch, or the live value with TORN. -/
  | reg64HighRead (by_ : Requester) (off : BitVec 26)
  /-- REG64_LOW_WRITE (R453). A low-half write is held for its requester. -/
  | reg64LowWrite (by_ : Requester) (off : BitVec 26) (v : W32)
  /-- REG64_HIGH_WRITE (R453). A high-half write combines with the held or pending low half. -/
  | reg64HighWrite (by_ : Requester) (off : BitVec 26) (v : W32)
  /-- REG64_LATCH_EXPIRY (R453). A held low half not completed within 1 µs is discarded. -/
  | reg64LatchExpiry (by_ : Requester) (off : BitVec 26)
  /-- ROUTE_PEND_WRITE (R462). A PEND write sets a pending-bank entry and may advance IDX. -/
  | routePendWrite (by_ : Requester) (view : View) (v : W64)
  /-- KEEP_RESTORE_FACTORY (R438). The Keep aborts sweeps, erases user sets and activates the factory set. -/
  | keepRestoreFactory (by_ : Requester)
  /-- RESTORE_FACTORY_DONE (R438). The factory values are in force and DONE is set. -/
  | restoreFactoryDone
  /-- KEEP_ZEROISE (R141). The Keep command starts zeroise with the right argument. -/
  | keepZeroise (by_ : Requester) (arg : W64)
  /-- SWEEP_CONVERTER (R437). Starts a converter calibration sweep. -/
  | sweepConverter (by_ : Requester)
  /-- SWEEP_SENSOR (R437). Starts a diode offset sweep against a reference temperature. -/
  | sweepSensor (by_ : Requester) (ref : W16)
  /-- SWEEP_OSCILLATOR (R437). Starts an oscillator coefficient sweep. -/
  | sweepOscillator (by_ : Requester)
  /-- SWEEP_REFERENCE (R437). Starts a field reference coefficient sweep. -/
  | sweepReference (by_ : Requester)
  /-- SWEEP_DONE (R436). A sweep ends and writes a new user set. -/
  | sweepDone (cells : List (Nat × Byte))
  /-- RETEST (R457). Starts the retest of a fenced unit or array. -/
  | retest (by_ : Requester) (arg : W64)
  /-- RETEST_DONE (R375). A retest ends, restoring the unit or leaving it fenced. -/
  | retestDone (ok : Bool)
  /-- OTP_ANCHOR (R457). Writes a publisher key hash into an anchor slot. -/
  | otpAnchor (by_ : Requester) (arg : W64)
  /-- OTP_REVOKE (R457). Revokes an anchor slot. -/
  | otpRevoke (by_ : Requester) (arg : W64)
  /-- OTP_FLOOR (R457). Raises a slot's rollback floor. -/
  | otpFloor (by_ : Requester) (arg : W64)
  /-- OTP_POLICY_BOTH (R457). Sets the signature policy to BOTH. -/
  | otpPolicyBoth (by_ : Requester)
  /-- BAD_CODE (R456). An unlisted command code ends at once with BAD_CODE. -/
  | badCode (by_ : Requester) (code : Byte)
  /-- KEEP_COMMAND_TIMEOUT (R374). A Keep command not answered within 10 ms fails with KEEP_BUSY. -/
  | keepCommandTimeout
  /-- PLDM_FIRMWARE_UPDATE (R471). A PLDM firmware update on the management port writes Keep firmware copy A; in recovery the Keep then restarts, and otherwise the new firmware becomes active at the next Keep restart. -/
  | pldmFirmwareUpdate (verifies : Bool)
  /-- VF_ENABLE_SET (R363). Setting VF Enable makes the virtual functions of R353 respond, so that instances 1 to 31 can act. -/
  | vfEnableSet
  /-- P48_WARNING_END (R416). P48 rises back above its 40.0 V warning threshold, the warning band ends and ALERT_N is released if no other cause holds. -/
  | p48WarningEnd (v : W16)
  /-- CHANNEL_INTERVAL (R431). INTERVAL microseconds after a result's request, a host metrology channel raises its request for the next result. -/
  | channelInterval (c : Fin 5) (ch : Fin 8)
  deriving DecidableEq, Repr

end Sys2Proof
end

