-- ==== Sys2Proof/Decode.lean ====
section
/-! DEFINITION. The reading of table words, and which Mbacherix words are defined (R193 to R223, R246). The
opcode table of this hardware gives no row any bits: its rows are commands, not encodings. -/

namespace Sys2Proof

/-- No word spells a command: the table gives its rows no bits. -/
def decodeTableWord (_nbits _w : Nat) : Option Instr := none

/-- Field of an instruction word: `n` bits from bit `lo`. -/
def wfld (w : Nat) (lo n : Nat) : Nat := w / 2 ^ lo % 2 ^ n

/-- The register fields DEST, SRCA and SRCB that an instruction does not use are 0 (R194). -/
def unused (w : Nat) (d a b : Bool) : Bool :=
  (d || wfld w 48 6 == 0) && (a || wfld w 42 6 == 0) && (b || wfld w 36 6 == 0)

/-- Form R with a SUBOP up to `n` and every lower bit 0 (R197). -/
def formR (w n : Nat) : Bool := wfld w 31 1 == 0 && wfld w 27 4 ≤ n && wfld w 0 27 == 0

/-- Form I with a SUBOP up to `n` (R197). -/
def formI (w n : Nat) : Bool := wfld w 31 1 == 1 && wfld w 27 4 ≤ n && wfld w 24 3 == 0 && wfld w 36 6 == 0

/-- Form F with a SUBOP up to `n` (R197). -/
def formF (w n : Nat) : Bool := wfld w 28 4 ≤ n && wfld w 0 28 == 0

/-- Form O with a SUBOP up to `n` (R222). -/
def formO (w n : Nat) : Bool := wfld w 28 4 ≤ n && wfld w 0 27 == 0 && unused w true true false

/-- MISC words (R201, R202). -/
def miscWord (w : Nat) : Bool :=
  if wfld w 31 1 == 1 then wfld w 27 4 == 8 && wfld w 24 3 == 0 && unused w true false false
  else
    let n := wfld w 27 4
    if n < 4 then wfld w 0 27 == 0
    else if n == 4 then wfld w 3 24 == 0
    else n < 8 && wfld w 0 27 == 0 && unused w true true false

/-- CMP words (R203). -/
def cmpWordOk (w : Nat) : Bool :=
  wfld w 51 3 == 0 &&
    (formR w 5 || formI w 5 ||
      (formR w 11 && 8 ≤ wfld w 27 4 && wfld w 45 3 == 0 && wfld w 39 3 == 0))

/-- Words of the scalar and memory opcodes other than the FMT field (R201 to R209). -/
def lowWord (op w : Nat) : Bool :=
  match op with
  | 0x00 | 0x01 | 0x02 | 0x06 | 0x07 | 0x08 | 0x09 | 0x0A | 0x0B => formR w 0 || formI w 0
  | 0x03 | 0x04 | 0x05 => formR w 1
  | 0x0C => miscWord w
  | 0x0D => cmpWordOk w
  | 0x0E | 0x0F => unused w true false false
  | 0x10 | 0x11 | 0x12 | 0x13 => formR w 0
  | 0x14 => formR w 4 && (wfld w 27 4 == 1 || wfld w 27 4 == 2 || unused w true true false)
  | 0x15 => formR w 3 && wfld w 51 3 == 0
  | 0x16 => wfld w 4 28 == 0 && unused w true true false && 3 ≤ wfld w 0 4 && 3 ≤ wfld w 32 4 && wfld w 32 4 != 0xC
  | 0x18 => wfld w 24 5 == 0 && unused w true true false && !(wfld w 29 1 == 1 && wfld w 30 2 == 3)
  | 0x19 => wfld w 24 6 == 0 && unused w false true true
  | 0x1A => wfld w 28 4 ≤ 9 && wfld w 0 27 == 0
  | 0x1B => formF w 3 && unused w false false false
  | 0x1C => wfld w 24 8 == 0 && unused w false true false
  | _ => false

/-- Words of the control, timing, operation and management opcodes (R210 to R223, R246). -/
def highWord (op w : Nat) : Bool :=
  match op with
  | 0x20 => unused w false false false
  | 0x21 => unused w true false false
  | 0x22 => formI w 0
  | 0x23 => unused w false true false
  | 0x24 => formF w 2 && unused w false false false
  | 0x25 => formF w 2 && (if wfld w 28 4 == 2 then unused w false true false else unused w false false false)
  | 0x26 => wfld w 28 4 ≤ 1 && wfld w 16 12 == 0 && unused w false false false
  | 0x27 => wfld w 6 25 == 0 && (if wfld w 31 1 == 0 then unused w true false false else unused w false true false)
  | 0x28 => unused w true false false
  | 0x29 => wfld w 0 32 == 0 && unused w true true false
  | 0x2A => true
  | 0x2B => formF w 1
  | 0x2C => wfld w 0 32 == 0 && unused w true true false
  | 0x30 | 0x32 => formO w 1
  | 0x31 | 0x33 | 0x34 => formO w 0
  | 0x35 => formO w 3
  | 0x36 => formO w 5
  | 0x3C => formF w 1 && (if wfld w 28 4 == 0 then unused w true true false else unused w false true true)
  | 0x3D => formF w 2 && unused w true true false
  | 0x3E => formF w 1 && unused w true false false
  | _ => false

/-- Whether an instruction word is defined under R194: its opcode and sub-operation are listed, and its
reserved fields are 0. FMT is 0xF for the scalar float instructions and 0 elsewhere, but for CVT (R204). -/
def definedWord (v : W64) : Bool :=
  let w := v.toNat
  let op := wfld w 58 6
  let fmt := wfld w 32 4
  if op < 0x20 then
    lowWord op w && (op == 0x16 || (if 0x10 ≤ op && op ≤ 0x15 then fmt == 0xF else fmt == 0))
  else highWord op w && fmt == 0

end Sys2Proof
end

