-- ==== Sys2Proof/Machine/Tab.lean ====
section
/-! DEFINITION. Reading and writing of tables, and the bit-field and byte-order helpers. -/

namespace Sys2Proof.Machine

open Sys2Proof

/-- The value a table holds for number `n`, `d` where it lists none. -/
def tabGet {α : Type} (d : α) : Tab α → Nat → α
  | [], _ => d
  | (k, v) :: r, n => if n = k then v else tabGet d r n

/-- The table with `v` held for number `n`. -/
def tabPut {α : Type} : Tab α → Nat → α → Tab α
  | [], n, v => [(n, v)]
  | (k, w) :: r, n, v =>
    if n = k then (n, v) :: r
    else if n < k then (n, v) :: (k, w) :: r
    else (k, w) :: tabPut r n v

/-- The table with nothing listed for number `n`. -/
def tabDel {α : Type} : Tab α → Nat → Tab α
  | [], _ => []
  | (k, w) :: r, n => if n = k then tabDel r n else (k, w) :: tabDel r n

/-- The table with every listed value changed. -/
def tabMap {α : Type} (f : Nat → α → α) (t : Tab α) : Tab α :=
  t.map fun (k, v) => (k, f k v)

/-- Whether a number is listed. -/
def tabHas {α : Type} (t : Tab α) (n : Nat) : Bool := t.any fun (k, _) => k == n

/-- Element `n` of a list, `d` beyond its end. -/
def nth {α : Type} (d : α) : List α → Nat → α
  | [], _ => d
  | x :: _, 0 => x
  | _ :: r, n + 1 => nth d r n

/-- The list with element `n` replaced. -/
def setNth {α : Type} : List α → Nat → α → List α
  | [], _, _ => []
  | _ :: r, 0, v => v :: r
  | x :: r, n + 1, v => x :: setNth r n v

/-- `n` numbers from `a` on. -/
def upFrom (a : Nat) : Nat → List Nat
  | 0 => []
  | n + 1 => a :: upFrom (a + 1) n

/-- `k` numbers from `a` on at a distance of `d`. -/
def upBy (a d : Nat) : Nat → List Nat
  | 0 => []
  | n + 1 => a :: upBy (a + d) d n

/-- `w` bits of `v` from bit `lo` on. -/
def bits (v lo w : Nat) : Nat := v / 2 ^ lo % 2 ^ w

/-- One bit of `v`. -/
def bit (v n : Nat) : Bool := v / 2 ^ n % 2 == 1

/-- 1 for true. -/
def b2n (b : Bool) : Nat := if b then 1 else 0

/-- The `n` bytes of a number, lowest first (R6). -/
def toBytes (v : Nat) : Nat → List Byte
  | 0 => []
  | n + 1 => BitVec.ofNat 8 v :: toBytes (v / 256) n

/-- The number whose bytes are given, lowest first (R6). -/
def ofBytes : List Byte → Nat
  | [] => 0
  | b :: r => b.toNat + 256 * ofBytes r

/-- Bytes `[a, a + n)` of a list as a number. -/
def at_ (l : List Byte) (a n : Nat) : Nat := ofBytes ((l.drop a).take n)

/-- A number of `w` bits read as two's complement. -/
def toSigned (w v : Nat) : Int := if v % 2 ^ w < 2 ^ (w - 1) then (v % 2 ^ w : Nat) else (v % 2 ^ w : Nat) - (2 ^ w : Nat)

/-- The two's complement of `w` bits of an integer. -/
def ofSigned (w : Nat) (v : Int) : Nat := (v % (2 ^ w : Nat)).toNat

/-- The smaller of `v` and the largest number of `w` bits. -/
def satN (w v : Nat) : Nat := if v < 2 ^ w then v else 2 ^ w - 1

/-- The lowest element for which `p` holds. -/
def firstOf {α : Type} (p : α → Bool) : List α → Option α
  | [] => none
  | x :: r => if p x then some x else firstOf p r

/-- The element with the least key by `lt`, the first among equals. -/
def leastBy {α : Type} (lt : α → α → Bool) : List α → Option α
  | [] => none
  | x :: r =>
    match leastBy lt r with
    | none => some x
    | some y => if lt y x then some y else some x

/-- Integer square root, by trial of `n` bits from the top. -/
def isqrtFrom (m : Nat) : Nat → Nat → Nat
  | 0, r => r
  | n + 1, r => isqrtFrom m n (if (r + 2 ^ n) * (r + 2 ^ n) ≤ m then r + 2 ^ n else r)

end Sys2Proof.Machine
end

