-- ==== Sys2Proof/Machine/Fp.lean ====
section
/-! DEFINITION. The number formats of R29 to R38, rounding and conversion by R39 and R40, the flags of
R42, and the FP32 operations of R47, R48 and R204, computed on exact dyadic values and rounded once. -/

namespace Sys2Proof.Machine

open Sys2Proof

/-- A number as a format represents it: (−1)^neg × m × 2^e. -/
inductive Num where
  | nan
  | inf (neg : Bool)
  | fin (neg : Bool) (m : Nat) (e : Int)
  deriving DecidableEq, Repr

/-- What tops out the range of a floating-point format (R33). -/
inductive Top where
  /-- Infinity and NaN take the highest exponent (E5M2, FP16, BF16, FP32). -/
  | infNan
  /-- NaN is the one code of all ones (E4M3). -/
  | nanOnly
  /-- Neither exists (FP4, FP6). -/
  | none
  deriving DecidableEq, Repr

/-- A floating-point format (R33): exponent bits, fraction bits, bias and the top of its range. -/
structure FloatFmt where
  eb : Nat
  fb : Nat
  bias : Nat
  top : Top
  deriving DecidableEq, Repr

/-- A format by its code (R29): floating point, integer of `w` bits, or UE8. TERN, BIN and INT2 are integers
of the weight arrays and are decoded apart. -/
inductive Fmt where
  | float (f : FloatFmt)
  | sint (w : Nat)
  | uint8
  | ue8
  | weight
  deriving DecidableEq, Repr

def fp32 : FloatFmt := ⟨8, 23, 127, .infNan⟩
def fp16 : FloatFmt := ⟨5, 10, 15, .infNan⟩
def bf16 : FloatFmt := ⟨8, 7, 127, .infNan⟩
def e4m3 : FloatFmt := ⟨4, 3, 7, .nanOnly⟩
def e5m2 : FloatFmt := ⟨5, 2, 15, .infNan⟩
def e3m2 : FloatFmt := ⟨3, 2, 3, .none⟩
def e2m1 : FloatFmt := ⟨2, 1, 1, .none⟩

/-- The format of a code (R29). -/
def fmtOf (code : Nat) : Fmt :=
  match code with
  | 0x3 => .sint 4
  | 0x4 => .sint 8
  | 0x5 => .uint8
  | 0x6 => .sint 16
  | 0x7 => .sint 32
  | 0x8 => .float e2m1
  | 0x9 => .float e3m2
  | 0xA => .float e4m3
  | 0xB => .float e5m2
  | 0xC => .ue8
  | 0xD => .float fp16
  | 0xE => .float bf16
  | 0xF => .float fp32
  | _ => .weight

/-- The width in bits of a format (R29). -/
def fmtBits (code : Nat) : Nat :=
  match code with
  | 0x0 => 2 | 0x1 => 1 | 0x2 => 2 | 0x3 => 4 | 0x4 => 8 | 0x5 => 8 | 0x6 => 16 | 0x7 => 32
  | 0x8 => 4 | 0x9 => 6 | 0xA => 8 | 0xB => 8 | 0xC => 8 | 0xD => 16 | 0xE => 16 | _ => 32

/-! ## Flags -/

def flagSat : BitVec 4 := 1
def flagInf : BitVec 4 := 2
def flagNan : BitVec 4 := 4
def flagInv : BitVec 4 := 8

/-! ## Decoding and rounding -/

/-- The value of a floating-point code (R33). -/
def decodeFloat (f : FloatFmt) (v : Nat) : Num :=
  let frac := v % 2 ^ f.fb
  let ex := v / 2 ^ f.fb % 2 ^ f.eb
  let neg := bit v (f.eb + f.fb)
  let topEx := ex == 2 ^ f.eb - 1
  if topEx && f.top == .infNan then (if frac = 0 then .inf neg else .nan)
  else if topEx && f.top == .nanOnly && frac == 2 ^ f.fb - 1 then .nan
  else if ex = 0 then .fin neg frac (1 - (f.bias : Int) - f.fb)
  else .fin neg (2 ^ f.fb + frac) ((ex : Int) - f.bias - f.fb)

/-- The value of an integer. -/
def ofInt (v : Int) : Num := .fin (decide (v < 0)) v.natAbs 0

/-- The value of an element of a format by its code (R29 to R36); `v` is its bit pattern. -/
def decodeNum (code v : Nat) : Num :=
  match fmtOf code with
  | .float f => decodeFloat f v
  | .sint w => ofInt (toSigned w v)
  | .uint8 => ofInt (v % 256 : Nat)
  | .ue8 => if v % 256 = 255 then .nan else .fin false 1 ((v % 256 : Nat) - 127)
  | .weight =>
    match code, v % 4 with
    | 0, 1 => ofInt 1
    | 0, 3 => ofInt (-1)
    | 1, n => ofInt (if n % 2 = 0 then 1 else -1)
    | 2, n => ofInt (toSigned 2 n)
    | _, _ => ofInt 0

/-- `m × 2^e` divided by `2^q`, rounded to the nearest integer with ties to even (R39). -/
def roundAt (m : Nat) (e q : Int) : Nat :=
  if q ≤ e then m * 2 ^ (e - q).toNat
  else
    let k := (q - e).toNat
    let t := m / 2 ^ k
    let r := m % 2 ^ k
    let half := 2 ^ (k - 1)
    if r > half || (r == half && t % 2 == 1) then t + 1 else t

/-- The exponent and fraction fields, as one number, of m × 2^e rounded once to a format, without regard
to the top of its range (R39, R37). -/
def roundMag (f : FloatFmt) (m : Nat) (e : Int) : Nat :=
  if m = 0 then 0
  else
    let emin : Int := 1 - (f.bias : Int) - f.fb
    let q := max emin (e + (Nat.log2 m : Int) - f.fb)
    (q - emin).toNat * 2 ^ f.fb + roundAt m e q

/-- The exponent and fraction fields of the largest finite value (R33). -/
def maxMag (f : FloatFmt) : Nat :=
  match f.top with
  | .infNan => (2 ^ f.eb - 1) * 2 ^ f.fb - 1
  | .nanOnly => 2 ^ (f.eb + f.fb) - 2
  | .none => 2 ^ (f.eb + f.fb) - 1

/-- The canonical NaN (R38), +0 in a format without NaN (R40). -/
def canonNan (f : FloatFmt) : Nat :=
  match f.top with
  | .infNan => (2 ^ f.eb - 1) * 2 ^ f.fb + 2 ^ (f.fb - 1)
  | .nanOnly => 2 ^ (f.eb + f.fb) - 1
  | .none => 0

/-- The sign bit in place. -/
def signBit (f : FloatFmt) (neg : Bool) : Nat := if neg then 2 ^ (f.eb + f.fb) else 0

/-- Conversion of a value to a floating-point format (R40), with its flags (R42). Infinity in a format without one gives NaN and
INV alone, as R40 has it, though R42 lists NAN for a NaN from operands that are none. (DESIGN CHOICE, log entry 76) -/
def encodeFloat (f : FloatFmt) (n : Num) : Nat × BitVec 4 :=
  match n with
  | .nan => (canonNan f, if f.top = .none then flagInv else 0)
  | .inf neg =>
    match f.top with
    | .infNan => (signBit f neg + (maxMag f + 1), 0)
    | .nanOnly => (canonNan f, flagInv)
    | .none => (signBit f neg + maxMag f, flagInv)
  | .fin neg m e =>
    let r := roundMag f m e
    if r ≤ maxMag f then (signBit f neg + r, 0)
    else if f.top = .infNan then (signBit f neg + (maxMag f + 1), flagInf)
    else (signBit f neg + maxMag f, flagSat)

/-- Conversion of a value to an integer between bounds (R40). -/
def encodeInt (lo hi : Int) (n : Num) : Int × BitVec 4 :=
  match n with
  | .nan => (0, flagInv)
  | .inf neg => (if neg then lo else hi, flagInv)
  | .fin neg m e =>
    let r : Int := if neg then -(roundAt m e 0 : Int) else roundAt m e 0
    if r < lo then (lo, flagSat) else if hi < r then (hi, flagSat) else (r, 0)

/-- Conversion of a value to a format by its code (R40): the bit pattern of the element and the flags. -/
def encodeNum (code : Nat) (n : Num) : Nat × BitVec 4 :=
  match fmtOf code with
  | .float f => encodeFloat f n
  | .sint w =>
    let (v, fl) := encodeInt (-(2 ^ (w - 1) : Nat)) ((2 ^ (w - 1) : Nat) - 1) n
    (ofSigned w v, fl)
  | .uint8 => let (v, fl) := encodeInt 0 255 n; (v.toNat, fl)
  | .ue8 => (0xFF, 0)
  | .weight => (0, 0)

/-! ## FP32 values with flags -/

/-- An FP32 value with the flags gathered on the way to it. -/
structure Fv where
  v : W32
  f : BitVec 4 := 0
  deriving DecidableEq, Repr

def num32 (v : W32) : Num := decodeFloat fp32 v.toNat

def nan32 : W32 := 0x7FC00000#32

def isNan32 (v : W32) : Bool := num32 v == .nan

def isFinite32 (v : W32) : Bool :=
  match num32 v with
  | .fin _ _ _ => true
  | _ => false

/-- The result of an FP32 operation on finite operands: rounded once, INF on overflow (R42, R48). -/
def round32 (n : Num) : Fv := let (v, f) := encodeFloat fp32 n; ⟨BitVec.ofNat 32 v, f⟩

/-- The exact sum of two finite values; an exact zero sum is +0 unless both are −0 (R39). -/
def addNum (n1 n2 : Bool) (m1 m2 : Nat) (e1 e2 : Int) : Num :=
  let e := min e1 e2
  let a : Int := (m1 * 2 ^ (e1 - e).toNat : Nat)
  let b : Int := (m2 * 2 ^ (e2 - e).toNat : Nat)
  let s : Int := (if n1 then -a else a) + (if n2 then -b else b)
  if s = 0 then .fin (n1 && n2) 0 0 else .fin (decide (s < 0)) s.natAbs e

/-- FP32 addition (R47, R48). -/
def f32add (x y : W32) : Fv :=
  match num32 x, num32 y with
  | .nan, _ => ⟨nan32, 0⟩
  | _, .nan => ⟨nan32, 0⟩
  | .inf a, .inf b => if a = b then ⟨x, 0⟩ else ⟨nan32, flagNan⟩
  | .inf _, _ => ⟨x, 0⟩
  | _, .inf _ => ⟨y, 0⟩
  | .fin n1 m1 e1, .fin n2 m2 e2 => round32 (addNum n1 n2 m1 m2 e1 e2)

/-- The sign inverted. -/
def f32flip (x : W32) : W32 := x ^^^ 0x80000000#32

/-- FP32 subtraction. -/
def f32sub (x y : W32) : Fv := f32add x (f32flip y)

/-- FP32 multiplication. -/
def f32mul (x y : W32) : Fv :=
  match num32 x, num32 y with
  | .nan, _ => ⟨nan32, 0⟩
  | _, .nan => ⟨nan32, 0⟩
  | .inf a, .inf b => round32 (.inf (a != b))
  | .inf a, .fin b m _ => if m = 0 then ⟨nan32, flagNan⟩ else round32 (.inf (a != b))
  | .fin b m _, .inf a => if m = 0 then ⟨nan32, flagNan⟩ else round32 (.inf (a != b))
  | .fin n1 m1 e1, .fin n2 m2 e2 => round32 (.fin (n1 != n2) (m1 * m2) (e1 + e2))

/-- The quotient of two finite values to 64 bits beyond a sticky bit. -/
def divNum (n1 n2 : Bool) (m1 m2 : Nat) (e1 e2 : Int) : Num :=
  let q := m1 * 2 ^ 96 / m2
  let st := if m1 * 2 ^ 96 % m2 = 0 then 0 else 1
  .fin (n1 != n2) (2 * q + st) (e1 - e2 - 97)

/-- FP32 division (R204): a finite non-zero dividend over 0 gives infinity and sets INF; 0 / 0 gives NaN. -/
def f32div (x y : W32) : Fv :=
  match num32 x, num32 y with
  | .nan, _ => ⟨nan32, 0⟩
  | _, .nan => ⟨nan32, 0⟩
  | .inf _, .inf _ => ⟨nan32, flagNan⟩
  | .inf a, .fin b _ _ => round32 (.inf (a != b))
  | .fin a _ _, .inf b => round32 (.fin (a != b) 0 0)
  | .fin n1 m1 e1, .fin n2 m2 e2 =>
    if m2 = 0 then
      if m1 = 0 then ⟨nan32, flagNan⟩
      else ⟨(round32 (.inf (n1 != n2))).v, flagInf⟩
    else round32 (divNum n1 n2 m1 m2 e1 e2)

/-- FP32 square root (R204). -/
def f32sqrt (x : W32) : Fv :=
  match num32 x with
  | .nan => ⟨nan32, 0⟩
  | .inf neg => if neg then ⟨nan32, flagNan⟩ else ⟨x, 0⟩
  | .fin neg m e =>
    if m = 0 then ⟨x, 0⟩
    else if neg then ⟨nan32, flagNan⟩
    else
      let odd := e % 2 ≠ 0
      let m' := (if odd then 2 * m else m) * 2 ^ 64
      let e' := (if odd then e - 1 else e) - 64
      let r := isqrtFrom m' 46 0
      let st := if r * r = m' then 0 else 1
      round32 (.fin false (2 * r + st) (e' / 2 - 1))

/-- Whether x < y, for values that are not NaN; −0 and +0 are equal. -/
def numLt (x y : Num) : Bool :=
  match x, y with
  | .nan, _ => false
  | _, .nan => false
  | .inf a, .inf b => a && !b
  | .inf a, _ => a
  | _, .inf b => !b
  | .fin n1 m1 e1, .fin n2 m2 e2 =>
    match addNum n1 (!n2) m1 m2 e1 e2 with
    | .fin neg m _ => neg && m != 0
    | _ => false

/-- Whether x = y, for values that are not NaN. -/
def numEq (x y : Num) : Bool :=
  match x, y with
  | .nan, _ => false
  | _, .nan => false
  | .inf a, .inf b => a == b
  | .inf _, _ => false
  | _, .inf _ => false
  | .fin n1 m1 e1, .fin n2 m2 e2 =>
    match addNum n1 (!n2) m1 m2 e1 e2 with
    | .fin _ m _ => m == 0
    | _ => false

def f32lt (x y : W32) : Bool := numLt (num32 x) (num32 y)
def f32eq (x y : W32) : Bool := numEq (num32 x) (num32 y)
def f32le (x y : W32) : Bool := f32lt x y || f32eq x y

/-- FMIN (R204): −0 is smaller than +0, and a NaN operand gives the canonical NaN. -/
def f32min (x y : W32) : W32 :=
  if isNan32 x || isNan32 y then nan32
  else if f32lt x y then x else if f32lt y x then y
  else if x.getLsbD 31 then x else y

/-- FMAX (R204). -/
def f32max (x y : W32) : W32 :=
  if isNan32 x || isNan32 y then nan32
  else if f32lt x y then y else if f32lt y x then x
  else if x.getLsbD 31 then y else x

/-- FABS (R204). -/
def f32abs (x : W32) : W32 := if isNan32 x then nan32 else x &&& 0x7FFFFFFF#32

/-- FNEG (R204). -/
def f32neg (x : W32) : W32 := if isNan32 x then nan32 else f32flip x

/-- ln 2 in units of 2^−320. -/
def ln2At320 : Nat :=
  1480553391661173448385607439722553250922680800745876974795605978609098082859138712941075737848984

/-- The sum of the first `n` further terms of the exponential series at r × 2^−256, from term number `j`. -/
def expSeries (r : Nat) : Nat → Nat → Nat → Nat
  | 0, _, _ => 0
  | n + 1, j, term =>
    let t := term * r / (j * 2 ^ 256)
    t + expSeries r n (j + 1) t

/-- exp of a finite value between −128 and 128, to 256 bits beyond a sticky bit: x = k ln 2 + r. -/
def expNum (x : Int) : Num :=
  -- x in units of 2^−256
  let l : Nat := ln2At320 / 2 ^ 64
  let k := x / (l : Int)
  let r := (x - k * l).toNat
  .fin false (2 * (2 ^ 256 + expSeries r 72 1 (2 ^ 256)) + 1) (k - 257)

/-- Correctly rounded FP32 exponential (R269, R284). No FP32 argument but 0 has a representable
exponential, and 256 bits separate every other one from a tie. -/
def f32exp (x : W32) : Fv :=
  match num32 x with
  | .nan => ⟨nan32, 0⟩
  | .inf neg => if neg then ⟨0, 0⟩ else ⟨x, 0⟩
  | .fin neg m e =>
    if m = 0 then ⟨0x3F800000#32, 0⟩
    else if 7 ≤ (Nat.log2 m : Int) + e then round32 (.fin false 1 (if neg then -400 else 400))
    else
      let v : Int := (m * 2 ^ (256 + e).toNat : Nat)
      round32 (expNum (if neg then -v else v))

/-- An integer as FP32, rounded once. -/
def f32ofInt (v : Int) : Fv := round32 (ofInt v)

/-- An element of a format as FP32 (R40: exact but for INT32). -/
def toF32 (code v : Nat) : Fv := let n := decodeNum code v; ⟨(round32 n).v, (round32 n).f⟩

/-- An FP32 value converted to a format by R40. -/
def fromF32 (code : Nat) (x : W32) : Nat × BitVec 4 := encodeNum code (num32 x)

/-! Operations that gather flags. -/

def Fv.add (a b : Fv) : Fv := let r := f32add a.v b.v; ⟨r.v, a.f ||| b.f ||| r.f⟩
def Fv.sub (a b : Fv) : Fv := let r := f32sub a.v b.v; ⟨r.v, a.f ||| b.f ||| r.f⟩
def Fv.mul (a b : Fv) : Fv := let r := f32mul a.v b.v; ⟨r.v, a.f ||| b.f ||| r.f⟩
def Fv.div (a b : Fv) : Fv := let r := f32div a.v b.v; ⟨r.v, a.f ||| b.f ||| r.f⟩
def Fv.sqrt (a : Fv) : Fv := let r := f32sqrt a.v; ⟨r.v, a.f ||| r.f⟩
def Fv.exp (a : Fv) : Fv := let r := f32exp a.v; ⟨r.v, a.f ||| r.f⟩
def Fv.zero : Fv := ⟨0, 0⟩

/-- The result of CVT (R205): the source element is in the low bits of `v`; integer results are sign- or
zero-extended to 64 bits, float results zero-extended. -/
def cvtWord (src dst : Nat) (v : W64) : W64 × BitVec 4 :=
  let (r, fl) := encodeNum dst (decodeNum src (v.toNat % 2 ^ fmtBits src))
  match fmtOf dst with
  | .sint w => (BitVec.ofInt 64 (toSigned w r), fl)
  | _ => (BitVec.ofNat 64 r, fl)

end Sys2Proof.Machine
end

