-- ==== Sys2Proof/Config.lean ====
section
/-! DEFINITION. The free values: what the specification leaves open without naming an operand of a command
that would bring it. Each is an opaque function of the free-value counter of the state (and of what else it
depends on), so that nothing in Lean can evaluate it. -/

namespace Sys2Proof.Config

open Sys2Proof

/-- Whether a line that the data cache holds is still held at a load (R185 rule 2): the caches evict as
they please. -/
opaque cacheHolds : Nat → Bool

/-- A byte of host memory at an address, read by the device itself. -/
opaque hostByte : Nat → Nat → Byte

/-- The steering value chosen after a measurement (R152), in parts per 10^12. -/
opaque steering : Nat → W32

/-- Whether the generator of R380 samples a pass, at a probability of 1 in the given number. (DESIGN CHOICE, log entry 8) -/
opaque sampled : Nat → Nat → Bool

/-- Whether a 64-byte granule in doubt after a stopped transfer holds new data (R340). -/
opaque granuleNew : Nat → Nat → Bool

/-- A byte of a signature that the security hardware forms (R355). -/
opaque secretByte : Nat → Nat → Byte

/-- The length of this device's certificate chain (R355). -/
opaque chainLen : Nat

/-- A byte of this device's certificate chain (R355). -/
opaque chainByte : Nat → Byte

/-- A byte of measurement 1 to 5 of R355: a function of what it covers, whose form the specification does not give. -/
opaque measureByte : Nat → List Nat → Nat → Byte

/-- PCI vendor ID (R3). -/
def pciVendor : Nat := 0x1F8A

/-- PCI device ID of function `n` (R3, R353): the physical function, or a virtual function. -/
def pciDevice (n : Nat) : Nat := if n = 0 then 0x7160 else 0x7161

/-- SR-IOV: TotalVFs, First VF Offset and VF Stride (R353). -/
def totalVfs : Nat := 31
def firstVfOffset : Nat := 1
def vfStride : Nat := 1

/-- A byte of a destination whose content the specification leaves undefined (R326). -/
opaque undefByte : Nat → Nat → Byte

/-- The DRAM row in which a line of stacked memory lies (R335): the specification does not give the rows. -/
opaque rowOf : Nat → Nat

/-- The neighbours of a sensor (R410): the calibration store lists them. -/
opaque neighbours : Nat → List Nat

/-- The FREQ_ADJ that the fitted oscillator coefficients give (R420), in parts per 10^12. -/
opaque oscFit : Nat → W32

/-- The DEVICE_KEY_ID of this device (R121). -/
opaque deviceKeyId : W64

/-- MODID3 to MODID0, as the board ties them at a power-on (R477). -/
opaque modid : Nat → BitVec 4

/-- The serial number of this part (R455). -/
opaque serial : W64

end Sys2Proof.Config
end

