-- ==== Sys2Proof/Machine/State.lean ====
section
/-! DEFINITION. The state of the Totaosh as plain data, its reasons to stop, and the state after reset.
Sparse parts are tables (`Tab`) in rising order of number; a number that is not listed holds the empty
record of its type unless the docstring of the table says otherwise. -/

namespace Sys2Proof.Machine

open Sys2Proof

/-- Why the machine stops. Raised for a command that is not well formed, that is, one whose
operands no sender can present: safe, because the device is never given such a command. (DESIGN CHOICE, log entry 17) -/
inductive Fault where
  /-- Raised by UNDEFINED_INSTRUCTION for a word that is defined (R194): safe, since that word is another command. -/
  | illFormed
  deriving DecidableEq, Repr

/-- Why a command has no meaning in the model. No command is refused in the finished model. -/
inductive Refusal where
  /-- The command of that mnemonic has no meaning yet: safe. -/
  | notModelled (mnemonic : String)
  deriving DecidableEq, Repr

/-! ## Threads, cores and rings -/

/-- The states of a thread (R170). -/
inductive TState where
  | free | ready | hot | waiting | suspended | exited | aborted
  deriving DecidableEq, Repr

/-- The reason of a wait (R169, WAIT). -/
inductive WaitKind where
  | none | cadence | counter | time | opEntry | suspended
  deriving DecidableEq, Repr

/-- The exception registers of a thread (R169, R180). -/
structure ExcRegs where
  pc : W64 := 0
  addr : W64 := 0
  info : W32 := 0
  code : Byte := 0
  save : W64 := 0
  deriving DecidableEq, Repr

/-- A load from the host window that has not been answered (R206, R337): its request tag and the
destination of its data. -/
structure HostLoad where
  tag : Nat
  dest : GReg
  size : Nat
  sx : Bool
  addr : W64
  deriving DecidableEq, Repr

/-- A thread: its context (R169) and what the scheduler and the core keep for it. -/
structure Thread where
  g : Tab W64 := []
  pc : W64 := 0
  pred : Byte := 1
  st : TState := .free
  wait : WaitKind := .none
  pin : Bool := false
  priv : Bool := false
  inHandler : Bool := false
  prio : BitVec 3 := 0
  group : Byte := 0
  inst : Inst := 0
  aflags : BitVec 4 := 0
  cad : Byte := 0
  bound : Bool := false
  lastTick : W64 := 0
  /-- Ticks of the cadence that had occurred when `lastTick` was consumed, or at the binding (R160). -/
  lastOcc : Nat := 0
  waitArg : W64 := 0
  waitVal : W64 := 0
  step : W64 := 0
  handler : W64 := 0
  exc : ExcRegs := {}
  arg : W64 := 0
  userTag : W64 := 0
  statusAddr : W64 := 0
  doneCnt : W64 := 0
  retired : W64 := 0
  kstat : Byte := 0
  kdone : Bool := false
  /-- Time until which ZARM is armed (R217). -/
  zarm : Option Nat := none
  /-- FRAC of the instant read by the last CSRR of c6 (R215). -/
  timeFrac : W16 := 0
  home : Fin 4 := 0
  /-- The record named no Spire, and the thread has not been placed yet: its home is still open (R172). -/
  homeOpen : Bool := false
  /-- When PRIO last changed, and its value before (R347). -/
  prioOld : Option (Nat × BitVec 3) := none
  /-- Hot slot, as core × 16 + slot (R171). -/
  slot : Option Nat := none
  slotSince : Nat := 0
  /-- The slot counts as held for a full quantum (R212 YIELD, R172). -/
  quantumOver : Bool := false
  /-- Place in the order of becoming READY, or of beginning to wait (R172, R183). -/
  order : Nat := 0
  /-- g register that the wait writes when it returns (R246). -/
  waitDest : GReg := 0
  limitAt : Option Nat := none
  /-- The counter of the wait is in the scheduler's watch table (R184). -/
  watched : Bool := false
  /-- The wait in progress is that of START_TICK (R179). -/
  startTick : Bool := false
  /-- The deadline of the last consumed tick, in 2^−16 ns; none without a deadline (R161). -/
  tickDue : Option Nat := none
  /-- State and wait before a suspension (R219). -/
  prior : Option (TState × WaitKind) := none
  hostLoad : Option HostLoad := none
  /-- A freed operation entry is kept for the thread, which was the first to wait for one (R183). -/
  granted : Bool := false
  /-- A restart is due, with the exception code its handler is given (R398). -/
  restart : Option Byte := none
  /-- The context as it was last saved by a swap (R460 TI_DATA). -/
  saved : List Byte := []
  /-- Handles of the operations outstanding when the checkpoint was written (R398). -/
  ckptOps : List Nat := []
  deriving DecidableEq, Repr

/-- An entry of a core's store buffer (R185): one store of up to 8 bytes. -/
structure StoreEntry where
  tid : Tid
  addr : W64
  size : Nat
  data : W64
  deriving DecidableEq, Repr

/-- A Markhor core: store buffer oldest first, the data-cache lines filled since the last acquire, the
instruction-cache lines, the time at which it was started (R185, R209, R180 c20), and the slot it selected last
with the instructions it has issued from it since (R171). -/
structure Core where
  fenced : Bool := false
  stores : List StoreEntry := []
  dcache : Tab (List Byte) := []
  icache : List Nat := []
  started : Nat := 0
  turn : Option (Nat × Nat) := none
  deriving DecidableEq, Repr

/-- A submission ring (R176). -/
structure Ring where
  base : W64 := 0
  enable : Bool := false
  prioMax : BitVec 3 := 3
  log2 : BitVec 5 := 6
  privOk : Bool := false
  stopped : Bool := false
  err : Byte := 0
  tail : W32 := 0
  head : W32 := 0
  deriving DecidableEq, Repr

/-! ## Operations -/

/-- An item of a placement map (R230). -/
structure PassItem where
  tile : Nat
  array : Nat
  kblock : Nat
  nblock : Nat
  firstPos : Nat
  msel : Bool
  deriving DecidableEq, Repr

/-- A position target item (R234). -/
structure PosItem where
  tile : Nat
  firstPos : Nat
  kblock : Nat
  uses : Nat
  deriving DecidableEq, Repr

/-- The drain fields of a PASS or DRAIN descriptor (R229), bytes 0x40 to 0x6F. -/
structure DrainSpec where
  epi : Nat := 0
  mem : Bool := false
  pos : Bool := false
  rms : Bool := false
  kv : Bool := false
  fmt : Nat := 0
  eps : W32 := 0
  dst : W64 := 0
  dstStride : Nat := 0
  resStride : Nat := 0
  res : W64 := 0
  scaleOut : W64 := 0
  posItems : List PosItem := []
  deriving DecidableEq, Repr

/-- What a PASS, PASS.X or DRAIN keeps while it runs (R229 to R237). `y` holds the rows of 512 drained values kept
for quantise, by vector × 65,536 + output block. -/
structure PassWork where
  exact : Bool := false
  matrix : W32 := 0
  matrix2 : W32 := 0
  mapAddr : W64 := 0
  items : List PassItem := []
  vectors : Nat := 0
  variant : Nat := 0
  reps : Nat := 1
  acc : Nat := 0
  unsigned : Bool := false
  hold : Bool := false
  drain : DrainSpec := {}
  oblocks : Nat := 1
  vb : Nat := 32
  y : Tab (List W32) := []
  quantised : List Nat := []
  drainsLeft : Nat := 0
  posLeft : Nat := 0
  deriving DecidableEq, Repr

/-- A Lantern set load or release in progress (R239): the logical tiles still to commit, and the
directory of the set as tile, first entry and count. -/
structure LtnWork where
  load : Bool := true
  set : W64 := 0
  entryBase : W64 := 0
  variant : Nat := 0
  left : List Nat := []
  dir : List (Nat × Nat × Nat) := []
  deriving DecidableEq, Repr

/-- The running softmax of one query token and head (R269). -/
structure AttnAcc where
  tok : Nat
  head : Nat
  m : W32
  l : W32
  o : List W32
  deriving DecidableEq, Repr

/-- A row of an ATTN (R258, R259, R267): its record's fields, the blocks still to attend, and its sums. -/
structure AttnRow where
  plist : W64 := 0
  layers : Nat := 0
  len : Nat := 0
  qtok : Nat := 0
  qoff : Nat := 0
  left : List Nat := []
  accs : List AttnAcc := []
  lost : Option Byte := none
  done : Bool := true
  deriving DecidableEq, Repr

/-- What an ATTN keeps while it runs (R242). `hdim` is the head dimension itself. -/
structure AttnWork where
  q : W64 := 0
  out : W64 := 0
  layer : Nat := 0
  qheads : Nat := 1
  kvheads : Nat := 1
  hdim : Nat := 64
  fmt : Nat := 0xA
  engines : Byte := 0
  qscale : W32 := 0
  causal : Bool := false
  tree : Option W64 := none
  rows : List AttnRow := []
  attended : Nat := 0
  /-- Pages of peers that have been staged (R254), by device × 2^64 + address. -/
  got : Tab (List Byte) := []
  deriving DecidableEq, Repr

/-- Rows of a SAMPLE that one lane takes as one unit: a single row, or a VERIFY group (R280, R281). -/
structure SampleUnit where
  row : Nat
  rows : Nat
  lane : Nat
  recAddr : W64
  deriving DecidableEq, Repr

/-- A compaction that an accepted VERIFY group leaves to be made (R298). -/
structure Compaction where
  seq : W64
  base : Nat
  path : List Nat
  deriving DecidableEq, Repr

/-- What a SAMPLE keeps while it runs (R243). -/
structure SampleWork where
  logits : W64 := 0
  out : W64 := 0
  vocab : Nat := 2
  fmt : Nat := 0xF
  lstride : Nat := 0
  left : List SampleUnit := []
  copies : List Compaction := []
  rows : Nat := 0
  deriving DecidableEq, Repr

/-- The kinds of transfer (R241). -/
inductive XferKind where
  | copy | gather | pages | fill
  deriving DecidableEq, Repr

/-- What a transfer keeps while it runs (R240, R275). -/
structure XferWork where
  kind : XferKind := .copy
  src : W64 := 0
  dst : W64 := 0
  len : Nat := 0
  srcDev : W16 := 0
  dstDev : W16 := 0
  rowBytes : Nat := 0
  /-- The row indices of GATHER, read at the start. -/
  idx : List Nat := []
  fmt : Nat := 0
  rms : Bool := false
  static : Bool := false
  gated : Bool := false
  vectors : Nat := 0
  eps : W32 := 0
  scale : W64 := 0
  src2 : W64 := 0
  posItems : List PosItem := []
  posLeft : Nat := 0
  /-- The fields of the page walk record (R275). -/
  slist : W64 := 0
  sfirst : Nat := 0
  dfirst : Nat := 0
  stride : Nat := 1
  dig : Bool := false
  notify : Option W64 := none
  kvheads : Nat := 0
  sdigest : W64 := 0
  ddigest : W64 := 0
  /-- Pages whose entries have been read and checked, and those entries. -/
  walked : Nat := 0
  srcEnts : List W64 := []
  dstEnts : List W64 := []
  /-- Pages whose destination entry has been written; the digest of the next one has been copied. -/
  ents : Nat := 0
  digDone : Bool := false
  total : Nat := 0
  /-- Bytes whose bursts have landed or been sent, and PROG (R339). -/
  rd : Nat := 0
  prog : Nat := 0
  wantEngine : Nat := 0xFF
  /-- The engine at which the operation waits, and the one it holds. -/
  asg : Option Nat := none
  engine : Option Nat := none
  /-- When it raised its request there: its age (R342). -/
  raisedAt : Nat := 0
  /-- The READs of the next burst have been sent. -/
  asked : Bool := false
  /-- Offsets of the writes sent to a peer, by sequence number. -/
  out : Tab Nat := []
  /-- NOTIFY_CNT has been sent or added (R276). -/
  notifySent : Bool := false
  /-- Data of READs that has arrived, by device × 2^64 + address (R310); of a FILL, the source bytes read, by
  their offset in the operation. -/
  got : Tab (List Byte) := []
  deriving DecidableEq, Repr

/-- The kinds of collective (R244). -/
inductive CollKind where
  | ar | rs | ag | a2a | bc | bar
  deriving DecidableEq, Repr

/-- What a collective keeps while it runs (R244, R323, R324). `got` holds the pulled chunks of 1,024 bytes that wait
for those of other ranks, by chunk × 65,536 + rank; `nextPull` counts the pulls made in the phase, `served` those
answered; `arrived` lists the ranks that have arrived at a barrier. -/
structure CollWork where
  kind : CollKind := .bar
  src : W64 := 0
  dst : W64 := 0
  count : Nat := 0
  group : W16 := 0
  root : Nat := 0
  fmt : Nat := 0xF
  redop : Nat := 0
  members : List W16 := []
  rank : Nat := 0
  coord : Nat := 0
  listCrc : W32 := 0
  cseq : W32 := 0
  engine : Option Nat := none
  startAt : Nat := 0
  /-- T of a timed collective (R326). -/
  timedAt : Option Nat := none
  /-- Phase 1 is the all-gather of COLL.AR. -/
  phase : Nat := 0
  nextPull : Nat := 0
  got : Tab (List Byte) := []
  served : Nat := 0
  arrived : List Nat := []
  released : Bool := false
  deriving DecidableEq, Repr

/-- The work of an operation by its kind. -/
inductive Work where
  | none
  | pass (w : PassWork)
  | ltn (w : LtnWork)
  | attn (w : AttnWork)
  | sample (w : SampleWork)
  | xfer (w : XferWork)
  | coll (w : CollWork)
  deriving DecidableEq, Repr

/-- An entry of the operation table (R183, R222, R225, R227). `result` is set once the work has ended
and the status is due. -/
structure Op where
  used : Bool := false
  inst : Inst := 0
  gen : Byte := 0
  tid : Tid := 0
  kind : Byte := 0
  flags : Byte := 0
  lgroup : W16 := 0
  tag : W32 := 0
  doneCnt : W64 := 0
  statusAddr : W64 := 0
  waitCnt : W64 := 0
  waitVal : W64 := 0
  addr : W64 := 0
  seq : W32 := 0
  issued : Nat := 0
  /-- The issuing thread has ended (R181). -/
  orphan : Bool := false
  /-- The descriptor as ARM read it (R250). -/
  body : List Byte := []
  launch : Option Nat := none
  grouped : Bool := false
  outcome : Option (BitVec 2) := none
  started : Bool := false
  /-- When it started: the age of its requests for the Lantern write ports (R112). -/
  startAt : Nat := 0
  /-- The order in which operations have started (R239). -/
  startNo : Nat := 0
  work : Work := .none
  result : Option Byte := none
  aflags : BitVec 4 := 0
  subst : Bool := false
  detail : W16 := 0xFFFF
  countA : Nat := 0
  countB : Nat := 0
  deriving DecidableEq, Repr

/-- A position write that waits in its tile stop (R81, R234). -/
structure PosWrite where
  op : Nat
  tile : Nat
  pos : Nat
  data : List Byte
  scale : W32
  vec : Nat
  uses : Nat
  deriving DecidableEq, Repr

/-- A seed on its way to the next tile of a K-split list (R86). -/
structure SeedMsg where
  op : Nat
  tile : Nat
  nblock : Nat
  msel : Bool
  vec : Nat
  scale : W32
  sums : List W32
  deriving DecidableEq, Repr

/-- A page seal that is due (R263). -/
structure SealDue where
  op : Nat
  seq : W64
  entry : Nat
  deriving DecidableEq, Repr

/-- A transfer engine (R338, R463). -/
structure Xfer where
  op : Option Nat := none
  gen : Byte := 0
  fenced : Bool := false
  /-- The holder's grant was reserved (R346). -/
  reserved : Bool := false
  deriving DecidableEq, Repr

/-- A collective engine (R324). -/
structure CollEngine where
  op : Option Nat := none
  fenced : Bool := false
  deriving DecidableEq, Repr

/-- A pull, an arrival or an abort that came before its collective started here (R324): 0 a pull, 1 an arrival,
2 an abort; its sender, slice and address. -/
structure EarlyColl where
  kind : Nat
  src : W16
  slice : Nat
  addr : Nat
  seq : W32
  msg : CollMsg
  deriving DecidableEq, Repr

/-! ## Tiles -/

/-- The states of an array (R74). -/
inductive ArrState where
  | spare | active | draining | writing | verifying | calibrating | fenced
  deriving DecidableEq, Repr

/-- What a write of an array is for (R128, R129, R132, R138, R76, R77). -/
inductive JobKind where
  | full | rolling | recal | sparing | erase | retest
  deriving DecidableEq, Repr

/-- A write that the program-verify engine is to make: the physical array, the logical array and image
slot it is for, and its request to the arbiters. -/
structure Job where
  kind : JobKind
  phys : Nat
  logical : Option Nat := none
  slot : Option Nat := none
  /-- When the job was asked for; in the engine, when WRITING or VERIFYING began. -/
  age : Nat := 0
  /-- WRITING has ended. -/
  wrote : Bool := false
  /-- The TERN codes that the engine drives and verifies, as read at entry to WRITING (R25). -/
  target : Tab (BitVec 2) := []
  inPlace : Bool := false
  touchup : Bool := false
  deriving DecidableEq, Repr

/-- A physical array (R57, R66, R69, R74, R76, R83, R139). Its trims are its own: where R16 lists the trim table by logical
array and R83 by physical array, the model takes R83. (DESIGN CHOICE, log entry 7) -/
structure Arr where
  st : ArrState := .spare
  calDone : Bool := false
  fails : Nat := 0
  window : Nat := 0
  touchups : Nat := 0
  cycles : Nat := 0
  mask : W64 := 0
  failed : List FailedPair := []
  failedCount : Nat := 0
  trims : Tab (W16 × W16) := []
  /-- Trims written by drift calibration, until the next pass boundary (R83). -/
  newTrims : Option (Tab (W16 × W16)) := none
  /-- TERN codes of the weight cells that are not 0, by row × 512 + cell column (R54). -/
  cells : Tab (BitVec 2) := []
  /-- Levels of the check cells that are not 0, by row × 16 + group (R65). -/
  checks : Tab Int := []
  job : Option Job := none
  /-- Where DRAINING leads, and the reason code of its ARRAY_STATE record (R76, R484). -/
  toFence : Bool := false
  why : Byte := 0
  since : Nat := 0
  deriving DecidableEq, Repr

/-- A position of the activation buffer (R80); `held` counts uses kept for recomputes (R380). -/
structure Position where
  data : List Byte := []
  scale : W32 := 0
  vec : Nat := 0
  uses : Nat := 0
  held : Nat := 0
  deriving DecidableEq, Repr

/-- The states of a Lantern slot that is not FREE (R97). -/
inductive LtnState where
  | live | staged | retiring
  deriving DecidableEq, Repr

/-- A Lantern slot in use: its entry (R92), the entry as its source holds it (R94), its index in its Lantern
set or in the OUTLIERS section of its image, and its state; `due` says that a pass boundary has come since it
began to retire (R97). -/
structure LtnSlot where
  entry : W64
  source : W64
  ix : Nat
  st : LtnState
  due : Bool := false
  deriving DecidableEq, Repr

/-- The residency of a variant in a tile (R102, R105): 0 ABSENT, 1 RESIDENT, 2 PARTIAL, 3 EVICTED; the
range of set entries of each logical array, as array, first entry and count. -/
structure VarState where
  res : BitVec 2 := 0
  stamp : Nat := 0
  entryBase : W64 := 0
  ranges : List (Nat × Nat × Nat) := []
  deriving DecidableEq, Repr

/-- A pass that an operation asks of a tile (R229, R232), with the operation's sequence number and instance. -/
structure PassReq where
  op : Nat
  seq : W32
  inst : Inst
  array : Nat
  kblock : Nat
  firstK : Nat
  lastK : Nat
  listLast : Nat
  nblock : Nat
  msel : Bool
  oix : Nat
  vec : Nat
  pos : Nat
  reps : Nat
  variant : Nat
  unsigned : Bool
  exact : Bool
  blk : Nat
  slotV : Nat
  deriving DecidableEq, Repr

/-- A requester of a Lantern write port (R112), each write named by the logical array or the operation it is for. -/
inductive PortUser where
  | pv (l : Nat)
  | keep (l : Nat)
  | load (e : Nat)
  deriving DecidableEq, Repr

/-- A raised request to a Lantern write port (R112): when it was raised, and the entries still to be written. -/
structure PortReq where
  user : PortUser
  age : Nat
  left : Nat
  deriving DecidableEq, Repr

/-- A pass in flight (R64, R75, R90, R95): the vector it read, the Lantern entries that apply to it, the
physical array (none for an exact pass or digital substitution), the image slot current at its admission.
`due` lists when the results of the repeats started so far are ready, `got` counts those delivered, `ysum`
is their sum. `sampled` marks it for recompute, `counts` and `mism` hold what its conversions showed (R381),
`fail` says that its analogue result is discarded (R90, R377), `chk` that a repeat failed its check (R69), `bad` that no
result is delivered for it (R94). `sources` are the entries as their sources hold them (R94), `scales` the scales of
its logical array at its admission, by column × 4 + segment (R132), `trims` the trims that the repeats in `due` are
converted with (R83), `flags` what the repeats delivered have raised (R42). -/
structure Flight where
  req : PassReq
  phys : Option Nat
  slot : Option Nat
  data : List Byte
  scale : W32
  entries : List W64
  overflow : List W64
  sources : List W64 := []
  scales : Tab Byte := []
  due : List Nat := []
  trims : List (Tab (W16 × W16)) := []
  flags : BitVec 4 := 0
  chk : Bool := false
  got : Nat := 0
  ysum : List W32 := []
  sampled : Bool := false
  bad : Bool := false
  fail : Bool := false
  counts : Nat × Nat × Nat := (0, 0, 0)
  mism : Bool := false
  deriving DecidableEq, Repr

/-- A result of a run (R85, R91), by its place in the run. -/
structure RunRes where
  req : PassReq
  p : List W32
  deriving DecidableEq, Repr

/-- A run in progress for one vector (R85, R86): the next K-split position it takes and its sum. -/
structure Run where
  op : Nat
  nblock : Nat
  msel : Bool
  vec : Nat
  next : Nat
  sum : List W32
  deriving DecidableEq, Repr

/-- The fill of an accumulator block by one operation (R232, R235), or the held block that it has left. `final` lists
the O-blocks and vectors whose runs have ended. -/
structure Fill where
  op : Option Nat := none
  group : Nat := 0
  scales : Tab W32 := []
  final : List (Nat × Nat) := []
  draining : Bool := false
  held : Option PassWork := none
  deriving DecidableEq, Repr

/-- An accumulator block (R87): rows of 512 sums, by vector index × 32 + O-block, and the fills that have them, oldest
first. Fills of two operations share the rows (R236). -/
structure Block where
  slots : Tab (List W32) := []
  fills : List Fill := []
  deriving DecidableEq, Repr

/-- What an exact pass is for (R114). -/
inductive ExactFor where
  | substitution | rewrite | recompute | passx
  deriving DecidableEq, Repr

/-- A request to the exact unit (R114); `reserved` says that its grant was a reserved one, `since` when it was granted,
`segs` how many segments of 128 rows it had done before (R346); `home` is the tile that it is of, where another
tile's exact unit computes it (R390). -/
structure ExactReq where
  for_ : ExactFor
  flight : Flight
  prio : Nat
  age : Nat
  reserved : Bool := false
  since : Nat := 0
  segs : Nat := 0
  home : Option Nat := none
  deriving DecidableEq, Repr

/-- The rewrite or recalibration of a logical array (R131 to R138). -/
structure Rewrite where
  logical : Nat
  kind : JobKind
  newSlot : Option Nat
  spare : Option Nat
  old : Nat
  inPlace : Bool := false
  /-- CAL_DONE is set and the swing waits for its step boundary. -/
  ready : Bool := false
  /-- The step boundary has come: the swing takes place at the next pass boundary. -/
  go : Bool := false
  /-- The new class 1 entries are staged, or there are none to stage (R133). -/
  c1 : Bool := true
  /-- The old entries retire so that the new ones fit; passes run by substitution (R133). -/
  substitute : Bool := false
  failed : Bool := false
  retried : Bool := false
  /-- The array has been written anew in place: its class 0 entries are replaced at its return to ACTIVE (R97). -/
  touched : Bool := false
  deriving DecidableEq, Repr

/-- A tile (R19, R80 to R140). `amap` lists the logical arrays whose physical array differs from their
own number; `scales` the scale bytes that are not 0, by logical array × 2,048 + column × 4 + segment. (DESIGN CHOICE, log entry 7) -/
structure Tile where
  fenced : Bool := false
  /-- Why the fence was entered: 1 fault, 2 field switch-off, 3 zeroise (R375). -/
  fenceWhy : Nat := 0
  arrs : Tab Arr := []
  amap : Tab Nat := []
  /-- Physical arrays that take the place of those of `amap` once the tile goes to ACTIVE (R129). -/
  pendMap : Tab Nat := []
  scales : Tab Byte := []
  staged : Tab (Tab Byte) := []
  positions : Tab Position := []
  blocks : Tab Block := []
  todo : List PassReq := []
  flight : List Flight := []
  runs : List Run := []
  parked : List RunRes := []
  seeds : List SeedMsg := []
  ltn : Tab LtnSlot := []
  variants : Tab VarState := []
  spills : Nat := 0
  evicts : Nat := 0
  /-- Indexes of overflow entries whose next read meets an error in transit (R94). -/
  upset : List Nat := []
  /-- The requests to the Lantern write port, and when its next cycle begins (R112). -/
  port : List PortReq := []
  portAt : Nat := 0
  boundary : Nat := 0
  nextB : Nat := 0
  /-- A(b) of the boundary in progress (R98); the recompute queue was full at the last boundary (R380). -/
  applied : Nat := 0
  fullQ : Bool := false
  recompQ : List ExactReq := []
  exactQ : List ExactReq := []
  exactBusy : Option ExactReq := none
  /-- From when the exact unit may start its next pass (R415). -/
  exactNext : Nat := 0
  exactCount : Nat := 0
  pv : Option Job := none
  /-- Arrays that the zeroise in progress has erased (R77). -/
  erased : List Nat := []
  jobs : List Job := []
  rewrites : List Rewrite := []
  /-- Image slot that holds the image of the tile, and whether the tile serves it (R129); the logical
  arrays whose current slot is another one (R131). -/
  image : Option Nat := none
  curSlot : Tab Nat := []
  loaded : Bool := false
  locked : Bool := false
  /-- Arrays without a physical array that serve by substitution (R129, R136). -/
  substituted : List Nat := []
  recs : Tab (W64 × W64) := []
  lastResidue : Tab Nat := []
  /-- Replacement in progress after a tile fault (R390). -/
  replacing : Bool := false
  replacementOf : Option Nat := none
  deriving DecidableEq, Repr

/-! ## Images, Belfry, instances, memory, fabric, power, metrology -/

/-- An image in force, or the incoming one, in its slot of the protected region (R115, R120). -/
structure Image where
  imageId : W64 := 0
  base : Nat := 0
  size : Nat := 0
  weights : Nat := 0
  scales : Nat := 0
  outliers : Nat := 0
  placement : List PlaceRec := []
  digests : List W64 := []
  anchor : Nat := 0
  lost : Bool := false
  deriving DecidableEq, Repr

/-- The modes of a load (R124). -/
inductive LoadMode where
  | full | rolling | unlock
  deriving DecidableEq, Repr

/-- A load in progress (R124, R125, R129): committed to image slot `slot` once verified. -/
structure Load where
  mode : LoadMode
  slot : Option Nat := none
  oldSlot : Option Nat := none
  deriving DecidableEq, Repr

/-- An anchor slot of the OTP store (R123). -/
structure Anchor where
  hash : BitVec 384 := 0
  valid : Bool := false
  revoked : Bool := false
  floor : Nat := 0
  deriving DecidableEq, Repr

/-- The states of the Belfry (R145). -/
inductive BState where
  | freerun | acquiring | locked | holdover
  deriving DecidableEq, Repr

/-- A reference source (R147, R150). -/
structure Ref where
  qualified : Bool := false
  since : Nat := 0
  lastSeen : Option Nat := none
  count : Nat := 0
  deriving DecidableEq, Repr

/-- The Belfry (R143 to R157). (DESIGN CHOICE, log entry 5) -/
structure Belfry where
  ns : W64 := 0
  frac : W16 := 0
  steerAcc : Int := 0
  state : BState := .freerun
  source : Option RefSource := none
  refclk : BitVec 2 := 0
  timeValid : Bool := false
  holdExpired : Bool := false
  /-- HOLD_LIMIT has been passed since the Belfry was last LOCKED: group launches are refused (R153). -/
  unfit : Bool := false
  setIgnored : Bool := false
  phaseErr : W32 := 0
  freqAdj : W32 := 0
  pps : Ref := {}
  ptp : Ref := {}
  fab : Ref := {}
  good : Nat := 0
  bad : Nat := 0
  holdSince : Nat := 0
  stepAtPps : Option W64 := none
  /-- The epoch boundary that has still to act (R143, R157): when it came, and its NS. -/
  boundary : Option (Nat × Nat) := none
  ppsOut : Bool := false
  ppsRise : Nat := 0
  linkDelay : Tab Nat := []
  timeSeq : W16 := 0
  hops : Byte := 0
  gm : W16 := 0
  sentAt : Nat := 0
  exchangedAt : Nat := 0
  deriving DecidableEq, Repr

/-- The running part of a cadence (R158 to R162): the grid index and the number of the next tick, the
number of the latest one with its deadline, the ticks that have occurred, the ANCHOR, PERIOD and
DEADLINE it was last started with, and whether they have ever changed. -/
structure Cadence where
  running : Bool := false
  cfgErr : Bool := false
  misses : W16 := 0
  j : Nat := 0
  num : Nat := 0
  tick : W64 := 0
  occ : Nat := 0
  due : Option Nat := none
  vals : Option (Nat × Nat × Nat) := none
  changed : Bool := false
  deriving DecidableEq, Repr

/-- The states of a launch entry (R164). -/
inductive LState where
  | free | armed | committed | dispatched | missed
  deriving DecidableEq, Repr

/-- An entry of the launch table (R163 to R168). -/
structure Launch where
  st : LState := .free
  t : W64 := 0
  op : Nat := 0
  inst : Inst := 0
  gen : Byte := 0
  group : Option W16 := none
  tag : W32 := 0
  verdict : Option Bool := none
  reason : Byte := 0
  outcome : Option (BitVec 2) := none
  /-- The entry has passed to the device after an instance reset (R368). -/
  null_ : Bool := false
  engine : Option Nat := none
  /-- The operation of a missed entry that completes at T or later (R250). -/
  held : Option Op := none
  deriving DecidableEq, Repr

/-- What a coordinator keeps of a group launch (R166, R167). -/
structure GroupLaunch where
  group : W16
  tag : W32
  t : W64
  inst : Inst
  members : List W16
  rank : Nat
  armed : List Nat := []
  refused : List Nat := []
  reason : Byte := 0
  go : Option Bool := none
  missing : List Nat := []
  sent : Bool := false
  deriving DecidableEq, Repr

/-- The states of an instance (R362). -/
inductive IState where
  | disabled | enabled | resetting
  deriving DecidableEq, Repr

/-- An instance (R362, R367, R464). -/
structure Instance where
  st : IState := .disabled
  refused : Bool := false
  scrub : Bool := false
  conflict : Bool := false
  gen : Byte := 0
  accErr : W32 := 0
  /-- State to return to after the reset in progress, and its trigger (R362, R484). -/
  after : IState := .enabled
  trigger : Byte := 0
  resetAt : Nat := 0
  /-- User-memory ranges taken away and not zeroed yet, as address and length (R361). -/
  scrubbing : List (Nat × Nat) := []
  cntAddr : W64 := 0
  cntLow : Option W32 := none
  /-- Epochs in which a BAR4 record has been issued (R351). -/
  accEpoch : Option Nat := none
  deriving DecidableEq, Repr

/-- A stack (R335, R336, R463). -/
structure Stack where
  fenced : Bool := false
  ppr : Bool := false
  corrected : W64 := 0
  zeroed : Bool := false
  /-- Rows with a corrected error, and when (R335). -/
  rows : Tab Nat := []
  deriving DecidableEq, Repr

/-- A posted write sent to the host (R333). -/
structure HostWrite where
  fn : Inst
  addr : Nat
  data : List Byte
  deriving DecidableEq, Repr

/-- The tag of a read request of a transfer engine (R338): the engine, its generation, and the burst. -/
structure ReadTag where
  engine : Nat
  gen : Byte
  burst : Nat
  deriving DecidableEq, Repr

/-- A read of host memory for an operation: its entry, the row of an ATTN, and the engine's tag. -/
structure HostReader where
  op : Nat
  row : Nat
  tag : ReadTag
  deriving DecidableEq, Repr

/-- An outstanding request to the host (R341, R350). -/
structure HostReq where
  inst : Inst
  gen : Byte
  tid : Option Tid
  /-- The read of an operation that it carries, in place of a thread's load. -/
  reader : Option HostReader := none
  deriving DecidableEq, Repr

/-- An event record (R384); `detail` is 12 bytes. `inst` is none when the event concerns no instance. -/
structure Event where
  ns : W64
  cls : Byte
  action : Byte
  inst : Option Inst
  unit : UnitId
  seq : W32
  detail : List Byte
  deriving DecidableEq, Repr

/-- The training states of a link (R304). -/
inductive LinkState where
  | disabled | detect | train | align | ident | credit | active | backoff | parked | miswired | degrade
  deriving DecidableEq, Repr

/-- A fabric link (R302 to R312). Credits count 64-byte units by pool, class × 2 + hop. -/
structure LinkSt where
  st : LinkState := .disabled
  since : Nat := 0
  width : Nat := 0
  pol : BitVec 4 := 0
  lmap : Byte := 0
  attempts : Nat := 0
  fecHigh : Bool := false
  tries : Nat := 0
  signal : Bool := false
  quietSince : Nat := 0
  gotPools : List Nat := []
  credits : Tab Nat := []
  paused : BitVec 4 := 0
  lanes : BitVec 4 := 0
  /-- Device ID that the partner sent in its IDENT (R305). -/
  partner : W16 := 0
  /-- When a frame of each class last left at the egress: the next one became its head then (R348). -/
  headAt : Tab Nat := []
  /-- A record of PARKED stands for the retries of PARK_S (R307). -/
  parkNoted : Bool := false
  deriving DecidableEq, Repr

/-- A frame that waits for its acknowledgement (R313), which reserves the buffer of its answer (R325). -/
structure TxCopy where
  dst : W16
  frame : Frame
  op : Option Nat
  inst : Inst
  gen : Byte
  tries : Nat
  sentAt : Nat
  /-- A READ or COLL_PULL that has been acknowledged, and waits for its data. -/
  acked : Bool := false
  /-- Not sent yet: it follows a WRITE of its operation to the same address (R314). -/
  held : Bool := false
  /-- The tag of a read request (R338). -/
  tag : Option ReadTag := none
  deriving DecidableEq, Repr

/-- What a receiver keeps for a source and class (R313). -/
structure RxWindow where
  highest : W32 := 0
  beyond : List W32 := []
  deriving DecidableEq, Repr

/-- A frame at the egress (R309, R311, R316, R348): the link on which it was transmitted, none while it waits; its
number among the frames spread over planes; the link that it belongs to, for the time frames of a link; when it became
ready; the link in whose buffer a relayed frame stands; and the priority of its IEEE 802.1Q tag. -/
structure TxFrame where
  link : Option Link
  frame : Frame
  num : Nat := 0
  via : Option Link := none
  readyAt : Nat := 0
  buffered : Option Link := none
  pcp : Nat := 0
  deriving DecidableEq, Repr

/-- A sensor (R410 to R412): reading in 0.125 °C, 0 valid, 1 SUSPECT or 2 FAILED, checks in a row beyond
8 °C, and the reading that stands in for a FAILED one. (DESIGN CHOICE, log entry 11) -/
structure Sensor where
  reading : W16 := 0
  mark : BitVec 2 := 0
  run : Nat := 0
  standIn : Option W16 := none
  /-- When a stack was last read, or its domain was last off (R411). -/
  seenAt : Nat := 0
  deriving DecidableEq, Repr

/-- A power domain (R405, R408). -/
inductive Dom where
  | off | starting | usable
  deriving DecidableEq, Repr

/-- A metrology converter (R425, R428): the channel that holds it, the input and filter of its last measurement,
when the result in progress is settled, and whether the grant was reserved. -/
structure Met where
  holder : Option (Fin 8) := none
  input : Option Nat := none
  filter : Nat := 0
  settledAt : Nat := 0
  reserved : Bool := false
  deriving DecidableEq, Repr

/-- A host metrology channel (R431 to R433). -/
structure Chan where
  running : Bool := false
  err : Byte := 0
  input : Nat := 0
  filter : Nat := 0
  excite : Nat := 0
  probe : Bool := false
  unipolar : Bool := false
  prio : Nat := 0
  count : Nat := 0
  interval : Nat := 0
  ring : W64 := 0
  log2 : Nat := 4
  doneCnt : W64 := 0
  taken : Nat := 0
  raised : Bool := false
  age : Nat := 0
  requestedAt : Nat := 0
  stopping : Bool := false
  deriving DecidableEq, Repr

/-- The findings of a SENSE input (R427). -/
structure Sense where
  open_ : Bool := false
  short : Bool := false
  reversed : Bool := false
  reported : Bool := false
  probedAt : Option Nat := none
  deriving DecidableEq, Repr

/-- A Keep command in progress (R456, R457). -/
inductive KeepCmd where
  | restoreFactory
  | zeroise
  | sweep (n : Nat) (ref : W16)
  | retest (u : UnitId)
  /-- A command given while the Keep does not run, which nobody answers (R374). -/
  | unanswered
  deriving DecidableEq, Repr

/-- The Keep (R456, R471). -/
structure Keep where
  busy : Option KeepCmd := none
  since : Nat := 0
  done : Bool := false
  result : Byte := 0
  running : Bool := true
  recovery : Bool := false
  restoring : Option Nat := none
  restoreBy : List Tid := []
  fwA : Bool := true
  fwNew : Bool := false
  /-- Updates of copy A that have taken effect (R471, R355). -/
  fwGen : Nat := 0
  /-- Power-ons so far: each reads MODID0 to MODID3 (R477). -/
  starts : Nat := 0
  deriving DecidableEq, Repr

/-- A user calibration set (R435, R436): its generation and the bytes of its content that differ from
the factory set. -/
structure CalSet where
  generation : Nat
  cells : List (Nat × Byte)
  deriving DecidableEq, Repr

/-- A two-halves latch (R452, R453): the register and view, the requester, the held value, whether it is
for a write, and when it was taken. -/
structure Latch where
  req : Requester
  block : Nat
  reg : Nat
  view : View
  value : W32
  frac : W16
  write : Bool
  at_ : Nat
  deriving DecidableEq, Repr

/-- The registers with pending and active values (R447, R449), by the BAR0 offset of their low half in
the base view; unlisted registers hold their reset value. -/
structure Regs where
  act : Tab W64 := []
  pend : Tab W64 := []
  deriving DecidableEq, Repr

/-- What an order acts on (R372): the bits of a register by its BAR0 offset, a thread, or the management
commands of R221. -/
inductive OrderOn where
  | reg (off : Nat)
  | thread (t : Nat)
  | mgmt
  deriving DecidableEq, Repr

/-- An order given in the cycle in progress (R370 to R373): when, the rank of its master (2 the Keep, 1 the physical
function, 0 a virtual function) and its instance, what it acts on, the bits and the effect, whether it is a
containing order, the thread register that holds its result, and STATUS_ADDR of the thread that an abort ended. -/
structure Order where
  at_ : Nat
  rank : Nat
  inst : Inst
  on : OrderOn
  mask : Nat
  effect : Nat
  contains : Bool
  reply : Option (Tid × GReg) := none
  status : W64 := 0
  deriving DecidableEq, Repr

/-- An HDM decoder (R356). -/
structure Hdm where
  committed : Bool := false
  base : W64 := 0
  size : W64 := 0
  dev : W64 := 0
  inst : Inst := 0
  deriving DecidableEq, Repr

/-- A recovery window (R393): the unit, and when it ends at the latest. -/
structure Window where
  unit : UnitId
  until_ : Nat
  spare : Option UnitId
  deriving DecidableEq, Repr

/-- An answer of the DOE mailbox (R355), as its kind and content bytes. -/
structure DoeMsg where
  kind : Byte
  data : List Byte
  deriving DecidableEq, Repr

/-- An MSI-X message sent: function and vector (R354). -/
structure Msi where
  fn : Inst
  vector : Nat
  deriving DecidableEq, Repr

/-! ## The groups of the state -/

/-- Time: the Belfry, the cadences, the launch table and what coordinators keep (chapter 06). -/
structure TimeSt where
  belfry : Belfry := {}
  cadences : Tab Cadence := []
  launches : Tab Launch := []
  groups : List GroupLaunch := []
  deriving DecidableEq, Repr

/-- Threads, cores and rings (chapter 07). `orderNo` numbers the events of becoming READY or WAITING;
`gsteps` holds GSTEP by instance × 256 + group. -/
structure MbxSt where
  threads : Tab Thread := []
  orderNo : Nat := 0
  cores : Tab Core := []
  gsteps : Tab W64 := []
  rings : Tab Ring := []
  deriving DecidableEq, Repr

/-- Operations and the Dome engines that carry them out (chapters 09 to 13). -/
structure OpSt where
  table : Tab Op := []
  seqs : Tab W32 := []
  posQueue : List PosWrite := []
  seeds : List SeedMsg := []
  seals : List SealDue := []
  xfers : Tab Xfer := []
  collEngines : Tab CollEngine := []
  collSeq : Tab W32 := []
  earlyColl : List EarlyColl := []
  attnFenced : Byte := 0
  samplerFenced : Bool := false
  lastResidue : Tab Nat := []
  deriving DecidableEq, Repr

/-- Tiles by Spire × 264 + physical tile, tile maps by Spire × 256 + logical tile (those that differ
from R15), and TILE_OWN records by device tile (those that differ from instance 0, group 0). -/
structure TileSt where
  tiles : Tab Tile := []
  tmap : Tab Nat := []
  town : Tab W16 := []
  deriving DecidableEq, Repr

/-- Images, keys and the calibration store (chapters 05, 17). -/
structure ImgSt where
  images : Tab Image := []
  load : Option Load := none
  loadReason : Byte := 0
  loadStage : BitVec 4 := 0
  loadDone : Bool := false
  progress : Nat := 0
  anchors : Tab Anchor := []
  policyBoth : Bool := false
  zeroise : Bool := false
  zeroiseFlag : Bool := false
  zeroiseBy : List Tid := []
  calGen : Nat := 0
  userSets : List CalSet := []
  deriving DecidableEq, Repr

/-- Stacked memory (chapter 13): its bytes that are not 0, the poisoned 64-byte lines, and the stacks. -/
structure MemSt where
  cells : List Host.Cell := []
  poison : List Nat := []
  stackTab : Tab Stack := []
  deriving DecidableEq, Repr

/-- The host interface (chapter 13). `out` lists posted writes, newest first. (PRESUMED, log entry 10) -/
structure HostSt where
  out : List HostWrite := []
  reqs : Tab HostReq := []
  hdms : Tab Hdm := []
  /-- What the last read command returned. -/
  readOut : List Byte := []
  unmasked : List Msi := []
  msixPend : List Msi := []
  msix : List Msi := []
  vfEnable : Bool := false
  perst : Bool := true
  linkUp : Bool := false
  scrub : Bool := false
  doeOut : List DoeMsg := []
  spdmVersion : Bool := false
  deriving DecidableEq, Repr

/-- The register interface (chapter 18). -/
structure RegSt where
  vals : Regs := {}
  /-- When a register with EPOCH-class fields was written, until its value has applied (R156). -/
  pendAt : Tab Nat := []
  /-- When a register with PASS- or STEP-class fields was first written in the cycle of its last write, and its pending
  value before (R450). -/
  pendOld : Tab (Nat × W64) := []
  blockStat : Tab (BitVec 4) := []
  latches : List Latch := []
  resetCause : BitVec 5 := 1
  routePend : Tab W64 := []
  routeAct : Tab W64 := []
  /-- When a pending routing entry was written, until it is in force (R319, R156). -/
  routeAt : Tab Nat := []
  /-- The orders of the cycle in progress (R372). -/
  orders : List Order := []
  /-- When a register with a priority was last written, and its value before (R347), by its BAR0 offset. -/
  prioOld : Tab (Nat × W64) := []
  deriving DecidableEq, Repr

/-- Fences and event records (chapter 15). -/
structure FltSt where
  devFence : Bool := false
  devFenceWhy : Nat := 0
  /-- NS when the device fence was last set (R165). -/
  fenceNs : Nat := 0
  spireFenced : BitVec 4 := 0
  events : List Event := []
  evtSeq : W32 := 0
  evtLost : W32 := 0
  windows : List Window := []
  deriving DecidableEq, Repr

/-- The fabric router (chapter 12). -/
structure FabSt where
  links : Tab LinkSt := []
  tx : List TxFrame := []
  txSeq : Tab W32 := []
  unacked : List TxCopy := []
  rx : Tab RxWindow := []
  pathWait : Tab Nat := []
  sliceDrops : W32 := 0
  dropEpoch : Tab Nat := []
  discards : W32 := 0
  /-- Frames sent outside reliable delivery, by which those are spread over planes (R316, R322). -/
  spread : Nat := 0
  deriving DecidableEq, Repr

/-- Supplies, domains, sensors and throttling (chapter 16). (DESIGN CHOICE, log entry 11) -/
structure PwrSt where
  domains : Tab Dom := []
  domErr : Byte := 0
  /-- When each domain was last switched (R437). -/
  domAt : Tab Nat := []
  /-- The request of PWR.DOMAIN_CTL in progress (R409). -/
  domBusy : Option Nat := none
  /-- The group of R408 that is being brought up; 0 when none is. -/
  bringUp : Nat := 0
  p48ok : Bool := false
  /-- P48 has qualified since power-on. -/
  p48seen : Bool := false
  p12ok : Bool := true
  p48warn : Bool := false
  p48 : W16 := 0
  p12 : W16 := 0
  pAvg : W16 := 0
  short : BitVec 9 := 0
  rP : Nat := 4096
  rT : Tab Nat := []
  sensors : Tab Sensor := []
  trip : Bool := false
  tripInfo : W32 := 0
  tripCool : Option Nat := none
  alert : Bool := false
  /-- Mean sensor reading for which each field's reference was last set (R421), by Spire × 4 + field. -/
  fieldRef : Tab W16 := []
  oscTemp : Option W16 := none
  oscRecs : List (W16 × W32) := []
  deriving DecidableEq, Repr

/-- Metrology (chapter 17). -/
structure MetSt where
  mets : Tab Met := []
  chans : Tab Chan := []
  senses : Tab Sense := []
  driftAt : Tab Nat := []
  /-- Drift records (R437): field, when, and the mean of the field's sensors. -/
  driftRecs : List (Nat × Nat × W16) := []
  /-- Fields whose missed cycle has been reported (R429). -/
  missed : List Nat := []
  deriving DecidableEq, Repr

/-- The state of the device. `arb` holds the grant counts of the arbiters (R343). (DESIGN CHOICE, log entry 1) -/
structure State where
  pending : List Instr := []
  now : Nat := 0
  free : Nat := 0
  time : TimeSt := {}
  mbx : MbxSt := {}
  op : OpSt := {}
  tile : TileSt := {}
  img : ImgSt := {}
  mem : MemSt := {}
  host : HostSt := {}
  reg : RegSt := {}
  insts : Tab Instance := []
  flt : FltSt := {}
  fab : FabSt := {}
  pwr : PwrSt := {}
  met : MetSt := {}
  keep : Keep := {}
  arb : Tab Nat := []
  deriving DecidableEq, Repr

/-- The machine right after a power-on reset (R469 step 2, R474): P12AUX has qualified, P48 is absent,
every switched domain is off, RESET_CAUSE.POWER_ON is set, the Belfry counts from 0 with TIME_VALID 0
(R144), every register holds its reset value, and nothing waits. (DESIGN CHOICE, log entry 5) (DESIGN CHOICE, log entry 9) (DESIGN CHOICE, log entry 12) -/
def State.reset : State := {}

end Sys2Proof.Machine
end

