-- ==== Sys2Proof/Machine/RegMap.lean ====
section
/-! DEFINITION. The register map (R439 to R445, R455 to R467): blocks, registers, fields, access, apply
class, allowed values and reset values, and the reading of stored register values. -/

namespace Sys2Proof.Machine

open Sys2Proof

/-- The register blocks (R440, R441). -/
inductive Blk where
  | global | keep | pwr | therm | belfry
  | cadence (i : Nat)
  | flt | sched | sec
  | met (x : Nat)
  | fab | route
  | mems (s : Nat)
  | xfer
  | inst (n : Nat)
  | spire (n : Nat) | spwr (n : Nat) | stherm (n : Nat) | cores (n : Nat)
  /-- The block of physical tile `t` of Spire `n`. -/
  | tile (n t : Nat)
  deriving DecidableEq, Repr

/-- The base of a Spire (R439). -/
def spireBase (n : Nat) : Nat := 0x2000000 + n * 0x800000

/-- The base of a block (R440, R441). -/
def blkBase : Blk → Nat
  | .global => 0x0000 | .keep => 0x4000 | .pwr => 0x8000 | .therm => 0xC000 | .belfry => 0x10000
  | .cadence i => 0x14000 + i * 0x4000
  | .flt => 0x1C000 | .sched => 0x20000 | .sec => 0x24000
  | .met x => if x = 4 then 0x28000 else spireBase x + 0xC000
  | .fab => 0x30000 | .route => 0x34000
  | .mems s => 0x40000 + s * 0x4000
  | .xfer => 0x60000
  | .inst n => 0x100000 + n * 0x4000
  | .spire n => spireBase n | .spwr n => spireBase n + 0x4000 | .stherm n => spireBase n + 0x8000
  | .cores n => spireBase n + 0x10000
  | .tile n t => spireBase n + 0x100000 + t * 0x4000

/-- KIND of a block (R440, R441). -/
def blkKind : Blk → Nat
  | .global => 0x01 | .keep => 0x02 | .pwr => 0x03 | .therm => 0x04 | .belfry => 0x05 | .cadence _ => 0x06
  | .flt => 0x07 | .sched => 0x08 | .sec => 0x09 | .met _ => 0x0A | .fab => 0x0C | .route => 0x0D
  | .mems _ => 0x0E | .xfer => 0x0F | .inst _ => 0x10 | .spire _ => 0x11 | .spwr _ => 0x12
  | .stherm _ => 0x13 | .cores _ => 0x14 | .tile _ _ => 0x15

/-- K of a block: it implements 2^K registers (R440, R441). -/
def blkK : Blk → Nat
  | .global => 5 | .keep => 5 | .pwr => 5 | .therm => 7 | .belfry => 4 | .cadence _ => 10
  | .flt => 4 | .sched => 4 | .sec => 4 | .met _ => 6 | .fab => 8 | .route => 3
  | .mems _ => 5 | .xfer => 7 | .inst _ => 6 | .spire _ => 9 | .spwr _ => 4
  | .stherm _ => 7 | .cores _ => 7 | .tile _ _ => 8

/-- INDEX of a block (R443). -/
def blkIndex : Blk → Nat
  | .mems s => s | .inst n => n | .spire n => n | .spwr n => n | .stherm n => n | .cores n => n
  | .tile _ t => t | .met x => if x = 4 then 0 else x | .cadence i => i
  | _ => 0

/-- BLOCK_ID (R443). -/
def blkId (b : Blk) : Nat := blkKind b + blkK b * 0x100 + 0x1000 + blkIndex b * 0x10000

/-- The block whose 16 KiB hold a BAR0 offset; none for an empty block (R440 to R442). -/
def blkOf (off : Nat) : Option Blk :=
  let c := off / 0x4000
  if off < 0x2000000 then
    match c with
    | 0 => some .global | 1 => some .keep | 2 => some .pwr | 3 => some .therm | 4 => some .belfry
    | 5 => some (.cadence 0) | 6 => some (.cadence 1) | 7 => some .flt | 8 => some .sched | 9 => some .sec
    | 10 => some (.met 4) | 12 => some .fab | 13 => some .route | 24 => some .xfer
    | _ =>
      if 16 ≤ c ∧ c < 24 then some (.mems (c - 16))
      else if 64 ≤ c ∧ c < 96 then some (.inst (c - 64))
      else none
  else if off < 0x4000000 then
    let n := (off - 0x2000000) / 0x800000
    let d := (off - 0x2000000) % 0x800000 / 0x4000
    match d with
    | 0 => some (.spire n) | 1 => some (.spwr n) | 2 => some (.stherm n) | 3 => some (.met n)
    | 4 => some (.cores n)
    | _ => if 64 ≤ d ∧ d < 64 + 264 then some (.tile n (d - 64)) else none
  else none

/-- The offset of the register that an offset in a block reaches (R442). -/
def blkReg (b : Blk) (off : Nat) : Nat := off % 0x1000 % (4 * 2 ^ blkK b)

/-- How a field may be accessed (R11, R447). -/
inductive Acc where
  | rw | rwl | w1c | wo | ro
  deriving DecidableEq, Repr

/-- The apply class of a field (R449); `disabled` is the class of R357 that needs a DISABLED instance. -/
inductive Cls where
  | imm | pass | step | epoch | disabled
  deriving DecidableEq, Repr

/-- A field: its place, access and class, and its allowed values as ranges, all values where it lists none
(R448). -/
structure Fld where
  lo : Nat
  w : Nat
  acc : Acc
  cls : Cls := .imm
  ok : List (Nat × Nat) := []
  deriving DecidableEq, Repr

/-- A register: whether it is 64 bits wide, its reset value, and its fields. -/
structure RDesc where
  wide : Bool := false
  reset : Nat := 0
  flds : List Fld := []
  deriving DecidableEq, Repr

/-- A register whose bits are all read-only. -/
def roReg (wide : Bool) : RDesc := ⟨wide, 0, [⟨0, if wide then 64 else 32, .ro, .imm, []⟩]⟩

/-- A register of one RW field. -/
def rwReg (wide : Bool) (reset lo w : Nat) (c : Cls) (ok : List (Nat × Nat) := []) : RDesc :=
  ⟨wide, reset, [⟨lo, w, .rw, c, ok⟩]⟩

/-- An arbiter's register (R349) with its default NTH and HINT (R348). -/
def arbReg (nth : Nat) (hint : Bool) : RDesc :=
  ⟨false, nth + b2n hint * 0x100 + 0x200, [⟨0, 8, .rw, .imm, [(1, 255)]⟩, ⟨8, 1, .rw, .imm, []⟩, ⟨9, 1, .rw, .imm, []⟩]⟩

/-- The registers of GLOBAL (R455) and KEEP (R456). -/
def descGlobal : Nat → Option RDesc
  | 0x008 => some (roReg false)
  | 0x00C => some (rwReg false 0 0 16 .epoch [(0, 0xFFFE)])
  | 0x010 => some (roReg true)
  | 0x018 => some (roReg false)
  | 0x01C => some ⟨false, 0, [⟨0, 5, .w1c, .imm, []⟩]⟩
  | 0x020 => some (rwReg true 0 0 64 .imm)
  | 0x028 => some (roReg false)
  | 0x02C => some (roReg false)
  | _ => none

def descKeep : Nat → Option RDesc
  | 0x008 => some ⟨false, 0, [⟨0, 8, .wo, .imm, []⟩]⟩
  | 0x00C => some (roReg false)
  | 0x010 => some (rwReg true 0 0 64 .imm)
  | 0x018 => some ⟨false, 0, [⟨0, 2, .rwl, .imm, []⟩, ⟨31, 1, .rwl, .imm, []⟩]⟩
  | 0x020 => some (roReg false)
  | 0x024 => some (roReg false)
  | _ => none

/-- The registers of PWR (R458, R409, R414) and THERM (R459, R413). -/
def descPwr : Nat → Option RDesc
  | 0x008 => some ⟨false, 0, [⟨0, 6, .rw, .imm, [(0, 46)]⟩, ⟨6, 2, .wo, .imm, []⟩, ⟨8, 1, .ro, .imm, []⟩, ⟨16, 8, .ro, .imm, []⟩]⟩
  | 0x010 => some (roReg true)
  | 0x018 => some (rwReg false 0x3E8 0 11 .epoch [(300, 1000)])
  | 0x01C => some (roReg false)
  | 0x020 => some (roReg false)
  | 0x024 => some (roReg false)
  | 0x028 => some (roReg false)
  | 0x02C => some (roReg false)
  | 0x030 => some (roReg false)
  | 0x034 => some (arbReg 4 true)
  | _ => none

def descTherm (o : Nat) : Option RDesc :=
  match o with
  | 0x008 => some ⟨false, 0x5F, [⟨0, 8, .rwl, .epoch, [(80, 105)]⟩, ⟨8, 1, .rwl, .imm, []⟩]⟩
  | 0x00C => some (roReg false)
  | 0x010 => some (roReg false)
  | _ => if 0x100 ≤ o ∧ o < 0x100 + 4 * 40 then some (roReg false) else none

/-- The registers of BELFRY (R145). (DESIGN CHOICE, log entry 5) -/
def descBelfry : Nat → Option RDesc
  | 0x008 => some (roReg true)
  | 0x010 => some (roReg false)
  | 0x014 => some ⟨false, 0, [⟨0, 10, .ro, .imm, []⟩, ⟨10, 1, .w1c, .imm, []⟩, ⟨11, 1, .w1c, .imm, []⟩, ⟨16, 11, .ro, .imm, []⟩]⟩
  | 0x018 => some ⟨false, 0x003C0002, [⟨0, 1, .rw, .imm, []⟩, ⟨1, 1, .rw, .imm, []⟩, ⟨2, 1, .rw, .epoch, []⟩, ⟨16, 16, .rw, .imm, []⟩]⟩
  | 0x01C => some ⟨false, 0, [⟨0, 2, .rw, .imm, []⟩, ⟨2, 2, .rw, .imm, []⟩, ⟨4, 2, .rw, .imm, []⟩,
      ⟨6, 1, .rw, .epoch, []⟩, ⟨7, 1, .rw, .imm, []⟩, ⟨8, 6, .rw, .imm, [(0, 35)]⟩, ⟨16, 8, .rw, .imm, []⟩]⟩
  | 0x020 => some (rwReg true 0 0 64 .imm)
  | 0x028 => some (rwReg true 0 0 64 .imm)
  | 0x030 => some (rwReg true 0 0 36 .imm)
  | 0x038 => some (roReg false)
  | 0x03C => some (roReg false)
  | _ => none

/-- The registers of a cadence (R158), by their offset in its 32 bytes. -/
def descCadence (o : Nat) : Option RDesc :=
  match o % 0x20 with
  | 0x00 => some (rwReg true 0 0 64 .epoch)
  | 0x08 => some (rwReg true 0 0 50 .epoch)
  | 0x10 => some ⟨false, 0, [⟨0, 1, .rw, .epoch, []⟩, ⟨1, 1, .rw, .imm, []⟩, ⟨8, 5, .rw, .epoch, []⟩]⟩
  | 0x14 => some (rwReg false 0 0 32 .epoch)
  | 0x18 => some ⟨false, 0, [⟨0, 2, .ro, .imm, []⟩, ⟨2, 1, .wo, .imm, []⟩, ⟨16, 16, .ro, .imm, []⟩]⟩
  | 0x1C => some (roReg false)
  | _ => none

/-- The registers of FLT (R379), SCHED and SEC (R460). -/
def descFlt : Nat → Option RDesc
  | 0x008 => some (rwReg false 1 0 3 .epoch [(0, 4)])
  | _ => none

def descSched : Nat → Option RDesc
  | 0x008 => some (rwReg false 0x32 0 16 .imm)
  | 0x00C => some (roReg false)
  | 0x010 => some (rwReg false 0 0 22 .imm)
  | 0x014 => some (rwReg false 0 3 7 .imm)
  | 0x018 => some (roReg true)
  | _ => none

def descSec : Nat → Option RDesc
  | 0x008 => some (rwReg true 0 0 64 .imm)
  | 0x010 => some (rwReg true 0 0 64 .imm)
  | 0x018 => some (rwReg true 0 0 64 .imm)
  | 0x020 => some ⟨false, 0, [⟨0, 2, .rw, .imm, [(0, 2)]⟩, ⟨4, 1, .wo, .imm, []⟩, ⟨8, 1, .ro, .imm, []⟩]⟩
  | 0x024 => some (roReg false)
  | 0x028 => some (rwReg true 0 0 64 .imm)
  | 0x030 => some (roReg false)
  | _ => none

/-- The registers of METx (R466, R433). -/
def descMet (x o : Nat) : Option RDesc :=
  if o = 0x008 then (if x = 4 then none else some (rwReg false 0x3E8 0 12 .imm [(250, 3000)]))
  else if o = 0x00C then some (arbReg 4 true)
  else if 0x040 ≤ o ∧ o < 0x0C0 then
    match o % 0x10 with
    | 0x0 => some (rwReg true 0 6 58 .imm)
    | 0x8 => some ⟨false, 0, [⟨0, 1, .wo, .imm, []⟩, ⟨1, 1, .wo, .imm, []⟩]⟩
    | 0xC => some (roReg false)
    | _ => none
  else none

/-- The registers of FAB (R461, R308). -/
def descFab (o : Nat) : Option RDesc :=
  match o with
  | 0x008 => some (rwReg true 0 0 64 .imm)
  | 0x010 => some ⟨false, 0x6543, [⟨0, 3, .rw, .epoch, []⟩, ⟨4, 3, .rw, .epoch, []⟩, ⟨8, 3, .rw, .epoch, []⟩, ⟨12, 3, .rw, .epoch, []⟩]⟩
  | 0x014 => some ⟨false, 0x03E80014, [⟨0, 16, .rw, .imm, []⟩, ⟨16, 16, .rw, .imm, []⟩]⟩
  | 0x018 => some (rwReg false 0x1E 0 6 .imm [(20, 40)])
  | 0x01C => some (roReg false)
  | 0x020 => some (roReg false)
  | _ =>
    if 0x100 ≤ o ∧ o < 0x100 + 8 * 36 then
      if o % 8 = 0 then
        some ⟨false, 0x3C80, [⟨0, 1, .rw, .imm, []⟩, ⟨1, 1, .rw, .imm, []⟩, ⟨2, 1, .rw, .imm, []⟩, ⟨3, 1, .wo, .imm, []⟩,
          ⟨4, 4, .rw, .imm, [(1, 15)]⟩, ⟨8, 8, .rw, .imm, [(1, 255)]⟩]⟩
      else if o % 8 = 4 then some ⟨false, 0, [⟨0, 22, .ro, .imm, []⟩, ⟨22, 1, .w1c, .imm, []⟩]⟩
      else none
    else if 0x300 ≤ o ∧ o < 0x300 + 4 * 36 ∧ o % 4 = 0 then some (arbReg 16 false)
    else none

/-- The registers of ROUTE (R462), MEMs and XFER (R463). -/
def descRoute : Nat → Option RDesc
  | 0x008 => some ⟨false, 0, [⟨0, 16, .rw, .imm, []⟩, ⟨16, 1, .rw, .imm, []⟩]⟩
  | 0x010 => some ⟨true, 0, [⟨0, 15, .rw, .imm, []⟩, ⟨16, 48, .rw, .imm, []⟩]⟩
  | 0x018 => some (roReg true)
  | _ => none

def descMems : Nat → Option RDesc
  | 0x008 => some (roReg false)
  | 0x010 => some (roReg true)
  | 0x018 => some (roReg false)
  | 0x01C => some (roReg false)
  | 0x020 => some (arbReg 16 false)
  | _ => none

def descXfer (o : Nat) : Option RDesc :=
  if 0x100 ≤ o ∧ o < 0x200 then
    if o % 8 = 0 then some (roReg false) else if o % 8 = 4 then some (arbReg 8 false) else none
  else none

/-- The registers of INSTn (R464, R357, R362). -/
def descInst (n o : Nat) : Option RDesc :=
  let d : Cls := .disabled
  match o with
  | 0x008 => some ⟨false, if n = 0 then 1 else 0, [⟨0, 1, .rw, .imm, []⟩, ⟨1, 1, .wo, .imm, []⟩]⟩
  | 0x00C => some ⟨false, 0, [⟨0, 2, .ro, .imm, []⟩, ⟨2, 1, .w1c, .imm, []⟩, ⟨3, 1, .ro, .imm, []⟩, ⟨4, 1, .w1c, .imm, []⟩, ⟨8, 8, .ro, .imm, []⟩]⟩
  | 0x010 => some ⟨false, if n = 0 then 0x04000000 else 0, [⟨0, 11, .rw, d, [(0, 1024)]⟩, ⟨16, 11, .rw, d, [(0, 1024)]⟩]⟩
  | 0x014 => some ⟨false, if n = 0 then 0x04001000 else 0, [⟨0, 13, .rw, .epoch, [(0, 4096)]⟩, ⟨16, 11, .rw, .epoch, [(0, 1024)]⟩]⟩
  | 0x018 => some ⟨false, if n = 0 then 0x570800 else 0x330000,
      [⟨0, 12, .rw, .epoch, [(0, 2048)]⟩, ⟨16, 3, .rw, .epoch, []⟩, ⟨20, 3, .rw, .epoch, [(0, 5)]⟩]⟩
  | 0x01C => some ⟨false, 0x400000, [⟨0, 12, .rw, d, []⟩, ⟨16, 12, .rw, .imm, [(0, 2048)]⟩]⟩
  | 0x080 => some (rwReg true 0 15 49 d)
  | 0x088 => some (rwReg true 0 0 33 d [(0, 0x100000000)])
  | 0x090 => some (rwReg true 0 6 58 d)
  | 0x098 => some (rwReg false 0 0 17 d [(0, 65536)])
  | 0x0A0 => some (rwReg true 0 6 58 .imm)
  | 0x0A8 => some ⟨false, 0, [⟨0, 5, .rw, .imm, []⟩, ⟨8, 1, .rw, .imm, []⟩]⟩
  | 0x0B0 => some (rwReg false 0 0 10 .imm)
  | 0x0B4 => some ⟨false, 0, [⟨0, 5, .rw, d, []⟩, ⟨7, 1, .rw, d, []⟩, ⟨8, 8, .rw, .imm, []⟩]⟩
  | 0x0D0 => some (roReg false)
  | _ =>
    if 0x020 ≤ o ∧ o < 0x040 ∧ o % 4 = 0 then
      some ⟨false, if n = 0 ∧ o = 0x020 then 0x805C4000 else 0, [⟨0, 11, .rw, d, []⟩, ⟨12, 11, .rw, d, []⟩, ⟨31, 1, .rw, d, []⟩]⟩
    else if 0x040 ≤ o ∧ o < 0x080 ∧ o % 8 = 0 then
      some (rwReg true (if o = 0x040 ∨ o = 0x048 then 0x8000000000000000 else 0) 12 52 d)
    else if 0x0C0 ≤ o ∧ o < 0x0D0 ∧ o % 4 = 0 then some (rwReg false 0 0 11 .imm)
    else none

/-- The registers of SPIRE, SPWR, STHERM and CORES (R465, R459). -/
def descSpire (o : Nat) : Option RDesc :=
  match o with
  | 0x008 => some (roReg false)
  | 0x00C => some (roReg false)
  | 0x010 => some (roReg false)
  | _ => if 0x400 ≤ o ∧ o < 0x800 ∧ o % 4 = 0 then some (roReg false) else none

def descSpwr : Nat → Option RDesc
  | 0x008 => some (roReg false)
  | 0x00C => some (roReg false)
  | _ => none

def descStherm (o : Nat) : Option RDesc :=
  match o with
  | 0x008 => some (roReg false)
  | 0x00C => some (roReg false)
  | _ => if 0x100 ≤ o ∧ o < 0x200 ∧ o % 4 = 0 then some (roReg false) else none

def descCores (o : Nat) : Option RDesc :=
  if 0x100 ≤ o ∧ o < 0x200 ∧ o % 4 = 0 then some (roReg false) else none

/-- The registers of TILEt (R467, R101, R130, R379). -/
def descTile (o : Nat) : Option RDesc :=
  match o with
  | 0x008 => some ⟨false, 0x00030800, [⟨0, 14, .rw, .imm, [(0, 8192)]⟩, ⟨16, 1, .rw, .step, []⟩, ⟨17, 1, .rw, .imm, []⟩]⟩
  | 0x00C => some ⟨false, 0x31, [⟨0, 2, .rw, .imm, []⟩, ⟨4, 1, .rw, .imm, []⟩, ⟨5, 1, .rw, .imm, []⟩]⟩
  | 0x010 => some ⟨false, 0x1037, [⟨0, 3, .rw, .pass, [(0, 4), (7, 7)]⟩, ⟨4, 4, .rw, .pass, [(1, 15)]⟩, ⟨8, 5, .rw, .pass, [(8, 24)]⟩]⟩
  | 0x014 => some (roReg false)
  | 0x018 => some (roReg false)
  | 0x01C => some (roReg false)
  | 0x020 => some (roReg false)
  | 0x024 => some (roReg false)
  | 0x028 => some (roReg false)
  | 0x02C => some (roReg false)
  | 0x034 => some (arbReg 4 true)
  | 0x038 => some (arbReg 8 false)
  | 0x03C => some (arbReg 4 false)
  | 0x040 => some (roReg false)
  | _ =>
    if 0x100 ≤ o ∧ o < 0x100 + 4 * 68 ∧ o % 4 = 0 then some (roReg false)
    else if 0x300 ≤ o ∧ o < 0x400 ∧ o % 4 = 0 then some (roReg false)
    else none

/-- The registers of a block other than its header, by the offset of their low half. -/
def regDesc (b : Blk) (o : Nat) : Option RDesc :=
  match b with
  | .global => descGlobal o | .keep => descKeep o | .pwr => descPwr o | .therm => descTherm o
  | .belfry => descBelfry o | .cadence _ => descCadence o | .flt => descFlt o | .sched => descSched o
  | .sec => descSec o | .met x => descMet x o | .fab => descFab o | .route => descRoute o
  | .mems _ => descMems o | .xfer => descXfer o | .inst n => descInst n o | .spire _ => descSpire o
  | .spwr _ => descSpwr o | .stherm _ => descStherm o | .cores _ => descCores o | .tile _ _ => descTile o

/-- The value a register holds at reset in its RW and RWL fields. -/
def regReset (b : Blk) (o : Nat) : W64 :=
  match regDesc b o with
  | some d => BitVec.ofNat 64 d.reset
  | none => 0

/-- The active value of the RW and RWL fields of a register (R449). -/
def regAct (s : State) (b : Blk) (o : Nat) : W64 := tabGet (regReset b o) s.reg.vals.act (blkBase b + o)

/-- The pending value of the RW and RWL fields of a register (R449). -/
def regPend (s : State) (b : Blk) (o : Nat) : W64 := tabGet (regReset b o) s.reg.vals.pend (blkBase b + o)

/-- A field of an active value. -/
def regFld (s : State) (b : Blk) (o lo w : Nat) : Nat := bits (regAct s b o).toNat lo w

/-- The state with a register's active value set. -/
def setRegAct (s : State) (b : Blk) (o : Nat) (v : W64) : State :=
  { s with reg.vals.act := tabPut s.reg.vals.act (blkBase b + o) v }

/-- The state with a register's pending value set. -/
def setRegPend (s : State) (b : Blk) (o : Nat) (v : W64) : State :=
  { s with reg.vals.pend := tabPut s.reg.vals.pend (blkBase b + o) v }

/-- A field of a number replaced. -/
def setBits (v lo w x : Nat) : Nat := v - bits v lo w * 2 ^ lo + x % 2 ^ w * 2 ^ lo

/-- The bits that the fields of a register in class `c` cover. -/
def clsMask (fl : List Fld) (c : Cls) : Nat :=
  fl.foldl (fun m f => if (f.acc = .rw ∨ f.acc = .rwl) ∧ f.cls = c then m + (2 ^ f.w - 1) * 2 ^ f.lo else m) 0

/-- The pending value that a boundary in the present cycle applies: of class PASS or STEP, the one from before the
cycle (R450). -/
def duePend (c : Cls) (s : State) (b : Blk) (o : Nat) : W64 :=
  let (w, old) := tabGet (0, regPend s b o) s.reg.pendOld (blkBase b + o)
  if (c == .pass || c == .step) && tabHas s.reg.pendOld (blkBase b + o) && decide (s.now / 32 * 32 ≤ w) then old
  else regPend s b o

/-- The register whose fields of class `c` take their pending values as active (R449, R450). -/
def applyReg (c : Cls) (s : State) (b : Blk) (o : Nat) : State :=
  match regDesc b o with
  | none => s
  | some d =>
    let m := BitVec.ofNat 64 (clsMask d.flds c)
    if m = 0 then s else setRegAct s b o ((regAct s b o &&& ~~~m) ||| (duePend c s b o &&& m))

/-- Every listed register of a block takes the pending values of class `c` (R449). -/
def applyBlock (c : Cls) (b : Blk) (s : State) : State :=
  s.reg.vals.pend.foldl
    (fun s (k, _) => if blkBase b ≤ k ∧ k < blkBase b + 0x1000 then applyReg c s b (k - blkBase b) else s) s

/-- The sticky bits of BLOCK_STAT (R444): TORN 0, SIZE_ERR 2, DENIED 3. -/
def setBlockStat (s : State) (b : Blk) (n : Nat) : State :=
  let k := blkBase b
  { s with reg.blockStat := tabPut s.reg.blockStat k (tabGet 0 s.reg.blockStat k ||| BitVec.ofNat 4 (2 ^ n)) }

end Sys2Proof.Machine
end

