-- ==== Sys2Proof/Machine/Memory.lean ====
section
/-! DEFINITION. Stacked memory and the host window (R329 to R336), and what belongs to an instance (R330,
R357 to R361). -/

namespace Sys2Proof.Machine

open Sys2Proof

/-! ## Cells -/

/-- The byte at an address: 0 where nothing is listed (R469 step 9: stacked memory is zeroed). (DESIGN CHOICE, log entry 72) -/
def cellGet : List Host.Cell → Nat → Byte
  | [], _ => 0
  | (k, v) :: r, n => if n = k then v else cellGet r n

/-- The cells with nothing listed at an address. -/
def cellDel : List Host.Cell → Nat → List Host.Cell
  | [], _ => []
  | (k, w) :: r, n => if n = k then cellDel r n else (k, w) :: cellDel r n

/-- The cells with a listed byte at an address. -/
def cellSet : List Host.Cell → Nat → Byte → List Host.Cell
  | [], n, v => [(n, v)]
  | (k, w) :: r, n, v =>
    if n < k then (n, v) :: (k, w) :: r
    else if n = k then (n, v) :: r
    else (k, w) :: cellSet r n v

/-- The cells with byte `v` at address `n`, in canonical form. (DESIGN CHOICE, log entry 72) -/
def cellPut (m : List Host.Cell) (n : Nat) (v : Byte) : List Host.Cell := if v = 0 then cellDel m n else cellSet m n v

/-- The canonical form of memory: addresses from `lo` on, strictly rising, and no byte that is 0. -/
def cellsFrom : Nat → List Host.Cell → Bool
  | _, [] => true
  | lo, (k, v) :: r => decide (lo ≤ k) && v != 0 && cellsFrom (k + 1) r

/-- Memory is in canonical form. (DESIGN CHOICE, log entry 72) -/
def Memory.wf (m : List Host.Cell) : Bool := cellsFrom 0 m

/-- Cells outside `[a, a + n)`: the range is zeroed. -/
def cellsZero (m : List Host.Cell) (a n : Nat) : List Host.Cell := m.filter fun (k, _) => k < a || a + n ≤ k

/-! ## The address space -/

/-- The end of stacked memory (R329). -/
def stackedEnd : Nat := 0x6000000000
/-- The end of user memory (R329). -/
def userEnd : Nat := 0x5C40000000
/-- The protected region (R329, R115). -/
def protBase : Nat := 0x5C40000000
/-- The context region (R329, R169). -/
def ctxBase : Nat := 0x5EC0000000
/-- The checkpoint region and its mirror (R329, R332). -/
def ckptBase : Nat := 0x5FC0000000
def mirrorBase : Nat := 0x5FD0000000
/-- The host window (R329). -/
def hostBase : Nat := 0x8000000000000000

/-- Whether an address is in stacked memory (R184). -/
def isStacked (a : Nat) : Bool := decide (a < stackedEnd)
/-- Whether an address is in the host window. -/
def isHost (a : Nat) : Bool := decide (hostBase ≤ a ∧ a < 2 ^ 64)

/-- The stack of an address (R331). -/
def stackOf (a : Nat) : Nat := a / 2 ^ 15 % 8

def getStack (s : State) (k : Nat) : Stack := tabGet {} s.mem.stackTab k
def setStack (s : State) (k : Nat) (v : Stack) : State := { s with mem.stackTab := tabPut s.mem.stackTab k v }

/-- Whether reading the line of an address gives an uncorrectable error (R335, R336). -/
def lineBad (s : State) (a : Nat) : Bool :=
  isStacked a && ((getStack s (stackOf a)).fenced || s.mem.poison.contains (a / 64))

/-- Whether any line of a range is bad; `n` bytes touch at most n / 64 + 2 lines. -/
def rangeBad (s : State) (a n : Nat) : Bool :=
  isStacked a &&
    (s.mem.poison.any (fun l => a / 64 ≤ l && l * 64 < a + n) ||
      (n != 0 && (upBy a 0x8000 (n / 0x8000 + 2)).any
        (fun x => x / 0x8000 ≤ (a + n - 1) / 0x8000 && (getStack s (stackOf x)).fenced)))

/-- A byte as a unit of the device reads it; host memory is outside the device and gives a free value. (DESIGN CHOICE, log entry 72) -/
def rdByte (s : State) (a : Nat) : Byte :=
  if isStacked a then cellGet s.mem.cells a
  else if isHost a then Config.hostByte s.free a else 0

/-- `n` bytes from an address on. -/
def rdBytes (s : State) (a n : Nat) : List Byte := (upFrom a n).map (rdByte s)

/-- A little-endian number of `n` bytes (R6). -/
def rdNat (s : State) (a n : Nat) : Nat := ofBytes (rdBytes s a n)

/-- A write of bytes to stacked memory: discarded on a fenced stack (R336); a write of a whole line clears
its poison, a write of part of it leaves the poison (R335). -/
def wrStacked (s : State) (a : Nat) (bs : List Byte) : State :=
  let n := bs.length
  let cells := (bs.zip (upFrom a n)).foldl
    (fun m (b, x) => if (getStack s (stackOf x)).fenced then m else cellPut m x b) s.mem.cells
  let poison := s.mem.poison.filter
    fun l => !(a ≤ l * 64 && l * 64 + 64 ≤ a + n && !(getStack s (stackOf (l * 64))).fenced)
  { s with mem.cells := cells, mem.poison := poison }

/-- The write TLPs of a posted write to host address `a`, oldest first: at most 512 bytes each (R350), and up to a multiple
of 512. (DESIGN CHOICE, log entry 67) -/
def hostTlps (inst : Inst) : Nat → Nat → List Byte → List HostWrite
  | 0, _, _ => []
  | fuel + 1, a, bs =>
    if bs.isEmpty then [] else ⟨inst, a, bs.take (512 - a % 512)⟩ :: hostTlps inst fuel (a + (512 - a % 512)) (bs.drop (512 - a % 512))

/-- A write by a unit acting for an instance: to stacked memory, or posted to the host (R333). A write to
the unmapped range reaches nothing. (DESIGN CHOICE, log entry 72) -/
def wrBytes (s : State) (inst : Inst) (a : Nat) (bs : List Byte) : State :=
  if isStacked a then wrStacked s a bs
  else if isHost a then { s with host.out := (hostTlps inst (bs.length / 512 + 2) (a - hostBase) bs).reverse ++ s.host.out }
  else s

/-- A little-endian number of `n` bytes written. -/
def wrNat (s : State) (inst : Inst) (a n v : Nat) : State := wrBytes s inst a (toBytes v n)

/-- `n` bytes of stacked memory zeroed, with their poison. -/
def zeroRange (s : State) (a n : Nat) : State :=
  { s with
    mem.cells := cellsZero s.mem.cells a n
    mem.poison := s.mem.poison.filter fun l => !(a ≤ l * 64 && l * 64 + 64 ≤ a + n) }

/-! ## Instances -/

/-- An instance; instance 0 is ENABLED at reset, the others DISABLED (R362). -/
def getInst (s : State) (n : Nat) : Instance :=
  tabGet { st := if n = 0 then .enabled else .disabled } s.insts n

def setInst (s : State) (n : Nat) (v : Instance) : State := { s with insts := tabPut s.insts n v }

/-- The user-memory ranges of an instance, as base and size in bytes (R357), with FRAMES. -/
def userRanges (s : State) (n : Nat) : List (Nat × Nat × Bool) :=
  (upFrom 0 8).map fun i =>
    let v := (regAct s (.inst n) (0x020 + 4 * i)).toNat
    (bits v 0 11 * 2 ^ 28, bits v 12 11 * 2 ^ 28, bit v 31)

/-- The host-window ranges of an instance (R357). -/
def hostRanges (s : State) (n : Nat) : List (Nat × Nat) :=
  (upFrom 0 4).map fun i =>
    ((regAct s (.inst n) (0x040 + 16 * i)).toNat / 2 ^ 12 * 2 ^ 12,
     (regAct s (.inst n) (0x048 + 16 * i)).toNat / 2 ^ 12 * 2 ^ 12)

/-- Whether `[a, a + n)` is covered by ranges; each round of `fuel` leaves one range behind. -/
def covers (rs : List (Nat × Nat)) : Nat → Nat → Nat → Bool
  | 0, _, n => n == 0
  | fuel + 1, a, n =>
    if n = 0 then true
    else match firstOf (fun (b, z) => b ≤ a && a < b + z) rs with
      | none => false
      | some (b, z) => covers rs fuel (min (a + n) (b + z)) (a + n - (b + z))

/-- Whether a range lies in an instance's user memory. -/
def inUser (s : State) (n : Nat) (a len : Nat) : Bool :=
  decide (a + len ≤ userEnd) && covers ((userRanges s n).map fun (b, z, _) => (b, z)) 9 a len

/-- Whether a range lies in an instance's memory (R330). -/
def inInst (s : State) (n : Nat) (a len : Nat) : Bool :=
  inUser s n a len || (decide (2 ^ 63 ≤ a) && decide (a + len ≤ 2 ^ 64) && covers (hostRanges s n) 5 a len)

/-- Whether a range lies in an instance's stacked memory. -/
def inInstStacked (s : State) (n : Nat) (a len : Nat) : Bool := inUser s n a len

/-- PRIO_MAX, ARB_PRIO, OPQ, LAUNCHQ and PINQ of an instance (R357). -/
def instPrioMax (s : State) (n : Nat) : Nat := regFld s (.inst n) 0x018 16 3
def instArbPrio (s : State) (n : Nat) : Nat :=
  let old := tabGet (0, 0) s.reg.prioOld (blkBase (.inst n) + 0x018)
  if tabHas s.reg.prioOld (blkBase (.inst n) + 0x018) && old.1 == s.now then bits old.2.toNat 20 3 else regFld s (.inst n) 0x018 20 3
def instOpq (s : State) (n : Nat) : Nat := regFld s (.inst n) 0x014 0 13
def instLaunchq (s : State) (n : Nat) : Nat := regFld s (.inst n) 0x014 16 11
def instPinq (s : State) (n : Nat) : Nat := regFld s (.inst n) 0x018 0 12
/-- SLICE of an instance (R317). -/
def instSlice (s : State) (n : Nat) : Nat := regFld s (.inst n) 0x01C 0 12

/-- Whether a thread ID lies in an instance's range (R357). -/
def tidInInst (s : State) (n t : Nat) : Bool :=
  let b := regFld s (.inst n) 0x010 0 11
  let c := regFld s (.inst n) 0x010 16 11
  decide (b ≤ t / 4096 ∧ t / 4096 < b + c)

/-- The instance that owns a cadence (R158). -/
def cadInst (s : State) (c : Nat) : Nat := regFld s (.cadence (c / 128)) (c % 128 * 0x20 + 0x10) 8 5

/-- A TILE_OWN record: bits 4:0 OWNER, 7 VALID, 15:8 GROUP; every tile is instance 0's at reset (R357). -/
def townOf (s : State) (t : Nat) : Nat := (tabGet (0x80 : W16) s.tile.town t).toNat

/-- Whether a logical tile is VALID and owned by an instance (R359). -/
def ownsTile (s : State) (n t : Nat) : Bool := bit (townOf s t) 7 && bits (townOf s t) 0 5 == n

/-- The step group of a logical tile (R360). -/
def tileGroup (s : State) (t : Nat) : Nat := bits (townOf s t) 8 8

/-- The physical tile, as Spire × 264 + tile, of a device tile (R14, R15). -/
def physTile (s : State) (t : Nat) : Nat :=
  let l := t % 256
  t / 256 * 264 + tabGet (66 * (l / 64) + l % 64) s.tile.tmap t

/-- The device tile that a physical tile serves, if any (R16). -/
def logTile (s : State) (p : Nat) : Option Nat :=
  firstOf (fun t => physTile s t == p) (upFrom (p / 264 * 256) 256)

def getTile (s : State) (p : Nat) : Tile := tabGet {} s.tile.tiles p
def setTile (s : State) (p : Nat) (v : Tile) : State := { s with tile.tiles := tabPut s.tile.tiles p v }

/-- The physical array of a logical array of a tile (R15). -/
def physArr (t : Tile) (l : Nat) : Nat := tabGet l t.amap l

/-- An array; CAL_DONE and SPARE come from the default record (R78). -/
def getArr (t : Tile) (a : Nat) : Arr := tabGet {} t.arrs a
def setArr (t : Tile) (a : Nat) (v : Arr) : Tile := { t with arrs := tabPut t.arrs a v }

/-- The logical array mapped to a physical array, if any. -/
def logArr (t : Tile) (a : Nat) : Option Nat := firstOf (fun l => physArr t l == a) (upFrom 0 64)

/-- A tile's own register block. -/
def tileBlk (p : Nat) : Blk := .tile (p / 264) (p % 264)

/-- Whether a power domain is usable (R405). -/
def domUsable (s : State) (d : Nat) : Bool := tabGet .off s.pwr.domains d == .usable

end Sys2Proof.Machine
end

