-- ==== Sys2Proof/Machine/Event.lean ====
section
/-! DEFINITION. Event records (R384 to R388, R484), event rings, interrupts (R354, R464) and recovery
windows. -/

namespace Sys2Proof.Machine

open Sys2Proof

/-- NS as an unsigned number (R143). -/
def nsNow (s : State) : Nat := s.time.belfry.ns.toNat

/-- Bytes padded with zeros to `n` bytes. -/
def padTo (n : Nat) (l : List Byte) : List Byte := (l ++ List.replicate n 0).take n

/-! ## Classes and actions (R384, R386) -/

def evCheckFail : Byte := 0x01
def evRecompute : Byte := 0x02
def evResidue : Byte := 0x03
def evArrayState : Byte := 0x04
def evLantern : Byte := 0x05
def evFenced : Byte := 0x06
def evRestored : Byte := 0x07
def evMemory : Byte := 0x08
def evLink : Byte := 0x09
def evFabric : Byte := 0x0A
def evTime : Byte := 0x0B
def evThread : Byte := 0x0C
def evOperation : Byte := 0x0D
def evHost : Byte := 0x0E
def evInstance : Byte := 0x0F
def evImage : Byte := 0x10
def evPower : Byte := 0x11

def actNone : Byte := 0x00
def actRetried : Byte := 0x01
def actSubstituted : Byte := 0x02
def actFenced : Byte := 0x03
def actSpared : Byte := 0x04
def actRestored : Byte := 0x05
def actEscalated : Byte := 0x06
def actRefused : Byte := 0x07

/-! ## Units (R385) -/

def unitOf (kind num : Nat) : UnitId := ⟨BitVec.ofNat 4 kind, BitVec.ofNat 28 num⟩
/-- A tile by Spire × 264 + physical tile. -/
def unitTile (p : Nat) : UnitId := unitOf 2 (p / 264 * 2 ^ 25 + p % 264 * 2 ^ 16)
def unitArray (p a : Nat) : UnitId := unitOf 3 (p / 264 * 2 ^ 25 + p % 264 * 2 ^ 16 + a)
def unitThread (t : Nat) : UnitId := unitOf 0xA t
def unitOp (e : Nat) : UnitId := unitOf 0xB e
def unitFn (n : Nat) : UnitId := unitOf 0xD n
/-- The word of a unit. -/
def unitWord (u : UnitId) : Nat := u.kind.toNat * 2 ^ 28 + u.num.toNat

/-! ## Interrupts -/

/-- An interrupt on a vector of a function (R354): sent, or kept in the Pending Bit Array while the vector
is masked. A vector beyond the function's table is never sent. (PRESUMED, log entry 10) -/
def raiseMsi (s : State) (fn : Inst) (v : Nat) : State :=
  if regFld s (.inst fn) 0x01C 16 12 ≤ v then s
  else if s.host.unmasked.contains ⟨fn, v⟩ then { s with host.msix := ⟨fn, v⟩ :: s.host.msix }
  else if s.host.msixPend.contains ⟨fn, v⟩ then s
  else { s with host.msixPend := ⟨fn, v⟩ :: s.host.msixPend }

/-- The interrupt of source IRQj of an instance (R464). -/
def raiseIrq (s : State) (n : Inst) (j : Nat) : State := raiseMsi s n (regFld s (.inst n) (0x0C0 + 4 * j) 0 11)

/-! ## Records -/

/-- The 32 bytes of a record (R384). -/
def eventBytes (e : Event) : List Byte :=
  toBytes e.ns.toNat 8 ++
    [e.cls, e.action, match e.inst with | some i => BitVec.ofNat 8 i | none => 0x80, 0] ++
    toBytes (unitWord e.unit) 4 ++ toBytes e.seq.toNat 4 ++ padTo 12 e.detail

/-- Whether the event ring of an instance is in use (R388). -/
def ringUsable (s : State) (n : Nat) : Bool :=
  let v := (regAct s (.inst n) 0x0A8).toNat
  let k := bits v 0 5
  bit v 8 && 6 ≤ k && k ≤ 20 && inUser s n (regAct s (.inst n) 0x0A0).toNat (0x40 + 32 * 2 ^ k)

/-- A record to the event ring of an instance (R388): the record, then PROD, then the interrupt; a full
ring counts LOST instead. (DESIGN CHOICE, log entry 33) -/
def ringRecord (s : State) (n : Inst) (e : Event) : State :=
  if ringUsable s n then
    let b := (regAct s (.inst n) 0x0A0).toNat
    let k := regFld s (.inst n) 0x0A8 0 5
    let prod := rdNat s b 8
    let cons := rdNat s (b + 8) 8
    if (prod + 2 ^ 64 - cons) % 2 ^ 64 = 2 ^ k then wrNat s n (b + 16) 8 (rdNat s (b + 16) 8 + 1)
    else
      let s := wrBytes s n (b + 0x40 + 32 * (prod % 2 ^ k)) (eventBytes e)
      let s := wrNat s n b 8 (prod + 1)
      raiseIrq s n 0
  else s

/-- The next sequence number: 0 is skipped (R384). -/
def nextSeq (q : W32) : W32 := if q = 0xFFFFFFFF#32 then 1 else q + 1

/-- An event record is issued (R384, R387, R388); instance 0's ring receives INSTANCE records as well (R369).
(DEDUCED, log entry 78) -/
def emit (s : State) (cls action : Byte) (inst : Option Inst) (unit : UnitId) (detail : List Byte) : State :=
  let seq := nextSeq s.flt.evtSeq
  let ns : W64 := if s.time.belfry.timeValid then s.time.belfry.ns else 0
  let e : Event := ⟨ns, cls, action, inst, unit, seq, padTo 12 detail⟩
  let s := { s with
    flt.evtSeq := seq
    flt.events := (e :: s.flt.events).take 65536 }
  let s := ringRecord s (inst.getD 0) e
  if cls = evInstance ∧ inst.getD 0 ≠ 0 then ringRecord s 0 e else s

/-- The handle of an operation, bits 43:0 (R222, R484): bits 11:0 the entry, 43:12 the sequence number. -/
def handle44 (e : Nat) (o : Op) : Nat := e + o.seq.toNat * 2 ^ 12

/-- ARRAY_STATE (R484). (DESIGN CHOICE, log entry 58) -/
def emitArray (s : State) (action : Byte) (p a old new reason : Nat) : State :=
  let t := getTile s p
  let l := match logArr t a with | some l => l | none => 0xFF
  emit s evArrayState action none (unitArray p a)
    (toBytes old 1 ++ toBytes new 1 ++ toBytes reason 1 ++ toBytes l 1 ++
      toBytes (satN 16 (getArr t a).failedCount) 2)

/-- The code of an array state (R74). -/
def arrCode : ArrState → Nat
  | .spare => 0 | .active => 1 | .draining => 2 | .writing => 3 | .verifying => 4 | .calibrating => 5
  | .fenced => 6

/-- FENCED (R484). -/
def emitFenced (s : State) (u : UnitId) (action : Byte) (cause : Nat) (src : Nat) : State :=
  emit s evFenced action none u (toBytes cause 4 ++ toBytes src 4)

/-- RESTORED (R484). -/
def emitRestored (s : State) (u new : UnitId) (action : Byte) : State :=
  emit s evRestored action none u (toBytes (unitWord new) 4)

/-- POWER (R484). -/
def emitPower (s : State) (action : Byte) (unit : UnitId) (ev a die sensor value : Nat) : State :=
  emit s evPower action none unit
    (toBytes ev 1 ++ toBytes a 1 ++ toBytes die 1 ++ toBytes sensor 1 ++ toBytes value 4)

/-- MEMORY (R484). -/
def emitMemory (s : State) (action : Byte) (inst : Option Inst) (a kind : Nat) : State :=
  emit s evMemory action inst (unitOf 8 (stackOf a))
    (toBytes (a / 64 * 64) 6 ++ toBytes kind 1 ++ toBytes (stackOf a) 1)

/-- The three THREAD records of an ended thread or a refused launch (R190, R178, R484). -/
def emitThread3 (s : State) (inst : Inst) (tid kind code : Nat) (pc addr tag : W64) : State :=
  let r (s : State) (part : Nat) (v : W64) : State :=
    emit s evThread (if kind = 2 then actRefused else actNone) (some inst) (unitThread tid)
      (toBytes part 1 ++ toBytes kind 1 ++ toBytes code 1 ++ [0] ++ toBytes v.toNat 8)
  r (r (r s 0 pc) 1 addr) 2 tag

/-! ## Recovery windows (R393, R394) -/

/-- The longest recovery window of a unit that has one, in units of 25 ps (R393). (DESIGN CHOICE, log entry 14) (DESIGN CHOICE, log entry 40) -/
def windowLength (kind : Nat) : Nat :=
  if kind = 3 then 360000000 else if kind = 2 then 24000000000 else if kind = 6 then 800000 else 212400000000

/-- A window opens for a unit, with the unit that replaces it. (DESIGN CHOICE, log entry 40) -/
def openWindow (s : State) (u : UnitId) (spare : Option UnitId) : State :=
  { s with flt.windows := s.flt.windows ++ [⟨u, s.now + windowLength u.kind.toNat, spare⟩] }

/-- The window of a unit ends. (DESIGN CHOICE, log entry 40) -/
def closeWindow (s : State) (u : UnitId) : State :=
  { s with flt.windows := s.flt.windows.filter fun w => w.unit != u }

/-! ## ALERT_N (R416, R471) -/

/-- The causes of ALERT_N (R416, R458 ALERT_CAUSE): throttle, sensor, P48 warning, short. -/
def alertCauses (s : State) : Nat :=
  b2n (decide (s.pwr.rP < 4096) || s.pwr.rT.any fun (_, r) => r < 4096) +
    2 * b2n (s.pwr.sensors.any fun (_, x) => x.mark != 0) + 4 * b2n s.pwr.p48warn + 8 * b2n (s.pwr.short != 0)

/-- ALERT_N follows its causes, and a Keep in recovery asserts it; a change raises IRQ3 of instance 0 (R464). -/
def updAlert (s : State) : State :=
  let a := alertCauses s != 0 || s.keep.recovery
  if a = s.pwr.alert then s else raiseIrq { s with pwr.alert := a } 0 3

end Sys2Proof.Machine
end

