-- ==== Sys2Proof/Machine/Thread.lean ====
section
/-! DEFINITION. Threads: registers, store buffers, waits, exceptions, ends and groups (R168 to R192). -/

namespace Sys2Proof.Machine

open Sys2Proof

/-- An add to the completion counter at an address (R184). It is a parameter of what ends a thread,
because a counter add may end a thread, whose end adds a counter. -/
abbrev AddFn := State → Nat → W64 → State

/-! ## Registers (R180) -/

def getThr (s : State) (t : Nat) : Thread := tabGet {} s.mbx.threads t
def setThr (s : State) (t : Nat) (v : Thread) : State := { s with mbx.threads := tabPut s.mbx.threads t v }

/-- g0 reads 0. -/
def gRd (t : Thread) (r : GReg) : W64 := if r = 0 then 0 else tabGet 0 t.g r.toNat

/-- A write to g0 is discarded. -/
def gWr (t : Thread) (r : GReg) (v : W64) : Thread :=
  if r = 0 then t else { t with g := tabPut t.g r.toNat v }

/-- p0 reads 1. -/
def pRd (t : Thread) (p : PReg) : Bool := p = 0 || t.pred.getLsbD p.toNat

/-- A write to p0 is discarded. -/
def pWr (t : Thread) (p : PReg) (v : Bool) : Thread :=
  if p = 0 then t
  else
    let m : Byte := BitVec.ofNat 8 (2 ^ p.toNat)
    { t with pred := if v then t.pred ||| m else t.pred &&& ~~~m }

/-- The guard of an instruction word (R196). -/
def guardOf (t : Thread) (g : Guard) : Bool := if g.neg then !pRd t g.pred else pRd t g.pred

/-! ## Orders of one cycle (R370 to R373) -/

/-- The rank of a master (R370): an instance, or the Keep. -/
def masterRank (inst : Option Inst) : Nat :=
  match inst with
  | none => 2
  | some i => if i = 0 then 1 else 0

/-- Whether two orders of one cycle, of different masters, contradict (R372): on the same bits with different effect.
(DESIGN CHOICE, log entry 73) -/
def contradicts (a b : Order) : Bool :=
  a.at_ == b.at_ && a.on == b.on && (a.rank != b.rank || a.inst != b.inst) &&
    (a.mask &&& b.mask) != 0 && (a.effect &&& a.mask &&& b.mask) != (b.effect &&& a.mask &&& b.mask)

/-- Whether an order wins over one that it contradicts (R372): a containing order wins over any other, and
otherwise the master of the higher rank. -/
def beats (a b : Order) : Bool := if a.contains == b.contains then decide (b.rank < a.rank) else a.contains

/-- The result code of an order that has lost to another of its cycle: NO_CHANGE of a TCTL (R219, R373), ZEROISE_ACTIVE
of a management command (R221). -/
def lostCode : OrderOn → W64
  | .mgmt => 4
  | _ => 2

/-- How the master of a losing order learns of it (R373): CONFLICT of its instance for a register write, the result in
its register for an instruction. -/
def loseOrder (s : State) (o : Order) : State :=
  match o.on, o.reply with
  | .reg _, _ => setInst s o.inst { getInst s o.inst with conflict := true }
  | on, some (t, d) => setThr s t.toNat (gWr (getThr s t.toNat) d (lostCode on))
  | _, none => s

/-- An order meets those given before it in its cycle (R372, R373): whether it takes effect. It loses to any order
that wins over it, and the orders that it wins over have lost. (DESIGN CHOICE, log entry 73) -/
def contend (s : State) (o : Order) : State × Bool :=
  let l := s.reg.orders.filter fun x => x.at_ == s.now
  let rivals := l.filter (contradicts o)
  if rivals.any fun r => beats r o then (loseOrder { s with reg.orders := l } o, false)
  else
    let lost := rivals.filter (beats o)
    let l := l.filter fun x => !lost.contains x
    (lost.foldl loseOrder { s with reg.orders := l ++ [o] }, true)

/-- The bits that orders of its cycle take from a write: those on which it loses (R372). -/
def bitsLost (s : State) (x : Order) : Nat :=
  (s.reg.orders.filter fun r => contradicts x r && beats r x).foldl (fun m r => m ||| (r.mask &&& x.mask &&& (r.effect ^^^ x.effect))) 0

/-- A write meets the orders of its cycle: the bits left to it. With bits lost, its instance's CONFLICT is set (R373). (DESIGN
CHOICE, log entry 73) -/
def contendBits (s : State) (x : Order) : State × Nat :=
  let lost := bitsLost s x
  let keep := x.mask ^^^ (x.mask &&& lost)
  let s := if lost = 0 then s else setInst s x.inst { getInst s x.inst with conflict := true }
  ((contend s { x with mask := keep }).1, keep)

/-! ## Cores (R171, R185) -/

def getCore (s : State) (c : Nat) : Core := tabGet {} s.mbx.cores c
def setCore (s : State) (c : Nat) (v : Core) : State := { s with mbx.cores := tabPut s.mbx.cores c v }

/-- The core of a thread that holds a hot slot. -/
def coreOf (t : Thread) : Option Nat := t.slot.map (· / 16)

/-- The threads in hot slots of a core. -/
def slotThreads (s : State) (c : Nat) : List (Nat × Thread) :=
  s.mbx.threads.filter fun (_, t) => t.slot.any (fun k => k / 16 == c)

/-- The bytes of a data-cache line after a store by its own core (the cache is write-through). -/
def patchLine (l : List Byte) (line : Nat) (e : StoreEntry) : List Byte :=
  (l.zip (upFrom (line * 64) 64)).map fun (b, a) =>
    if e.addr.toNat ≤ a ∧ a < e.addr.toNat + e.size then BitVec.ofNat 8 (e.data.toNat / 256 ^ (a - e.addr.toNat)) else b

/-- A store entry of core `c` becomes globally visible (R185); the core's own line is kept up to date. -/
def drainEntry (c : Nat) (s : State) (e : StoreEntry) : State :=
  let s := wrNat s (getThr s e.tid.toNat).inst e.addr.toNat e.size e.data.toNat
  let k := getCore s c
  let line := e.addr.toNat / 64
  if tabHas k.dcache line then
    setCore s c { k with dcache := tabPut k.dcache line (patchLine (tabGet [] k.dcache line) line e) }
  else s

/-- The entries up to and including the last of a thread: the buffer drains in retirement order. -/
def entriesOf (t : Nat) : List StoreEntry → List StoreEntry
  | [] => []
  | e :: r => if e.tid.toNat = t ∨ r.any (fun x => x.tid.toNat == t) then e :: entriesOf t r else []

/-- The stores of a thread, and those before them in its core's buffer, become globally visible: a release
(R185 rule 3). -/
def release (s : State) (t : Nat) : State :=
  match coreOf (getThr s t) with
  | none => s
  | some c =>
    let k := getCore s c
    let out := entriesOf t k.stores
    out.foldl (drainEntry c) (setCore s c { k with stores := k.stores.drop out.length })

/-- An acquire (R185 rule 4): the core's data cache is invalidated. -/
def acquire (s : State) (t : Nat) : State :=
  match coreOf (getThr s t) with
  | none => s
  | some c => setCore s c { getCore s c with dcache := [] }

/-- A thread's stores leave its core's buffer unwritten (R188, R367). -/
def discardStores (s : State) (t : Nat) : State :=
  match coreOf (getThr s t) with
  | none => s
  | some c => let k := getCore s c; setCore s c { k with stores := k.stores.filter fun e => e.tid.toNat != t }

/-! ## Slots and homes (R171, R172) -/

/-- Whether a core is in service: not fenced, and its Spire's Markhor domain (7n + 5) usable (R405, R375). -/
def coreInService (s : State) (c : Nat) : Bool :=
  !(getCore s c).fenced && domUsable s (7 * (c / 64) + 5) && !s.flt.spireFenced.getLsbD (c / 64)

/-- The cores of a Spire. -/
def spireCores (n : Nat) : List Nat := upFrom (n * 64) 64

/-- The number of free slots of a Spire's cores in service. -/
def freeSlots (s : State) (n : Nat) : Nat :=
  (((spireCores n).filter (coreInService s)).map fun c => 16 - (slotThreads s c).length).foldl (· + ·) 0

/-- Whether a Spire can run threads: not fenced, its Markhor domain usable, and a core in service (R178). -/
def spireInService (s : State) (n : Nat) : Bool := (spireCores n).any (coreInService s)

/-- The free slots of a Spire for which no READY thread waits. (DESIGN CHOICE, log entry 31) -/
def openSlots (s : State) (n : Nat) : Nat :=
  freeSlots s n - (s.mbx.threads.filter fun (_, t) => t.st == .ready && t.home.val == n).length

/-- The Spire in service with the most free slots, the lowest among equals (R172, R20). (DESIGN CHOICE, log entry 31) -/
def bestSpire (s : State) : Option Nat :=
  leastBy (fun a b => openSlots s b < openSlots s a) ((upFrom 0 4).filter (spireInService s))

/-- The home of a thread that is placed: a record that names no Spire leaves it open until then (R172). -/
def placedHome (s : State) (th : Thread) : Thread :=
  if th.homeOpen then
    match bestSpire s with
    | some n => { th with home := Fin.ofNat 4 n, homeOpen := false }
    | none => th
  else th

/-! ## States and queues (R170, R172) -/

/-- The next place in the order of becoming READY or of beginning to wait. -/
def stampThr (s : State) (t : Nat) (f : Thread → Thread) : State :=
  let th := getThr s t
  { setThr s t (f { th with order := s.mbx.orderNo + 1 }) with mbx.orderNo := s.mbx.orderNo + 1 }

/-- A thread becomes runnable: HOT in its slot, else READY (R170). -/
def makeRunnable (s : State) (t : Nat) : State :=
  if (getThr s t).slot.isSome then setThr s t { getThr s t with st := .hot, wait := .none }
  else stampThr s t fun th => { placedHome s th with st := .ready, wait := .none }

/-- A waiting thread becomes runnable, its limit over. -/
def wakeThr (s : State) (t : Nat) : State :=
  makeRunnable (setThr s t { getThr s t with limitAt := none }) t

/-- A thread begins to wait (R169, R170). -/
def beginWait (s : State) (t : Nat) (k : WaitKind) (arg val : W64) (d : GReg) (limit : Option Nat) : State :=
  stampThr s t fun th =>
    { th with st := .waiting, wait := k, waitArg := arg, waitVal := val, waitDest := d, limitAt := limit }

/-- Whether a thread is WAITING for a reason. A SUSPENDED thread keeps its wait and takes it up again when
it is resumed (R219). -/
def waitsOn (th : Thread) (k : WaitKind) : Bool := th.st == .waiting && th.wait == k

/-- A wait returns with a result (R246): the register is written, the instruction retires, an acquire is
made (R185 rule 7). The wait of START_TICK is no instruction (R179). -/
def returnWait (s : State) (t : Nat) (v : W64) : State :=
  let th := gWr (getThr s t) (getThr s t).waitDest v
  let th := if th.startTick then { th with startTick := false } else { th with pc := th.pc + 8, retired := th.retired + 1 }
  acquire (wakeThr (setThr s t th) t) t

/-- Retirement of an instruction that does not transfer control. -/
def retired (th : Thread) : Thread := { th with pc := th.pc + 8, retired := th.retired + 1 }

/-! ## Operation entries (R183) -/

def getOp (s : State) (e : Nat) : Op := tabGet {} s.op.table e
def setOp (s : State) (e : Nat) (o : Op) : State := { s with op.table := tabPut s.op.table e o }

/-- Entries an instance holds. -/
def opsUsed (s : State) (inst : Nat) : Nat := (s.op.table.filter fun (_, o) => o.used && o.inst.val == inst).length

/-- Entries of an instance that are kept for threads which waited for one, other than `t`. -/
def opsGranted (s : State) (inst t : Nat) : Nat :=
  (s.mbx.threads.filter fun (k, th) => th.granted && th.inst.val == inst && k != t).length

/-- The lowest free entry of the operation table. (DESIGN CHOICE, log entry 31) -/
def freeOpEntry (s : State) : Option Nat := firstOf (fun e => !(getOp s e).used) (upFrom 0 4096)

/-- Whether the instance has an entry for the thread (R183, R358). -/
def opAvailable (s : State) (inst t : Nat) : Bool :=
  decide (opsUsed s inst + opsGranted s inst t < instOpq s inst) && (freeOpEntry s).isSome

/-- Whether thread `a` is served before thread `b`: by priority, then by arrival (R183, R172). -/
def servedBefore (a b : Nat × Thread) : Bool :=
  b.2.prio.toNat < a.2.prio.toNat || (a.2.prio == b.2.prio && a.2.order < b.2.order)

/-- The threads of an instance that wait for an operation entry. -/
def opWaiters (s : State) (inst : Nat) : List (Nat × Thread) :=
  s.mbx.threads.filter fun (_, t) => t.inst.val == inst && waitsOn t .opEntry

/-- The first thread of an instance that waits for an entry becomes runnable, with the entry kept for it. -/
def serveOpWaiter (s : State) (inst : Nat) : State :=
  match leastBy servedBefore (opWaiters s inst) with
  | none => s
  | some (t, _) =>
    if opAvailable s inst t then
      let s := acquire (wakeThr s t) t
      setThr s t { getThr s t with granted := true }
    else s

/-- Every waiter for which the instance has an entry left is served, in order (R183). -/
def serveOpWaiters (s : State) (inst : Nat) : State :=
  (opWaiters s inst).foldl (fun s _ => serveOpWaiter s inst) s

/-! ## Ends (R175) -/

/-- The exit status (R175). -/
def exitStatus (kind code value : Nat) : Nat := kind + code * 2 ^ 8 + value * 2 ^ 32

/-- The entry of a thread's outstanding host load is left to no thread. -/
def dropHostReq (s : State) (t : Nat) : State :=
  match (getThr s t).hostLoad with
  | none => s
  | some h =>
    let r := tabGet (⟨0, 0, none, none⟩ : HostReq) s.host.reqs h.tag
    { s with host.reqs := tabPut s.host.reqs h.tag { r with tid := none } }

/-- A thread becomes FREE (R175 step 4): nothing of its context remains. -/
def freeThr (s : State) (t : Nat) : State :=
  let s := dropHostReq s t
  { s with
    mbx.threads := tabDel s.mbx.threads t
    op.table := tabMap (fun _ o => if o.tid.toNat = t then { o with orphan := true } else o) s.op.table }

/-- The members of a thread group (R182). -/
def members (s : State) (inst grp : Nat) : List (Nat × Thread) :=
  s.mbx.threads.filter fun (_, t) => t.st != .free && t.inst.val == inst && t.group.toNat == grp

def gstep (s : State) (inst grp : Nat) : W64 := tabGet 0 s.mbx.gsteps (inst * 256 + grp)

/-- Whether a physical tile is in the assignment of a group of an instance (R182, R360). -/
def tileInGroup (s : State) (p inst grp : Nat) : Bool :=
  match logTile s p with
  | none => false
  | some t => ownsTile s inst t && tileGroup s t == grp

/-- A step boundary (R182): the STEP-class values of the group's tiles apply, then the swings of R132 that
wait for it are released to the next pass boundary. (DEDUCED, log entry 29) -/
def stepBoundary (s : State) (inst grp : Nat) : State :=
  let s := s.reg.vals.pend.foldl
    (fun s (k, _) => match blkOf k with
      | some (.tile n t) => if tileInGroup s (n * 264 + t) inst grp then applyReg .step s (.tile n t) (k - blkBase (.tile n t)) else s
      | _ => s) s
  { s with
    tile.tiles := tabMap
      (fun p t => if t.rewrites.isEmpty then t
        else if tileInGroup s p inst grp then { t with rewrites := t.rewrites.map fun r => { r with go := r.go || (r.ready && r.c1) } }
        else t) s.tile.tiles }

/-- GSTEP advances while every member has passed it (R182); each advance is a step boundary. (DEDUCED, log entry 29) -/
def advanceGroup (inst grp : Nat) : Nat → State → State
  | 0, s => s
  | fuel + 1, s =>
    let n := gstep s inst grp
    let ms := members s inst grp
    if !ms.isEmpty && ms.all (fun (_, t) => n.toNat < t.step.toNat) then
      advanceGroup inst grp fuel
        (stepBoundary { s with mbx.gsteps := tabPut s.mbx.gsteps (inst * 256 + grp) (n + 1) } inst grp)
    else s

/-- GSTEP advances as far as its members let it (R182): never beyond the highest STEP. (DEDUCED, log entry 29) -/
def advanceAll (s : State) (inst grp : Nat) : State :=
  advanceGroup inst grp ((members s inst grp).foldl (fun m (_, t) => max m t.step.toNat) 0) s

/-- What the end of a member means for its group (R182): the last member whose STEP holds GSTEP back. -/
def leaveGroup (s : State) (inst grp : Nat) (step : W64) : State :=
  let n := gstep s inst grp
  if (members s inst grp).isEmpty && step.toNat ≤ n.toNat then
    stepBoundary { s with mbx.gsteps := tabPut s.mbx.gsteps (inst * 256 + grp) (n + 1) } inst grp
  else advanceAll s inst grp

/-- The end of a thread (R175): its stores drain, its exit status is written, DONE_CNT is added, and it
becomes FREE; an entry that was kept for it goes to the next that waits (R183). -/
def endThread (h : AddFn) (s : State) (t : Nat) (kind code value : Nat) : State :=
  let s := release s t
  let th := getThr s t
  let s := setThr s t { th with st := if kind = 0 then .exited else .aborted, wait := .none }
  let s := if th.statusAddr = 0 then s else wrNat s th.inst th.statusAddr.toNat 8 (exitStatus kind code value)
  let s := if th.doneCnt = 0 then s else h s th.doneCnt.toNat 1
  let s := if kind = 0 then s else emitThread3 s th.inst t kind code th.exc.pc th.exc.addr th.userTag
  let s := freeThr s t
  let s := if th.granted then serveOpWaiter s th.inst else s
  leaveGroup s th.inst th.group.toNat th.step

/-! ## Exceptions (R187 to R191) -/

/-- A thread ends by an exception or an abort (R189, R190). -/
def killThread (h : AddFn) (s : State) (t : Nat) (code : Nat) (addr : W64) (info : W32) : State :=
  let th := getThr s t
  let s := setThr s t { th with exc := { th.exc with pc := th.pc, addr := addr, info := info, code := BitVec.ofNat 8 code } }
  endThread h s t 1 code info.toNat

/-- Entry of the exception handler (R189, R188, R185 rule 7): the stores drain, the exception registers are
set, IN_HANDLER is set, and the thread continues at HANDLER. -/
def enterHandler (s : State) (t : Nat) (code : Nat) (addr : W64) (info : W32) : State :=
  let s := release s t
  let th := getThr s t
  let s := setThr s t { th with
    exc := { th.exc with pc := th.pc, addr := addr, info := info, code := BitVec.ofNat 8 code }
    inHandler := true
    pc := th.handler }
  let s := if (getThr s t).st = .hot then s else wakeThr s t
  acquire s t

/-- An exception is raised (R189): the handler is entered, or the thread is aborted when it has none or is
in it already. -/
def raiseExc (h : AddFn) (s : State) (t : Nat) (code : Nat) (addr : W64) (info : W32) : State :=
  let th := getThr s t
  if th.handler = 0 ∨ th.inHandler = true then killThread h s t code addr info
  else enterHandler s t code addr info

/-- Whether a thread can be aborted (R192). -/
def live (th : Thread) : Bool := th.st != .free && th.st != .exited && th.st != .aborted

/-- An abort (R192), with EXC_INFO naming who asked. -/
def abortThread (h : AddFn) (s : State) (t : Nat) (by_ : Nat) : State :=
  if live (getThr s t) then killThread h s t 0x09 0 (BitVec.ofNat 32 by_) else s

/-- An order to a thread (R372): suspend 1, resume 2, abort 4; a resume contains nothing. -/
def threadOrder (s : State) (t : Nat) (master : Option Inst) (effect : Nat) (reply : Option (Tid × GReg)) : Order :=
  { at_ := s.now, rank := masterRank master, inst := master.getD 0, on := .thread t, mask := 7, effect := effect
    contains := effect != 2, reply := reply, status := (getThr s t).statusAddr }

/-- The exit status of a thread that another abort of the same cycle has ended: the Keep's abort is the one recorded
(R192, R175). -/
def keepRecords (s : State) (t : Nat) : State :=
  s.reg.orders.foldl
    (fun s o => if o.at_ = s.now ∧ o.on = .thread t ∧ o.effect = 4 ∧ o.rank ≠ 2 ∧ o.status ≠ 0 then
      wrNat s o.inst o.status.toNat 8 (exitStatus 1 0x09 1) else s) s

/-! ## Completion counters (R184) -/

/-- The threads that wait on a counter. -/
def counterWaiters (s : State) (a : Nat) : List (Nat × Thread) :=
  s.mbx.threads.filter fun (_, t) => waitsOn t .counter && t.waitArg.toNat == a

/-- Waiters on a counter that its watch table holds return when the counter has reached their target. -/
def wakeCounter (s : State) (a : Nat) : State :=
  let v := rdNat s a 8
  (counterWaiters s a).foldl
    (fun s (t, th) => if th.watched && th.waitVal.toNat ≤ v then returnWait s t (BitVec.ofNat 64 v) else s) s

/-- Waiters on a counter leave their wait and raise MEM_ERR (R335, R336). -/
def failCounter (h : AddFn) (s : State) (a : Nat) : State :=
  (counterWaiters s a).foldl (fun s (t, _) => raiseExc h s t 0x05 (BitVec.ofNat 64 a) (BitVec.ofNat 32 (stackOf a))) s

/-- An add to a completion counter: atomic at the memory controller, waking its waiters (R184); on a
poisoned line or a fenced stack it is discarded (R335, R336). -/
def counterAddWith (h : AddFn) (s : State) (a : Nat) (v : W64) : State :=
  if lineBad s a then
    failCounter h (if (getStack s (stackOf a)).fenced then s else emitMemory s actNone none a 4) a
  else wakeCounter (wrStacked s a (toBytes (rdNat s a 8 + v.toNat) 8)) a

/-- Counter adds to a depth: each thread that an add ends adds one counter more. -/
def counterAddN : Nat → AddFn
  | 0 => fun s _ _ => s
  | n + 1 => counterAddWith (counterAddN n)

/-- An add to a completion counter (R184). A thread ends once, so the depth covers every chain of adds. -/
def counterAdd (s : State) (a : Nat) (v : W64) : State := counterAddN (s.mbx.threads.length + 1) s a v

/-- A thread ends by EXIT (R211). -/
def exitThread (s : State) (t : Nat) (value : Nat) : State := endThread counterAdd s t 0 0 value

/-- An abort of a thread ordered by a master, an instance or the Keep (R192, R370). -/
def orderAbort (s : State) (t : Nat) (master : Option Inst) (by_ : Nat) : State :=
  if live (getThr s t) then
    let (s, wins) := contend s (threadOrder s t master 4 none)
    if wins then abortThread counterAdd s t by_ else s
  else if master.isNone then keepRecords s t else s

/-- An exception of a thread (R189). -/
def except (s : State) (t : Nat) (code : Nat) (addr : W64) (info : W32) : State := raiseExc counterAdd s t code addr info

end Sys2Proof.Machine
end

