-- ==== Sys2Proof/Machine/Flags.lean ====
section
/-! DEFINITION. The arithmetic flags of R42 in c8, and the count of bits. -/

namespace Sys2Proof.Machine

open Sys2Proof

/-- Flags are ORed into c8 (R42, R181, R204). -/
def orFlags (t : Thread) (f : BitVec 4) : Thread := { t with aflags := t.aflags ||| f }

/-- The number of leading zeros of a 64-bit value (R201). -/
def clz64 (v : W64) : Nat := if v.toNat = 0 then 64 else 63 - Nat.log2 v.toNat

/-- The number of trailing zeros among the `n` bits that are left. -/
def ctzFrom : Nat → Nat → Nat
  | 0, _ => 0
  | n + 1, v => if v % 2 = 1 then 0 else ctzFrom n (v / 2) + 1

/-- The number of one bits among `n` bits. -/
def popFrom : Nat → Nat → Nat
  | 0, _ => 0
  | n + 1, v => v % 2 + popFrom n (v / 2)

/-- Signed or unsigned quotient rounded towards zero; all ones for a divisor of 0; −2^63 / −1 = −2^63 (R202). -/
def quot (uns : Bool) (a b : W64) : W64 :=
  if b = 0 then -1 else if uns then a / b else a.sdiv b

/-- Remainder; the dividend for a divisor of 0 (R202). -/
def remd (uns : Bool) (a b : W64) : W64 :=
  if b = 0 then a else if uns then a % b else a.srem b

/-- Bits 127:64 of the signed or unsigned product (R201). -/
def mulHigh (uns : Bool) (a b : W64) : W64 :=
  if uns then BitVec.ofNat 64 (a.toNat * b.toNat / 2 ^ 64) else BitVec.ofInt 64 (a.toInt * b.toInt / 2 ^ 64)

end Sys2Proof.Machine
end

