-- ==== Sys2Proof/Machine/Operands.lean ====
section
/-! DEFINITION. The operand forms of MBX instructions (R193 to R197) and the checks that every instruction
goes through in the order of R195: fetch, decode, privilege, guard. -/

namespace Sys2Proof.Machine

open Sys2Proof

/-- The second operand of the forms R and I (R201): a register, or the sign-extended IMM24. -/
def srcVal (t : Thread) : Src → W64
  | .reg r => gRd t r
  | .imm v => v.signExtend 64

/-- The SRCB field of a word with that second operand. -/
def srcReg : Src → Nat
  | .reg r => r.toNat
  | .imm _ => 0

/-- Bits 63:32 of an instruction word (R193), which EXC_INFO holds for ILLEGAL (R194). -/
def upperWord (op : Nat) (g : Guard) (d a b fmt : Nat) : W32 :=
  BitVec.ofNat 32 (op * 2 ^ 26 + g.pred.toNat * 2 ^ 23 + b2n g.neg * 2 ^ 22 + d * 2 ^ 16 + a * 2 ^ 10 + b * 2 ^ 4 + fmt)

/-- Whether a thread of a slot is ready to issue (R170): HOT, with no load from the host still to be answered. -/
def issuable (th : Thread) : Bool := th.st == .hot && th.hostLoad.isNone

/-- The slots of a core whose threads it selects from (R171): of the highest priority among those ready to issue. -/
def topSlots (s : State) (c : Nat) : List Nat :=
  let l := (slotThreads s c).filter fun (_, th) => issuable th
  let p := l.foldl (fun m (_, th) => max m th.prio.toNat) 0
  (l.filter fun (_, th) => th.prio.toNat == p).map fun (_, th) => th.slot.getD 0 % 16

/-- The slot that a core selects (R171): of the highest priority, in turn after the one it selected last. -/
def nextSlot (s : State) (c : Nat) : Option Nat :=
  let last := match (getCore s c).turn with | some (k, _) => k | none => 15
  firstOf (fun k => (topSlots s c).contains k) ((upFrom (last + 1) 16).map (· % 16))

/-- Whether a core issues from a slot (R171): it selects the slot, or it issues the second of two instructions from
the slot it has selected. (DESIGN CHOICE, log entry 31) -/
def selects (s : State) (c k : Nat) : Bool :=
  nextSlot s c == some k || (getCore s c).turn == some (k, 1) && (topSlots s c).contains k

/-- Whether a thread can issue (R170, R171): ready to issue, in a slot that its core, which is in service, selects. -/
def canIssue (s : State) (t : Nat) : Bool :=
  let th := getThr s t
  issuable th &&
    match th.slot with
    | some k => coreInService s (k / 16) && selects s (k / 16) (k % 16)
    | none => false

/-- A core has issued from the slot of a thread (R171): the second instruction in a row, or the first of a turn. -/
def tookTurn (s : State) (t : Nat) : State :=
  match (getThr s t).slot with
  | none => s
  | some k =>
    let c := getCore s (k / 16)
    setCore s (k / 16) { c with turn := some (k % 16, if c.turn = some (k % 16, 1) then 2 else 1) }

/-- Whether the core of a thread holds a line in its instruction cache. (DESIGN CHOICE, log entry 39) -/
def icacheHas (s : State) (t : Nat) (a : Nat) : Bool :=
  match coreOf (getThr s t) with
  | some c => (getCore s c).icache.contains (a / 64)
  | none => false

/-- The first step of R195: the fetch. The exception's code, address and detail, if any. A line that the
instruction cache still holds is not read from memory. (DEDUCED, log entry 30) -/
def fetchFault (s : State) (t : Nat) : Option (Nat × W64 × W32) :=
  let th := getThr s t
  if th.pc.toNat % 8 ≠ 0 then some (0x03, th.pc, 8)
  else if !inInst s th.inst th.pc.toNat 8 then some (0x04, th.pc, 2)
  else if lineBad s th.pc.toNat && !(icacheHas s t th.pc.toNat && Config.cacheHolds s.free) then
    some (0x05, th.pc, BitVec.ofNat 32 (stackOf th.pc.toNat))
  else none

/-- A fetch leaves its line in the instruction cache, and its slot has had its turn. -/
def fetched (s : State) (t : Nat) : State :=
  let s := tookTurn s t
  let s := if lineBad s (getThr s t).pc.toNat then { s with free := s.free + 1 } else s
  match coreOf (getThr s t) with
  | none => s
  | some c =>
    let k := getCore s c
    let l := (getThr s t).pc.toNat / 64
    if k.icache.contains l then s else setCore s c { k with icache := l :: k.icache }

/-- The privilege an instruction needs (R216): none, PRIV, or PRIV in instance 0. -/
inductive Priv where
  | none | instance_ | device
  deriving DecidableEq, Repr

/-- Whether a thread has a privilege. -/
def hasPriv (th : Thread) : Priv → Bool
  | .none => true
  | .instance_ => th.priv
  | .device => th.priv && th.inst == 0

/-- An instruction word of a thread goes through the checks of R195 steps 1 to 4, and then has its effect.
`illegal` says that the word is undefined under R194. -/
def issueWord (s : State) (t : Tid) (g : Guard) (op : Nat) (upper : W32) (illegal : Bool) (p : Priv)
    (body : State → State) : State :=
  let n := t.toNat
  if canIssue s n then
    match fetchFault s n with
    | some (code, addr, info) => except (tookTurn s n) n code addr info
    | none =>
      let s := fetched s n
      if illegal then except s n 0x01 0 upper
      else if !hasPriv (getThr s n) p then except s n 0x02 0 (BitVec.ofNat 32 op)
      else if guardOf (getThr s n) g then body s
      else setThr s n (retired (getThr s n))
  else s

/-- A word that is neither undefined nor privileged. -/
def issuePlain (s : State) (t : Tid) (g : Guard) (op : Nat) (upper : W32) (body : State → State) : State :=
  issueWord s t g op upper false .none body

/-- The thread retires with a g register written. -/
def retireG (s : State) (t : Tid) (d : GReg) (v : W64) : State :=
  setThr s t.toNat (retired (gWr (getThr s t.toNat) d v))

/-- The thread retires with a p register written. -/
def retireP (s : State) (t : Tid) (p : PReg) (v : Bool) : State :=
  setThr s t.toNat (retired (pWr (getThr s t.toNat) p v))

/-- The thread retires. -/
def retire (s : State) (t : Tid) : State := setThr s t.toNat (retired (getThr s t.toNat))

/-- An instruction that writes a g register from the thread's registers (R201). -/
def issueG (s : State) (t : Tid) (g : Guard) (op : Nat) (d a : GReg) (b : Src) (f : Thread → W64) : State :=
  issuePlain s t g op (upperWord op g d.toNat a.toNat (srcReg b) 0) fun s => retireG s t d (f (getThr s t.toNat))

/-- An instruction that writes a p register from the thread's registers (R203). -/
def issueP (s : State) (t : Tid) (g : Guard) (op : Nat) (p : PReg) (upper : W32) (f : Thread → Bool) : State :=
  issuePlain s t g op upper fun s => retireP s t p (f (getThr s t.toNat))

/-- A scalar float instruction (R204): bits 31:0 of its sources, its flags ORed into c8 at retirement. -/
def issueF (s : State) (t : Tid) (g : Guard) (op : Nat) (d a b : GReg) (f : W32 → W32 → Fv) : State :=
  issuePlain s t g op (upperWord op g d.toNat a.toNat b.toNat 0xF) fun s =>
    let th := getThr s t.toNat
    let r := f ((gRd th a).setWidth 32) ((gRd th b).setWidth 32)
    setThr s t.toNat (retired (orFlags (gWr th d (r.v.setWidth 64)) r.f))

/-- The exceptions that a data access of a thread meets, in the order of R206. -/
def accessFault (s : State) (t : Nat) (a size info : Nat) : Option (Nat × W64 × W32) :=
  if a % size ≠ 0 then some (0x03, BitVec.ofNat 64 a, BitVec.ofNat 32 size)
  else if !inInst s (getThr s t).inst a size then some (0x04, BitVec.ofNat 64 a, BitVec.ofNat 32 info)
  else none

/-- The exceptions of a control transfer to an address (R210). -/
def targetFault (s : State) (t : Nat) (a : W64) : Option (Nat × W64 × W32) :=
  if a.toNat % 8 ≠ 0 then some (0x03, a, 8)
  else if !inInst s (getThr s t).inst a.toNat 8 then some (0x04, a, 2)
  else none

/-- A step goes on unless an exception was found. -/
def orExcept (s : State) (t : Nat) (f : Option (Nat × W64 × W32)) (body : State) : State :=
  match f with
  | some (code, addr, info) => except s t code addr info
  | none => body

end Sys2Proof.Machine
end

