-- ==== Sys2Proof/Machine/ScalarInt.lean ====
section
/-! DEFINITION. The scalar integer and predicate instructions (R201 to R203). -/

namespace Sys2Proof.Machine

open Sys2Proof

/-- The outcome of every meaning that cannot stop. -/
abbrev Out := Host.Outcome State Fault Refusal

def execAdd (t : Tid) (g : Guard) (d a : GReg) (b : Src) (s : State) : Out :=
  .next (issueG s t g 0x00 d a b fun th => gRd th a + srcVal th b)

def execSub (t : Tid) (g : Guard) (d a : GReg) (b : Src) (s : State) : Out :=
  .next (issueG s t g 0x01 d a b fun th => gRd th a - srcVal th b)

def execMul (t : Tid) (g : Guard) (d a : GReg) (b : Src) (s : State) : Out :=
  .next (issueG s t g 0x02 d a b fun th => gRd th a * srcVal th b)

def execMulh (t : Tid) (g : Guard) (uns : Bool) (d a b : GReg) (s : State) : Out :=
  .next (issueG s t g 0x03 d a (.reg b) fun th => mulHigh uns (gRd th a) (gRd th b))

def execDiv (t : Tid) (g : Guard) (uns : Bool) (d a b : GReg) (s : State) : Out :=
  .next (issueG s t g 0x04 d a (.reg b) fun th => quot uns (gRd th a) (gRd th b))

def execRem (t : Tid) (g : Guard) (uns : Bool) (d a b : GReg) (s : State) : Out :=
  .next (issueG s t g 0x05 d a (.reg b) fun th => remd uns (gRd th a) (gRd th b))

def execAnd (t : Tid) (g : Guard) (d a : GReg) (b : Src) (s : State) : Out :=
  .next (issueG s t g 0x06 d a b fun th => gRd th a &&& srcVal th b)

def execOr (t : Tid) (g : Guard) (d a : GReg) (b : Src) (s : State) : Out :=
  .next (issueG s t g 0x07 d a b fun th => gRd th a ||| srcVal th b)

def execXor (t : Tid) (g : Guard) (d a : GReg) (b : Src) (s : State) : Out :=
  .next (issueG s t g 0x08 d a b fun th => gRd th a ^^^ srcVal th b)

/-- The shift amount is bits 5:0 of the operand (R201). -/
def shamt (v : W64) : Nat := v.toNat % 64

def execShl (t : Tid) (g : Guard) (d a : GReg) (b : Src) (s : State) : Out :=
  .next (issueG s t g 0x09 d a b fun th => gRd th a <<< shamt (srcVal th b))

def execShr (t : Tid) (g : Guard) (d a : GReg) (b : Src) (s : State) : Out :=
  .next (issueG s t g 0x0A d a b fun th => gRd th a >>> shamt (srcVal th b))

def execSha (t : Tid) (g : Guard) (d a : GReg) (b : Src) (s : State) : Out :=
  .next (issueG s t g 0x0B d a b fun th => (gRd th a).sshiftRight (shamt (srcVal th b)))

def execMin (t : Tid) (g : Guard) (d a b : GReg) (s : State) : Out :=
  .next (issueG s t g 0x0C d a (.reg b) fun th => if (gRd th a).slt (gRd th b) then gRd th a else gRd th b)

def execMax (t : Tid) (g : Guard) (d a b : GReg) (s : State) : Out :=
  .next (issueG s t g 0x0C d a (.reg b) fun th => if (gRd th a).slt (gRd th b) then gRd th b else gRd th a)

def execMinu (t : Tid) (g : Guard) (d a b : GReg) (s : State) : Out :=
  .next (issueG s t g 0x0C d a (.reg b) fun th => if (gRd th a).ult (gRd th b) then gRd th a else gRd th b)

def execMaxu (t : Tid) (g : Guard) (d a b : GReg) (s : State) : Out :=
  .next (issueG s t g 0x0C d a (.reg b) fun th => if (gRd th a).ult (gRd th b) then gRd th b else gRd th a)

def execSel (t : Tid) (g : Guard) (d a b : GReg) (p : PReg) (s : State) : Out :=
  .next (issueG s t g 0x0C d a (.reg b) fun th => if pRd th p then gRd th a else gRd th b)

def execClz (t : Tid) (g : Guard) (d a : GReg) (s : State) : Out :=
  .next (issueG s t g 0x0C d a (.reg 0) fun th => BitVec.ofNat 64 (clz64 (gRd th a)))

def execCtz (t : Tid) (g : Guard) (d a : GReg) (s : State) : Out :=
  .next (issueG s t g 0x0C d a (.reg 0) fun th => BitVec.ofNat 64 (ctzFrom 64 (gRd th a).toNat))

def execPopc (t : Tid) (g : Guard) (d a : GReg) (s : State) : Out :=
  .next (issueG s t g 0x0C d a (.reg 0) fun th => BitVec.ofNat 64 (popFrom 64 (gRd th a).toNat))

/-- ADDPC (R201): the address of the instruction plus IMM24 × 8. -/
def execAddpc (t : Tid) (g : Guard) (d : GReg) (imm : BitVec 24) (s : State) : Out :=
  .next (issueG s t g 0x0C d 0 (.imm imm) fun th => th.pc + imm.signExtend 64 * 8)

/-- The upper word of a compare: DEST names a p register. -/
def cmpWord (g : Guard) (p : PReg) (a : GReg) (b : Src) : W32 := upperWord 0x0D g p.toNat a.toNat (srcReg b) 0

def execCmpEq (t : Tid) (g : Guard) (p : PReg) (a : GReg) (b : Src) (s : State) : Out :=
  .next (issueP s t g 0x0D p (cmpWord g p a b) fun th => gRd th a == srcVal th b)

def execCmpNe (t : Tid) (g : Guard) (p : PReg) (a : GReg) (b : Src) (s : State) : Out :=
  .next (issueP s t g 0x0D p (cmpWord g p a b) fun th => gRd th a != srcVal th b)

def execCmpLt (t : Tid) (g : Guard) (p : PReg) (a : GReg) (b : Src) (s : State) : Out :=
  .next (issueP s t g 0x0D p (cmpWord g p a b) fun th => (gRd th a).slt (srcVal th b))

def execCmpLe (t : Tid) (g : Guard) (p : PReg) (a : GReg) (b : Src) (s : State) : Out :=
  .next (issueP s t g 0x0D p (cmpWord g p a b) fun th => (gRd th a).sle (srcVal th b))

def execCmpLtu (t : Tid) (g : Guard) (p : PReg) (a : GReg) (b : Src) (s : State) : Out :=
  .next (issueP s t g 0x0D p (cmpWord g p a b) fun th => (gRd th a).ult (srcVal th b))

def execCmpLeu (t : Tid) (g : Guard) (p : PReg) (a : GReg) (b : Src) (s : State) : Out :=
  .next (issueP s t g 0x0D p (cmpWord g p a b) fun th => (gRd th a).ule (srcVal th b))

/-- The upper word of a predicate operation: DEST, SRCA and SRCB name p registers (R203). -/
def plogWord (g : Guard) (p a b : PReg) : W32 := upperWord 0x0D g p.toNat a.toNat b.toNat 0

def execPand (t : Tid) (g : Guard) (p a b : PReg) (s : State) : Out :=
  .next (issueP s t g 0x0D p (plogWord g p a b) fun th => pRd th a && pRd th b)

def execPor (t : Tid) (g : Guard) (p a b : PReg) (s : State) : Out :=
  .next (issueP s t g 0x0D p (plogWord g p a b) fun th => pRd th a || pRd th b)

def execPxor (t : Tid) (g : Guard) (p a b : PReg) (s : State) : Out :=
  .next (issueP s t g 0x0D p (plogWord g p a b) fun th => pRd th a != pRd th b)

def execPandn (t : Tid) (g : Guard) (p a b : PReg) (s : State) : Out :=
  .next (issueP s t g 0x0D p (plogWord g p a b) fun th => pRd th a && !pRd th b)

def execMoviL (t : Tid) (g : Guard) (d : GReg) (imm : W32) (s : State) : Out :=
  .next (issueG s t g 0x0E d 0 (.reg 0) fun _ => imm.signExtend 64)

/-- MOVI.H (R201): bits 63:32 become IMM32 and bits 31:0 stay. -/
def execMoviH (t : Tid) (g : Guard) (d : GReg) (imm : W32) (s : State) : Out :=
  .next (issueG s t g 0x0F d 0 (.reg 0) fun th => imm ++ (gRd th d).setWidth 32)

end Sys2Proof.Machine
end

