-- ==== Sys2Proof/Machine/MemInstr.lean ====
section
/-! DEFINITION. The memory instructions and fences (R206 to R209) over the store buffers and data caches of
R185. -/

namespace Sys2Proof.Machine

open Sys2Proof

/-- The access size of a SIZE field (R197). -/
def sizeOf2 (z : BitVec 2) : Nat := 2 ^ z.toNat

/-- The address of form M (R206). -/
def addrM (th : Thread) (a : GReg) (off : BitVec 24) : W64 := gRd th a + off.signExtend 64

/-- The bytes of a load with a thread's own buffered stores laid over them (R185 rule 1). -/
def forward (k : Core) (t a : Nat) (l : List Byte) : List Byte :=
  k.stores.foldl
    (fun l e => if e.tid.toNat = t then
      (l.zip (upFrom a l.length)).map fun (b, x) =>
        if e.addr.toNat ≤ x ∧ x < e.addr.toNat + e.size then BitVec.ofNat 8 (e.data.toNat / 256 ^ (x - e.addr.toNat)) else b
      else l) l

/-- A loaded number of `n` bytes, sign-extended when asked (R206). -/
def extend (n : Nat) (sx : Bool) (v : Nat) : W64 :=
  if sx then BitVec.ofNat 64 (ofSigned 64 (toSigned (8 * n) v)) else BitVec.ofNat 64 v

/-- Whether core `c` serves an access to a line from its data cache: it holds the line, and has not evicted
it since (R185 rule 2). (DESIGN CHOICE, log entry 39) -/
def cached (s : State) (c a : Nat) : Bool := tabHas (getCore s c).dcache (a / 64) && Config.cacheHolds s.free

/-- A line is filled into a core's data cache. (DESIGN CHOICE, log entry 39) -/
def fillLine (s : State) (c a : Nat) : State :=
  let k := getCore s c
  setCore s c { k with dcache := tabPut k.dcache (a / 64) (rdBytes s (a / 64 * 64) 64) }

/-- A load from stacked memory: through the data cache of the core (R185). -/
def loadStacked (s : State) (t : Tid) (d : GReg) (a n : Nat) (sx : Bool) : State :=
  match coreOf (getThr s t.toNat) with
  | none => s
  | some c =>
    let hit := cached s c a
    let asked := tabHas (getCore s c).dcache (a / 64)
    if !hit && lineBad s a then except s t.toNat 0x05 (BitVec.ofNat 64 a) (BitVec.ofNat 32 (stackOf a))
    else
      let s := if hit then s else fillLine s c a
      let s := if asked then { s with free := s.free + 1 } else s
      let line := tabGet [] (getCore s c).dcache (a / 64)
      let v := ofBytes (forward (getCore s c) t.toNat a ((line.drop (a % 64)).take n))
      retireG s t d (extend n sx v)

/-- The lowest request tag that is not in use (R350). (DESIGN CHOICE, log entry 31) -/
def freeTag (s : State) : Option Nat := firstOf (fun i => !tabHas s.host.reqs i) (upFrom 0 1024)

/-- A load from the host window (R185 rule 10, R333): the thread's stores drain, and a request goes out;
the thread issues nothing until it is answered. Without a free tag the load waits. -/
def loadHost (s : State) (t : Tid) (d : GReg) (a n : Nat) (sx : Bool) : State :=
  match freeTag s with
  | none => s
  | some tag =>
    let s := release s t.toNat
    let th := getThr s t.toNat
    let s := { s with host.reqs := tabPut s.host.reqs tag ⟨th.inst, (getInst s th.inst).gen, some t, none⟩ }
    setThr s t.toNat { th with hostLoad := some ⟨tag, d, n, sx, BitVec.ofNat 64 a⟩ }

/-- LD (R206). SX with SIZE 0b11 is undefined. -/
def execLd (t : Tid) (g : Guard) (d a : GReg) (size : BitVec 2) (sx : Bool) (off : BitVec 24) (s : State) : Out :=
  .next (issueWord s t g 0x18 (upperWord 0x18 g d.toNat a.toNat 0 0) (sx && size == 3#2) .none fun s =>
    let x := (addrM (getThr s t.toNat) a off).toNat
    let n := sizeOf2 size
    orExcept s t.toNat (accessFault s t.toNat x n 0)
      (if isHost x then loadHost s t d x n sx else loadStacked s t d x n sx))

/-- The oldest entry of a core's store buffer becomes globally visible. -/
def drainOne (s : State) (c : Nat) : State :=
  match (getCore s c).stores with
  | [] => s
  | e :: r => drainEntry c (setCore s c { getCore s c with stores := r }) e

/-- A store retires into the store buffer of 32 entries; a full buffer drains its oldest entry first. -/
def bufferStore (s : State) (c : Nat) (e : StoreEntry) : State :=
  let s := if (getCore s c).stores.length < 32 then s else drainOne s c
  setCore s c { getCore s c with stores := (getCore s c).stores ++ [e] }

/-- ST (R206, R185). -/
def execSt (t : Tid) (g : Guard) (a b : GReg) (size : BitVec 2) (off : BitVec 24) (s : State) : Out :=
  .next (issuePlain s t g 0x19 (upperWord 0x19 g 0 a.toNat b.toNat 0) fun s =>
    let th := getThr s t.toNat
    let x := addrM th a off
    orExcept s t.toNat (accessFault s t.toNat x.toNat (sizeOf2 size) 1)
      (match coreOf th with
       | none => s
       | some c => retire (bufferStore s c ⟨t, x, sizeOf2 size, gRd th b⟩) t))

/-- PREFETCH (R207): a fill of the line, or nothing. -/
def execPrefetch (t : Tid) (g : Guard) (a : GReg) (off : BitVec 24) (s : State) : Out :=
  .next (issuePlain s t g 0x1C (upperWord 0x1C g 0 a.toNat 0 0) fun s =>
    let x := (addrM (getThr s t.toNat) a off).toNat
    let s := match coreOf (getThr s t.toNat) with
      | none => s
      | some c => if inInst s (getThr s t.toNat).inst x 1 && isStacked x && !lineBad s x then fillLine s c x else s
    retire s t)

/-- The entries up to and including the last of a thread that touches a word. -/
def throughWord (t a : Nat) : List StoreEntry → List StoreEntry
  | [] => []
  | e :: r =>
    let hit (x : StoreEntry) := x.tid.toNat == t && x.addr.toNat < a + 8 && a < x.addr.toNat + x.size
    if hit e || r.any hit then e :: throughWord t a r else []

/-- The buffered stores of a thread to a word drain (R208, R185 rule 1). -/
def drainWord (s : State) (t a : Nat) : State :=
  match coreOf (getThr s t) with
  | none => s
  | some c =>
    let k := getCore s c
    let out := throughWord t a k.stores
    out.foldl (drainEntry c) (setCore s c { k with stores := k.stores.drop out.length })

/-- The exceptions of an AMO (R208). -/
def amoFault (s : State) (t a : Nat) : Option (Nat × W64 × W32) :=
  let x := BitVec.ofNat 64 a
  if a % 8 ≠ 0 then some (0x03, x, 8)
  else if !inInstStacked s (getThr s t).inst a 8 then some (0x04, x, 1)
  else if lineBad s a then some (0x05, x, BitVec.ofNat 32 (stackOf a))
  else none

/-- A data-cache line of the issuing core follows a word that its own atomic has written (R185 rule 1). -/
def patchAmo (s : State) (t : Tid) (a : Nat) (v : W64) : State :=
  match coreOf (getThr s t.toNat) with
  | none => s
  | some c =>
    let k := getCore s c
    if tabHas k.dcache (a / 64) then
      setCore s c { k with dcache := tabPut k.dcache (a / 64) (patchLine (tabGet [] k.dcache (a / 64)) (a / 64) ⟨t, BitVec.ofNat 64 a, 8, v⟩) }
    else s

/-- An atomic read-modify-write at the memory controller (R208); `f` gives the new word from the old one,
g[B] and g[DEST]. -/
def issueAmo (s : State) (t : Tid) (g : Guard) (d a b : GReg) (rel : Bool) (f : W64 → W64 → W64 → W64) : State :=
  issuePlain s t g 0x1A (upperWord 0x1A g d.toNat a.toNat b.toNat 0) fun s =>
    let x := (gRd (getThr s t.toNat) a).toNat
    orExcept s t.toNat (amoFault s t.toNat x)
      (let s := if rel then release s t.toNat else drainWord s t.toNat x
       let th := getThr s t.toNat
       let old := BitVec.ofNat 64 (rdNat s x 8)
       let new := f old (gRd th b) (gRd th d)
       let s := patchAmo (wrStacked s x (toBytes new.toNat 8)) t x new
       let s := retireG s t d old
       if new = old then s else wakeCounter s x)

def execAmoAdd (t : Tid) (g : Guard) (d a b : GReg) (rel : Bool) (s : State) : Out :=
  .next (issueAmo s t g d a b rel fun old x _ => old + x)

def execAmoSwap (t : Tid) (g : Guard) (d a b : GReg) (rel : Bool) (s : State) : Out :=
  .next (issueAmo s t g d a b rel fun _ x _ => x)

/-- AMO.CAS (R208): the word is swapped when it equals g[DEST]. -/
def execAmoCas (t : Tid) (g : Guard) (d a b : GReg) (rel : Bool) (s : State) : Out :=
  .next (issueAmo s t g d a b rel fun old x cmp => if old = cmp then x else old)

def execAmoAnd (t : Tid) (g : Guard) (d a b : GReg) (rel : Bool) (s : State) : Out :=
  .next (issueAmo s t g d a b rel fun old x _ => old &&& x)

def execAmoOr (t : Tid) (g : Guard) (d a b : GReg) (rel : Bool) (s : State) : Out :=
  .next (issueAmo s t g d a b rel fun old x _ => old ||| x)

def execAmoXor (t : Tid) (g : Guard) (d a b : GReg) (rel : Bool) (s : State) : Out :=
  .next (issueAmo s t g d a b rel fun old x _ => old ^^^ x)

def execAmoMin (t : Tid) (g : Guard) (d a b : GReg) (rel : Bool) (s : State) : Out :=
  .next (issueAmo s t g d a b rel fun old x _ => if x.slt old then x else old)

def execAmoMax (t : Tid) (g : Guard) (d a b : GReg) (rel : Bool) (s : State) : Out :=
  .next (issueAmo s t g d a b rel fun old x _ => if old.slt x then x else old)

def execAmoMinu (t : Tid) (g : Guard) (d a b : GReg) (rel : Bool) (s : State) : Out :=
  .next (issueAmo s t g d a b rel fun old x _ => if x.ult old then x else old)

def execAmoMaxu (t : Tid) (g : Guard) (d a b : GReg) (rel : Bool) (s : State) : Out :=
  .next (issueAmo s t g d a b rel fun old x _ => if old.ult x then x else old)

/-- A FENCE word: every register field is 0 (R209). -/
def issueFence (s : State) (t : Tid) (g : Guard) (f : State → Nat → State) : State :=
  issuePlain s t g 0x1B (upperWord 0x1B g 0 0 0 0) fun s => retire (f s t.toNat) t

/-- The instruction cache of the thread's core is invalidated (R209). (DESIGN CHOICE, log entry 39) -/
def flushIcache (s : State) (t : Nat) : State :=
  match coreOf (getThr s t) with
  | none => s
  | some c => setCore s c { getCore s c with icache := [] }

def execFence (t : Tid) (g : Guard) (s : State) : Out := .next (issueFence s t g fun s n => acquire (release s n) n)

def execFenceR (t : Tid) (g : Guard) (s : State) : Out := .next (issueFence s t g release)

def execFenceA (t : Tid) (g : Guard) (s : State) : Out := .next (issueFence s t g acquire)

def execFenceI (t : Tid) (g : Guard) (s : State) : Out := .next (issueFence s t g flushIcache)

end Sys2Proof.Machine
end

