-- ==== Sys2Proof/Machine/Checkpoint.lean ====
section
/-! DEFINITION. Thread contexts as bytes (R169) and thread checkpoints (R332, R395 to R398). -/

namespace Sys2Proof.Machine

open Sys2Proof

/-- STATE of a context (R170). -/
def stCode : TState → Nat
  | .free => 0 | .ready => 1 | .hot => 2 | .waiting => 3 | .suspended => 4 | .exited => 5 | .aborted => 6

/-- WAIT of a context (R169). -/
def waitCode : WaitKind → Nat
  | .none => 0 | .cadence => 1 | .counter => 2 | .time => 3 | .opEntry => 4 | .suspended => 5

/-- CAD of a context and of c4 (R169, R180). -/
def cadWord (th : Thread) : Nat := th.cad.toNat + b2n th.bound * 2 ^ 8

/-- Bytes 0x000 to 0x28F of a context (R169, R172). -/
def ctxBytes (t : Nat) (th : Thread) : List Byte :=
  ((upFrom 0 64).flatMap fun r => toBytes (gRd th (BitVec.ofNat 6 r)).toNat 8) ++
  toBytes th.pc.toNat 8 ++
  [th.pred ||| 1, BitVec.ofNat 8 (stCode th.st),
   BitVec.ofNat 8 (if th.st = .suspended then 5 else waitCode th.wait),
   BitVec.ofNat 8 (b2n th.pin + 2 * b2n th.priv + 4 * b2n th.inHandler),
   th.prio.setWidth 8, th.group, BitVec.ofNat 8 th.inst, th.aflags.setWidth 8] ++
  toBytes (cadWord th) 2 ++ toBytes 0 2 ++ toBytes t 4 ++
  toBytes th.lastTick.toNat 8 ++ toBytes th.waitArg.toNat 8 ++ toBytes th.waitVal.toNat 8 ++
  toBytes th.step.toNat 8 ++ toBytes th.handler.toNat 8 ++
  toBytes th.exc.pc.toNat 8 ++ toBytes th.exc.addr.toNat 8 ++ toBytes th.exc.info.toNat 4 ++ [th.exc.code] ++ toBytes 0 3 ++
  toBytes th.exc.save.toNat 8 ++ toBytes th.arg.toNat 8 ++ toBytes th.userTag.toNat 8 ++
  toBytes th.statusAddr.toNat 8 ++ toBytes th.doneCnt.toNat 8 ++ toBytes th.retired.toNat 8 ++ toBytes 0 8

/-- A 64-bit field of a saved context. -/
def ctx64 (l : List Byte) (o : Nat) : W64 := BitVec.ofNat 64 (at_ l o 8)

/-- A thread with the context fields of saved bytes (R398 step 4). -/
def ctxLoad (th : Thread) (l : List Byte) : Thread :=
  { th with
    g := ((upFrom 0 64).map fun r => (r, ctx64 l (8 * r))).filter fun (r, v) => r != 0 && v != 0
    pc := ctx64 l 0x200
    pred := BitVec.ofNat 8 (at_ l 0x208 1)
    inHandler := bit (at_ l 0x20B 1) 2
    prio := BitVec.ofNat 3 (at_ l 0x20C 1)
    aflags := BitVec.ofNat 4 (at_ l 0x20F 1)
    cad := BitVec.ofNat 8 (at_ l 0x210 1)
    bound := bit (at_ l 0x211 1) 0
    lastTick := ctx64 l 0x218
    step := ctx64 l 0x230
    handler := ctx64 l 0x238
    exc := ⟨ctx64 l 0x240, ctx64 l 0x248, BitVec.ofNat 32 (at_ l 0x250 4), BitVec.ofNat 8 (at_ l 0x254 1), ctx64 l 0x258⟩
    retired := ctx64 l 0x280 }

/-- One step of CRC-32C per bit, over `n` bits. -/
def crcBits : Nat → W32 → W32
  | 0, c => c
  | n + 1, c => crcBits n (if c.getLsbD 0 then (c >>> 1) ^^^ 0x82F63B78#32 else c >>> 1)

/-- CRC-32C of bytes (R110, R397). -/
def crc32c (l : List Byte) : W32 :=
  ~~~(l.foldl (fun c b => crcBits 8 (c ^^^ b.setWidth 32)) 0xFFFFFFFF#32)

/-- The 40 bytes of a session of a checkpoint (R397): what the records named at entry `i` of the session
table hold; an address outside the instance's memory is not followed. (DESIGN CHOICE, log entry 32) -/
def sessionBytes (s : State) (th : Thread) (i : Nat) : List Byte :=
  let e := th.arg.toNat + 16 + 16 * i
  let sa := rdNat s e 8
  let ra := rdNat s (e + 8) 8
  let sq := sa != 0 && inInst s th.inst sa 64
  let rq := ra != 0 && inInst s th.inst ra 128
  let counts := if rq then rdNat s (ra + 0x10) 8 else 0
  let variant := if rq then rdNat s (ra + 0x36) 1 % 64 else 0
  toBytes (if sq then rdNat s (sa + 0x10) 8 else 0) 8 ++
  toBytes (if rq then rdNat s (ra + 0x08) 8 else 0) 8 ++
  toBytes (variant + bits counts 6 57 * 2 ^ 6 + 2 ^ 63) 8 ++
  toBytes (if sq then sa else 0) 8 ++ toBytes (if rq then ra else 0) 8

/-- The sessions that a thread keeps (R396): none where its table lies outside the instance's memory. (DESIGN CHOICE, log entry 32) -/
def sessionCount (s : State) (th : Thread) : Nat :=
  if inInst s th.inst th.arg.toNat 528 then min 32 (rdNat s th.arg.toNat 1 % 64) else 0

/-- A checkpoint slot of 2 KiB (R397). -/
def slotBytes (s : State) (t : Nat) (th : Thread) : List Byte :=
  let n := sessionCount s th
  let a := ctxBytes t th ++ toBytes th.step.toNat 8 ++ toBytes (nsNow s) 8 ++ [BitVec.ofNat 8 n] ++ toBytes 0 3
  let b := padTo (0x800 - 0x2A8) (toBytes 0 24 ++ (upFrom 0 n).flatMap (sessionBytes s th))
  a ++ toBytes (crc32c (a ++ toBytes 0 4 ++ b)).toNat 4 ++ b

/-- A checkpoint is written: copy P, then copy M on stack (s + 4) mod 8 of the mirror half (R332, R395). -/
def writeCheckpoint (s : State) (t : Nat) : State :=
  if t < 0x20000 then
    let th := getThr s t
    let l := slotBytes s t th
    let s := wrStacked (wrStacked s (ckptBase + t * 2048) l) ((mirrorBase + t * 2048) ^^^ 0x20000) l
    setThr s t { th with ckptOps := (s.op.table.filter fun (_, o) => o.used && o.tid.toNat == t && !o.orphan).map fun (e, o) => handle44 e o }
  else s

/-- A copy of a checkpoint slot, when it reads without error and its CRC passes (R332). -/
def ckptCopy (s : State) (a : Nat) : Option (List Byte) :=
  if rangeBad s a 2048 then none
  else
    let l := rdBytes s a 2048
    let z := l.take 0x2A4 ++ toBytes 0 4 ++ l.drop 0x2A8
    if at_ l 0x2A4 4 = (crc32c z).toNat then some l else none

/-- The checkpoint in force of a thread (R332): the copy with the higher STEP count. -/
def checkpoint (s : State) (t : Nat) : Option (List Byte) :=
  if t < 0x20000 then
    match ckptCopy s (ckptBase + t * 2048), ckptCopy s ((mirrorBase + t * 2048) ^^^ 0x20000) with
    | none, m => m
    | p, none => p
    | some p, some m => if at_ p 0x290 8 < at_ m 0x290 8 then some m else some p
  else none

end Sys2Proof.Machine
end

