-- ==== Sys2Proof/Machine/Arbiter.lean ====
section
/-! DEFINITION. The age-fair arbiter (R342 to R345). The grants that an arbiter has made since its last reserved
grant are kept in `arb` under a number of its own. -/

namespace Sys2Proof.Machine

open Sys2Proof

/-- A raised requester (R342): priority, age, index. A lower age is older. -/
structure ArbReq where
  prio : Nat
  age : Nat
  index : Nat
  deriving DecidableEq, Repr

/-- The order of a reserved grant (R343): age, then index. -/
def olderReq (a b : ArbReq) : Bool := a.age < b.age || (a.age == b.age && a.index < b.index)

/-- The order of any other grant (R343): priority, then age, then index. -/
def higherReq (a b : ArbReq) : Bool := b.prio < a.prio || (a.prio == b.prio && olderReq a b)

/-- The next grant, and whether it is reserved, when `count` grants have been made since the last reserved
one (R343). -/
def arbChoose (nth count : Nat) (rs : List ArbReq) : Option (ArbReq × Bool) :=
  if nth ≤ count + 1 then (leastBy olderReq rs).map fun r => (r, true)
  else (leastBy higherReq rs).map fun r => (r, false)

/-- The numbers of the arbiters in `arb`. -/
def arbExact (p : Nat) : Nat := 2000 + p
def arbPv (p : Nat) : Nat := 4000 + p
def arbWrite : Nat := 1000
def arbXfer (x : Nat) : Nat := 1100 + x
def arbMet (x : Nat) : Nat := 1200 + x
def arbEgress (l : Nat) : Nat := 1300 + l
def arbLtn (p : Nat) : Nat := 6000 + p

/-- The choice of arbiter `k`, whose NTH is given. -/
def arbPick (s : State) (k nth : Nat) (rs : List ArbReq) : Option (ArbReq × Bool) := arbChoose nth (tabGet 0 s.arb k) rs

/-- Arbiter `k` counts a grant (R343). -/
def arbCount (s : State) (k : Nat) (reserved : Bool) : State :=
  { s with arb := tabPut s.arb k (if reserved then 0 else tabGet 0 s.arb k + 1) }

/-- The grants that come before that of requester `i`, when those now raised are served in turn (R345); `fuel` bounds
the search. -/
def grantsBefore (nth i : Nat) : Nat → Nat → List ArbReq → Nat
  | 0, _, _ => 0
  | fuel + 1, count, rs =>
    match arbChoose nth count rs with
    | none => 0
    | some (r, reserved) =>
      if r.index = i then 0
      else 1 + grantsBefore nth i fuel (if reserved then 0 else count + 1) (rs.filter fun x => x != r)

/-- SLOT as arbiter `k` has it sent to requester `i` (R345): its requests are `rs`, and HINT says whether it sends any.
It follows from the requesters raised, so the requester always holds the latest. -/
def arbHint (s : State) (k nth : Nat) (hint : Bool) (rs : List ArbReq) (i : Nat) : Option Nat :=
  if hint && rs.any (fun r => r.index == i) then some (min 255 (grantsBefore nth i rs.length (tabGet 0 s.arb k) rs)) else none

end Sys2Proof.Machine
end

