-- ==== Sys2Proof/Machine/Control.lean ====
section
/-! DEFINITION. Control flow and thread control (R194, R210 to R215, R217, R219). -/

namespace Sys2Proof.Machine

open Sys2Proof

/-- UNDEFINED_INSTRUCTION (R194): ILLEGAL with bits 63:32 of the word. (DESIGN CHOICE, log entry 17) -/
def execUndefinedInstruction (t : Tid) (w : W64) (s : State) : Out :=
  if definedWord w then .fault .illFormed
  else .next (issueWord s t ⟨0, false⟩ 0 ((w >>> 32).setWidth 32) true .none id)

/-- A control transfer (R210): a checked target, and the link in g[DEST]. -/
def transfer (s : State) (t : Tid) (d : GReg) (target : W64) : State :=
  orExcept s t.toNat (targetFault s t.toNat target)
    (let th := getThr s t.toNat
     setThr s t.toNat { gWr th d (th.pc + 8) with pc := target, retired := th.retired + 1 })

/-- The target of BR and BRL (R210). -/
def brTarget (th : Thread) (imm : W32) : W64 := th.pc + imm.signExtend 64 * 8

def execBr (t : Tid) (g : Guard) (imm : W32) (s : State) : Out :=
  .next (issuePlain s t g 0x20 (upperWord 0x20 g 0 0 0 0) fun s => transfer s t 0 (brTarget (getThr s t.toNat) imm))

def execBrl (t : Tid) (g : Guard) (d : GReg) (imm : W32) (s : State) : Out :=
  .next (issuePlain s t g 0x21 (upperWord 0x21 g d.toNat 0 0 0) fun s => transfer s t d (brTarget (getThr s t.toNat) imm))

def execJr (t : Tid) (g : Guard) (d a : GReg) (imm : BitVec 24) (s : State) : Out :=
  .next (issuePlain s t g 0x22 (upperWord 0x22 g d.toNat a.toNat 0 0) fun s =>
    transfer s t d (addrM (getThr s t.toNat) a imm))

/-- EXIT (R211, R175): VALUE is bits 31:0 of g[SRCA] + IMM32. -/
def execExit (t : Tid) (g : Guard) (a : GReg) (imm : W32) (s : State) : Out :=
  .next (issuePlain s t g 0x23 (upperWord 0x23 g 0 a.toNat 0 0) fun s =>
    exitThread s t.toNat ((gRd (getThr s t.toNat) a).setWidth 32 + imm).toNat)

def execNop (t : Tid) (g : Guard) (s : State) : Out :=
  .next (issuePlain s t g 0x24 (upperWord 0x24 g 0 0 0 0) fun s => retire s t)

/-- STEP (R212, R182): a release, the count, the checkpoint, and then what the group makes of it. -/
def execStep (t : Tid) (g : Guard) (s : State) : Out :=
  .next (issuePlain s t g 0x24 (upperWord 0x24 g 0 0 0 0) fun s =>
    let s := release s t.toNat
    let s := setThr s t.toNat { getThr s t.toNat with step := (getThr s t.toNat).step + 1 }
    let s := writeCheckpoint (retire s t) t.toNat
    let th := getThr s t.toNat
    advanceAll s th.inst th.group.toNat)

/-- Whether a READY thread waits for the pool of a Spire (R212). -/
def poolWaited (s : State) (n : Fin 4) : Bool := s.mbx.threads.any fun (_, t) => t.st == .ready && t.home == n

def execYield (t : Tid) (g : Guard) (s : State) : Out :=
  .next (issuePlain s t g 0x24 (upperWord 0x24 g 0 0 0 0) fun s =>
    let th := getThr s t.toNat
    let s := if poolWaited s th.home then setThr s t.toNat { th with quantumOver := true } else s
    retire s t)

/-- A return from the handler to an address (R213): ILLEGAL outside a handler. `f` gives the target. (DEDUCED, log entry 30) -/
def issueEret (s : State) (t : Tid) (g : Guard) (a : GReg) (f : Thread → W64) (check : Bool) : State :=
  let upper := upperWord 0x25 g 0 a.toNat 0 0
  issuePlain s t g 0x25 upper fun s =>
    let th := getThr s t.toNat
    if th.inHandler then
      orExcept s t.toNat (if check then targetFault s t.toNat (f th) else none)
        (setThr s t.toNat { th with inHandler := false, pc := f th, retired := th.retired + 1 })
    else except s t.toNat 0x01 0 upper

def execEret (t : Tid) (g : Guard) (s : State) : Out := .next (issueEret s t g 0 (fun th => th.exc.pc) false)

def execEretSkip (t : Tid) (g : Guard) (s : State) : Out := .next (issueEret s t g 0 (fun th => th.exc.pc + 8) false)

def execEretTo (t : Tid) (g : Guard) (a : GReg) (s : State) : Out := .next (issueEret s t g a (fun th => gRd th a) true)

/-- BREAK (R214). -/
def execBrk (t : Tid) (g : Guard) (imm : W16) (s : State) : Out :=
  .next (issuePlain s t g 0x26 (upperWord 0x26 g 0 0 0 0) fun s => except s t.toNat 0x07 0 (imm.setWidth 32))

/-- TRAP (R214). -/
def execTrap (t : Tid) (g : Guard) (imm : W16) (s : State) : Out :=
  .next (issuePlain s t g 0x26 (upperWord 0x26 g 0 0 0 0) fun s => except s t.toNat 0x08 0 (imm.setWidth 32))

/-! ## Control registers -/

/-- Whether ZEROISE is armed (R217). -/
def zarmed (s : State) (th : Thread) : Bool := th.zarm.any fun u => decide (s.now < u)

/-- Entries of the operation table that a thread holds (c18). -/
def opsHeld (s : State) (t : Nat) : Nat := (s.op.table.filter fun (_, o) => o.used && o.tid.toNat == t && !o.orphan).length

/-- The value of a control register (R180, R217). -/
def csrVal (s : State) (t : Nat) (n : Nat) : W64 :=
  let th := getThr s t
  let v (x : Nat) : W64 := BitVec.ofNat 64 x
  match n with
  | 0 => v t
  | 1 => v th.inst
  | 2 => match th.slot with | some k => v (k / 16 + k % 16 * 2 ^ 8) | none => 0
  | 3 => v th.prio.toNat
  | 4 => v (cadWord th)
  | 5 => th.lastTick
  | 6 => s.time.belfry.ns
  | 7 => v th.timeFrac.toNat
  | 8 => v th.aflags.toNat
  | 9 => v th.group.toNat
  | 10 => th.step
  | 11 => gstep s th.inst th.group.toNat
  | 12 => th.handler
  | 13 => v th.exc.code.toNat
  | 14 => th.exc.pc
  | 15 => th.exc.addr
  | 16 => v th.exc.info.toNat
  | 17 => th.exc.save
  | 18 => v (opsHeld s t)
  | 19 => v (instOpq s th.inst - opsUsed s th.inst)
  | 20 => match coreOf th with | some c => v ((s.now - (getCore s c).started) / 32) | none => 0
  | 21 => th.retired
  | 22 => th.arg
  | 23 => th.userTag
  | 48 => v (b2n (regFld s .keep 0x018 1 1 == 1) + 2 * b2n s.img.zeroise + 4 * b2n s.keep.restoring.isSome)
  | 49 => v (b2n (zarmed s th))
  | 50 => v (th.kstat.toNat + 256 * b2n th.kdone)
  | _ => 0

/-- The privilege of an access to a control register (R216). -/
def csrPriv (n : BitVec 6) : Priv := if 48 ≤ n.toNat then .instance_ else .none

/-- The number of the latest tick of a cadence. -/
def latestTick (s : State) (c : Nat) : W64 := (tabGet {} s.time.cadences c).tick

/-- CSRR (R215): a read of c6 latches FRAC for c7. -/
def execCsrr (t : Tid) (g : Guard) (d : GReg) (n : BitVec 6) (s : State) : Out :=
  .next (issueWord s t g 0x27 (upperWord 0x27 g d.toNat 0 0 0) false (csrPriv n) fun s =>
    let v := csrVal s t.toNat n.toNat
    let th := getThr s t.toNat
    let s := if n = 6 then setThr s t.toNat { th with timeFrac := s.time.belfry.frac } else s
    retireG s t d v)

/-- The priority of a thread before a change of it: arbiters use it in the cycle of the change (R347). -/
def notePrio (now : Nat) (th : Thread) : Thread :=
  if th.prioOld.any fun (n, _) => n == now then th else { th with prioOld := some (now, th.prio) }

/-- The effect of a CSRW on the thread (R174, R180, R181, R217); RO registers discard it. -/
def csrWrite (s : State) (th : Thread) (n : Nat) (v : W64) : Thread :=
  match n with
  | 3 => { notePrio s.now th with prio := BitVec.ofNat 3 (min (v.toNat % 8) (instPrioMax s th.inst)) }
  | 4 =>
    let c := v.toNat % 256
    if bit v.toNat 8 then { th with cad := BitVec.ofNat 8 c, bound := true, lastTick := latestTick s c, lastOcc := (tabGet {} s.time.cadences c).occ, tickDue := none }
    else { th with cad := BitVec.ofNat 8 c, bound := false, tickDue := none }
  | 8 => { th with aflags := v.setWidth 4 }
  | 12 => { th with handler := v &&& ~~~7#64 }
  | 17 => { th with exc := { th.exc with save := v } }
  | 49 => { th with zarm := if v = 0x5A45 then some (s.now + 40000) else none }
  | _ => th

/-- The exceptions of a CSRW (R180, R181, R217). That ILLEGAL for c24 to c47 and c51 to c63 is raised where the other
exceptions of the instruction are, after privilege and guard, is the model's choice: R195 tests only the fields of the
word before them. (DEDUCED, log entry 30) -/
def csrwFault (s : State) (th : Thread) (n : Nat) (v : W64) (upper : W32) : Option (Nat × W64 × W32) :=
  if (24 ≤ n ∧ n < 48) ∨ 51 ≤ n then some (0x01, 0, upper)
  else if n = 4 ∧ bit v.toNat 8 = true ∧ cadInst s (v.toNat % 256) ≠ th.inst.val then some (0x04, 0, 4)
  else none

def execCsrw (t : Tid) (g : Guard) (a : GReg) (n : BitVec 6) (s : State) : Out :=
  let upper := upperWord 0x27 g 0 a.toNat 0 0
  .next (issueWord s t g 0x27 upper false (csrPriv n) fun s =>
    let th := getThr s t.toNat
    let v := gRd th a
    orExcept s t.toNat (csrwFault s th n.toNat v upper) (setThr s t.toNat (retired (csrWrite s th n.toNat v))))

/-- ZARM_EXPIRY (R217): ZARM disarms 1 µs after it was armed. -/
def execZarmExpiry (t : Tid) (s : State) : Out :=
  let th := getThr s t.toNat
  if th.zarm.any fun u => decide (u ≤ s.now) then .next (setThr s t.toNat { th with zarm := none }) else .next s

end Sys2Proof.Machine
end

