-- ==== Sys2Proof/Machine/OpCore.lean ====
section
/-! DEFINITION. The life of an operation that all kinds share: its completion (R227, R228), its event
record, and its place in the launch table (R164). -/

namespace Sys2Proof.Machine

open Sys2Proof

/-! ## Results (R228) -/

def rOk : Byte := 0x00
def rMalformed : Byte := 0x01
def rUnitAccess : Byte := 0x02
def rNotLoaded : Byte := 0x03
def rLocked : Byte := 0x04
def rVariantAbsent : Byte := 0x05
def rPlacement : Byte := 0x06
def rScale : Byte := 0x07
def rLanternFull : Byte := 0x08
def rLtnMalformed : Byte := 0x09
def rLtnResidue : Byte := 0x0A
def rMemErr : Byte := 0x0B
def rHostErr : Byte := 0x0C
def rPeerRefused : Byte := 0x0D
def rPeerLost : Byte := 0x0E
def rWaitExpired : Byte := 0x0F
def rZeroised : Byte := 0x10
def rInstReset : Byte := 0x11
def rFenced : Byte := 0x12
def rNogo : Byte := 0x13
def rNoVerdict : Byte := 0x14
def rDisarmed : Byte := 0x15
def rMemberLost : Byte := 0x16
def rKvLost : Byte := 0x17

/-! ## Descriptors -/

/-- The reads of host memory that a step makes see the host's memory of that moment. (DESIGN CHOICE, log entry 3) -/
def bumpFree (s : State) : State := { s with free := s.free + 1 }

/-- Descriptor kinds of 64 bytes (R223). -/
def kindShort (k : Nat) : Bool := k == 0xA0 || k == 0xA1

/-- The size of a descriptor by its kind (R223). -/
def kindSize (k : Nat) : Nat := if kindShort k then 64 else 128

/-- Whether the kind is one of R223. -/
def kindKnown (k : Nat) : Bool :=
  k == 0x80 || k == 0x81 || k == 0x90 || k == 0xA0 || k == 0xA1 || k == 0xB0 || k == 0xC0 ||
    (0xD0 ≤ k && k ≤ 0xD3) || (0xE0 ≤ k && k ≤ 0xE5)

/-- Whether an operation runs on tiles. -/
def kindTile (k : Nat) : Bool := k < 0xB0

/-! ## Completion -/

/-- The 16-byte status of an operation (R227). -/
def statusBytes (o : Op) (r : Byte) : List Byte :=
  [r, BitVec.ofNat 8 (o.aflags.toNat + (match o.outcome with | some x => x.toNat | none => 0) * 16 +
      b2n o.grouped * 64 + b2n o.subst * 128)] ++
    toBytes o.detail.toNat 2 ++ toBytes o.tag.toNat 4 ++ toBytes (satN 32 o.countA) 4 ++ toBytes (satN 32 o.countB) 4

/-- The OPERATION record of a failed operation (R227, R484). -/
def emitOp (s : State) (e : Nat) (o : Op) (r : Byte) : State :=
  emit s evOperation actNone (some o.inst) (unitOp e)
    (toBytes (handle44 e o) 6 ++ [r, 0] ++ toBytes o.detail.toNat 2)

/-- The flags of an operation go to its thread's c8, unless the thread has ended (R181). -/
def giveFlags (s : State) (o : Op) : State :=
  if o.orphan || !tabHas s.mbx.threads o.tid.toNat then s
  else setThr s o.tid.toNat { getThr s o.tid.toNat with aflags := (getThr s o.tid.toNat).aflags ||| o.aflags }

/-- The entry of an operation, and its launch-table entry, become free; the next waiter is served (R227,
R164, R183). -/
def freeOp (s : State) (e : Nat) : State :=
  let o := getOp s e
  let s := match o.launch with
    | some i => { s with time.launches := tabDel s.time.launches i }
    | none => s
  serveOpWaiter { s with op.table := tabDel s.op.table e } o.inst

/-- An operation completes (R227): status, flags, counter, and its entry is freed. -/
def completeWith (s : State) (e : Nat) (r : Byte) : State :=
  let o := getOp s e
  let s := if r = 0 then s else emitOp s e o r
  let s := if o.statusAddr = 0 then s else wrBytes s o.inst o.statusAddr.toNat (statusBytes o r)
  let s := giveFlags s o
  let s := if o.doneCnt = 0 then s else counterAdd s o.doneCnt.toNat 1
  freeOp s e

/-- The work of an operation has ended with a result: the first one stands. -/
def setResult (s : State) (e : Nat) (r : Byte) (detail : Nat) : State :=
  let o := getOp s e
  if o.result.isSome then s
  else setOp s e { o with result := some r, detail := if r = 0 then o.detail else BitVec.ofNat 16 detail }

/-- Flags that a unit raises for an operation (R42, R227). -/
def opFlags (s : State) (e : Nat) (f : BitVec 4) : State :=
  let o := getOp s e
  if f = 0 then s else setOp s e { o with aflags := o.aflags ||| f }

/-- Counts of an operation (R227). -/
def opCounts (s : State) (e : Nat) (a b : Nat) : State :=
  let o := getOp s e
  setOp s e { o with countA := o.countA + a, countB := o.countB + b }

/-- The drains in progress, flights and exact passes of an operation that a tile still holds (R231). -/
def tileBusyFor (t : Tile) (e : Nat) : Bool :=
  t.blocks.any (fun (_, b) => b.fills.any fun x => x.op == some e && x.draining) ||
    t.flight.any (fun f => f.req.op == e) || t.exactQ.any (fun x => x.flight.req.op == e) ||
    t.exactBusy.any fun x => x.flight.req.op == e

/-- Whether a unit still works for an operation whose result stands. -/
def opBusy (s : State) (e : Nat) : Bool :=
  s.tile.tiles.any (fun (_, t) => tileBusyFor t e) || s.op.posQueue.any (fun p => p.op == e) ||
    s.op.seals.any fun x => x.op == e

/-- A dispatched group launch waits for its outcome as well (R250). (DESIGN CHOICE, log entry 70) -/
def opReady (s : State) (e : Nat) : Bool :=
  let o := getOp s e
  o.used && o.result.isSome && (!o.grouped || o.outcome.isSome) && !opBusy s e

end Sys2Proof.Machine
end

