-- ==== Sys2Proof/Machine/OpIssue.lean ====
section
/-! DEFINITION. Issue of tensor, transfer, collective, sampling and Lantern operations (R183, R222 to
R226). -/

namespace Sys2Proof.Machine

open Sys2Proof

/-- A counter address of a header: valid under R184, and in the instance's memory. -/
def counterFault (s : State) (inst : Inst) (a : Nat) : Option (Nat × W64 × W32) :=
  if a % 8 ≠ 0 ∨ !isStacked a then some (0x06, BitVec.ofNat 64 a, 0)
  else if !inInst s inst a 8 then some (0x04, BitVec.ofNat 64 a, 3)
  else none

/-- The checks of DONE_CNT and WAIT_CNT (R224): first that both are valid, then where they lie. (DEDUCED, log entry 30) -/
def countersFault (s : State) (inst : Inst) (done wait : Nat) (waitEn : Bool) : Option (Nat × W64 × W32) :=
  let fd := if done = 0 then none else counterFault s inst done
  let fw := if wait = 0 then (if waitEn then some (0x06, 0, 0) else none) else counterFault s inst wait
  match fd, fw with
  | none, f => f
  | f, none => f
  | some (0x06, a, i), _ => some (0x06, a, i)
  | some d, some (0x06, a, i) => some (if d.1 = 0x06 then d else (0x06, a, i))
  | some d, some _ => some d

/-- The checks of a descriptor header at issue, in the order of R224. (DEDUCED, log entry 30) -/
def headerFault (s : State) (inst : Inst) (a kind : Nat) (upper : W32) (lgroupOk : Nat → Bool) : Option (Nat × W64 × W32) :=
  let x := BitVec.ofNat 64 a
  if a % 64 ≠ 0 then some (0x03, x, 64)
  else if !inInst s inst a (kindSize kind) then some (0x04, x, 3)
  else if lineBad s a then some (0x05, x, BitVec.ofNat 32 (stackOf a))
  else
    let h := rdBytes s a 40
    let flags := at_ h 1 1
    if at_ h 0 1 ≠ kind ∨ flags % 2 ≠ b2n (!kindShort kind) ∨ 4 ≤ flags ∨ !lgroupOk (at_ h 2 2) then some (0x01, x, upper)
    else match countersFault s inst (at_ h 0x08 8) (at_ h 0x18 8) (bit flags 1) with
      | some f => some f
      | none =>
        let st := at_ h 0x10 8
        if st = 0 then none
        else if st % 16 ≠ 0 then some (0x03, BitVec.ofNat 64 st, 16)
        else if !inInst s inst st 16 then some (0x04, BitVec.ofNat 64 st, 3)
        else none

/-- The next issue sequence number of an instance (R222). (DESIGN CHOICE, log entry 6) -/
def opSeqOf (s : State) (inst : Inst) : W32 := tabGet 0 s.op.seqs inst

/-- An operation takes an entry, with the header its descriptor holds (R183, R225). -/
def allocOp (s : State) (t : Nat) (e a : Nat) : State :=
  let th := getThr s t
  let h := rdBytes s a 40
  let o : Op := {
    used := true, inst := th.inst, gen := (getInst s th.inst).gen, tid := BitVec.ofNat 22 t
    kind := BitVec.ofNat 8 (at_ h 0 1), flags := BitVec.ofNat 8 (at_ h 1 1), lgroup := BitVec.ofNat 16 (at_ h 2 2)
    tag := BitVec.ofNat 32 (at_ h 4 4), doneCnt := BitVec.ofNat 64 (at_ h 8 8)
    statusAddr := BitVec.ofNat 64 (at_ h 0x10 8), waitCnt := BitVec.ofNat 64 (at_ h 0x18 8)
    waitVal := BitVec.ofNat 64 (at_ h 0x20 8), addr := BitVec.ofNat 64 a
    seq := opSeqOf s th.inst, issued := s.now }
  let s := setOp s e o
  { s with op.seqs := tabPut s.op.seqs th.inst (opSeqOf s th.inst + 1) }

/-- The handle of an issued operation (R222). -/
def opHandle (s : State) (e : Nat) : W64 := BitVec.ofNat 64 (handle44 e (getOp s e) + 2 ^ 63)

/-- An operation instruction (R222 to R225, R183): without an entry left, the try form writes 0 and the
blocking form waits; then the header is checked, and the operation is placed. (DEDUCED, log entry 30) -/
def issueOp (s : State) (t : Tid) (g : Guard) (d a : GReg) (try_ : Bool) (kind : Nat) : State :=
  let op := 0x28 + kind / 16
  let upper := upperWord op g d.toNat a.toNat 0 0
  issuePlain s t g op upper fun s =>
    let n := t.toNat
    let s := release s n
    let th := getThr s n
    let x := (gRd th a).toNat
    if !opAvailable s th.inst n then
      if try_ then retireG s t d 0 else beginWait s n .opEntry 0 0 0 none
    else
      let s := setThr s n { th with granted := false }
      match headerFault s th.inst x kind upper (fun lg => lg == 0) with
      | some (code, addr, info) => except (serveOpWaiter s th.inst) n code addr info
      | none =>
        match freeOpEntry s with
        | none => s
        | some e => let s := allocOp s n e x; bumpFree (retireG s t d (opHandle s e))

def execPass (t : Tid) (g : Guard) (d a : GReg) (try_ : Bool) (s : State) : Out := .next (issueOp s t g d a try_ 0x80)
def execPassX (t : Tid) (g : Guard) (d a : GReg) (try_ : Bool) (s : State) : Out := .next (issueOp s t g d a try_ 0x81)
def execDrain (t : Tid) (g : Guard) (d a : GReg) (try_ : Bool) (s : State) : Out := .next (issueOp s t g d a try_ 0x90)
def execLtnLoad (t : Tid) (g : Guard) (d a : GReg) (try_ : Bool) (s : State) : Out := .next (issueOp s t g d a try_ 0xA0)
def execLtnRel (t : Tid) (g : Guard) (d a : GReg) (try_ : Bool) (s : State) : Out := .next (issueOp s t g d a try_ 0xA1)
def execAttn (t : Tid) (g : Guard) (d a : GReg) (try_ : Bool) (s : State) : Out := .next (issueOp s t g d a try_ 0xB0)
def execSample (t : Tid) (g : Guard) (d a : GReg) (try_ : Bool) (s : State) : Out := .next (issueOp s t g d a try_ 0xC0)
def execXferCopy (t : Tid) (g : Guard) (d a : GReg) (try_ : Bool) (s : State) : Out := .next (issueOp s t g d a try_ 0xD0)
def execXferGather (t : Tid) (g : Guard) (d a : GReg) (try_ : Bool) (s : State) : Out := .next (issueOp s t g d a try_ 0xD1)
def execXferPages (t : Tid) (g : Guard) (d a : GReg) (try_ : Bool) (s : State) : Out := .next (issueOp s t g d a try_ 0xD2)
def execXferFill (t : Tid) (g : Guard) (d a : GReg) (try_ : Bool) (s : State) : Out := .next (issueOp s t g d a try_ 0xD3)
def execCollAr (t : Tid) (g : Guard) (d a : GReg) (try_ : Bool) (s : State) : Out := .next (issueOp s t g d a try_ 0xE0)
def execCollRs (t : Tid) (g : Guard) (d a : GReg) (try_ : Bool) (s : State) : Out := .next (issueOp s t g d a try_ 0xE1)
def execCollAg (t : Tid) (g : Guard) (d a : GReg) (try_ : Bool) (s : State) : Out := .next (issueOp s t g d a try_ 0xE2)
def execCollA2a (t : Tid) (g : Guard) (d a : GReg) (try_ : Bool) (s : State) : Out := .next (issueOp s t g d a try_ 0xE3)
def execCollBc (t : Tid) (g : Guard) (d a : GReg) (try_ : Bool) (s : State) : Out := .next (issueOp s t g d a try_ 0xE4)
def execCollBar (t : Tid) (g : Guard) (d a : GReg) (try_ : Bool) (s : State) : Out := .next (issueOp s t g d a try_ 0xE5)

end Sys2Proof.Machine
end

