-- ==== Sys2Proof/Machine/Waits.lean ====
section
/-! DEFINITION. Waits of threads and their returns (R160, R161, R219, R246 to R249), and TCTL. -/

namespace Sys2Proof.Machine

open Sys2Proof

/-- A limit in microseconds (R246); 0 is none. (DESIGN CHOICE, log entry 14) -/
def limitOf (s : State) (us : W32) : Option Nat := if us = 0 then none else some (s.now + us.toNat * 40000)

/-! ## Cadence waits -/

def getCad (s : State) (c : Nat) : Cadence := tabGet {} s.time.cadences c
def setCad (s : State) (c : Nat) (v : Cadence) : State := { s with time.cadences := tabPut s.time.cadences c v }

/-- The timebase in 2^−16 ns (R143). -/
def timeFx (s : State) : Nat := s.time.belfry.ns.toNat * 65536 + s.time.belfry.frac.toNat

/-- STATE of the Belfry (R145). -/
def bCode : BState → Nat
  | .freerun => 0 | .acquiring => 1 | .locked => 2 | .holdover => 3

/-- A cadence miss (R161), with its record where MISS_EV asks for one (R158, R484). (DEDUCED, log entry 29) -/
def countMiss (c t : Nat) (s : State) (tick : Nat) : State :=
  let k := getCad s c
  let s := setCad s c { k with misses := BitVec.ofNat 16 (min 0xFFFF (k.misses.toNat + 1)) }
  if regFld s (.cadence (c / 128)) (c % 128 * 0x20 + 0x10) 1 1 = 1 then
    emit s evTime actNone (some (Fin.ofNat 32 (cadInst s c))) (unitOf 0xC c)
      ([2] ++ toBytes (bCode s.time.belfry.state) 1 ++ toBytes c 1 ++ [0] ++ toBytes tick 4 ++ toBytes t 3 ++ [1])
  else s

/-- A thread consumes the latest tick of its cadence (R160): the ticks passed over count as misses. The
result of R247. (DEDUCED, log entry 29) -/
def consumeTick (s : State) (t : Nat) : State × W64 :=
  let th := getThr s t
  let c := th.cad.toNat
  let k := getCad s c
  let passed := k.occ - th.lastOcc - 1
  let s := setThr s t { th with lastTick := k.tick, lastOcc := k.occ, tickDue := k.due }
  let s := (upFrom (k.tick.toNat - passed) passed).foldl (countMiss c t) s
  (s, BitVec.ofNat 64 (k.tick.toNat % 2 ^ 32 + min 0xFFFF passed * 2 ^ 32))

/-- A wait on a cadence returns with CAD_OFF (R159, R247) and the last tick consumed. -/
def cadOff (th : Thread) : W64 := BitVec.ofNat 64 (th.lastTick.toNat % 2 ^ 32 + 2 ^ 63)

/-- A waiting thread returns at the tick that has occurred (R160). -/
def returnTick (s : State) (t : Nat) : State := let (s, v) := consumeTick s t; returnWait s t v

/-- A wait that returns at once: the register, the retirement and the acquire of R185 rule 7. -/
def returnNow (s : State) (t : Tid) (d : GReg) (v : W64) : State := acquire (retireG s t d v) t.toNat

/-- CWAIT (R247). -/
def execCwait (t : Tid) (g : Guard) (d : GReg) (limit : W32) (s : State) : Out :=
  .next (issuePlain s t g 0x28 (upperWord 0x28 g d.toNat 0 0 0) fun s =>
    let n := t.toNat
    let th := getThr s n
    if !th.bound then returnNow s t d (BitVec.ofNat 64 (2 ^ 62))
    else
      let c := th.cad.toNat
      let s := if th.tickDue.any fun u => decide (u < timeFx s) then countMiss c n s th.lastTick.toNat else s
      if th.lastOcc < (getCad s c).occ then let (s, v) := consumeTick s n; returnNow s t d v
      else if !(getCad s c).running then returnNow s t d (cadOff th)
      else beginWait s n .cadence 0 0 d (limitOf s limit))

/-! ## Timed waits and counter waits -/

/-- WAITAT (R248). -/
def execWaitat (t : Tid) (g : Guard) (d a : GReg) (s : State) : Out :=
  .next (issuePlain s t g 0x29 (upperWord 0x29 g d.toNat a.toNat 0 0) fun s =>
    let v := gRd (getThr s t.toNat) a
    if v.toNat ≤ nsNow s then returnNow s t d s.time.belfry.ns
    else beginWait s t.toNat .time v 0 d none)

/-- WAITAT_RETURN (R248). -/
def execWaitatReturn (t : Tid) (s : State) : Out :=
  let th := getThr s t.toNat
  if waitsOn th .time && decide (th.waitArg.toNat ≤ nsNow s) then .next (returnWait s t.toNat s.time.belfry.ns)
  else .next s

/-- The exceptions of CNTWAIT (R249, R336). -/
def cntFault (s : State) (t a : Nat) : Option (Nat × W64 × W32) :=
  let x := BitVec.ofNat 64 a
  if a % 8 ≠ 0 ∨ !isStacked a then some (0x06, x, 0)
  else if !inInst s (getThr s t).inst a 8 then some (0x04, x, 0)
  else if lineBad s a then some (0x05, x, BitVec.ofNat 32 (stackOf a))
  else none

/-- The counters in the watch table of 16,384 (R184). -/
def watchedCounters (s : State) : List W64 :=
  ((s.mbx.threads.filter fun (_, th) => waitsOn th .counter && th.watched).map fun (_, th) => th.waitArg).eraseDups

/-- Whether the watch table takes a counter. -/
def canWatch (s : State) (a : W64) : Bool :=
  (watchedCounters s).contains a || decide ((watchedCounters s).length < 16384)

/-- CNTWAIT (R249, R184). -/
def execCntwait (t : Tid) (g : Guard) (d a b : GReg) (limit : W32) (s : State) : Out :=
  .next (issuePlain s t g 0x2A (upperWord 0x2A g d.toNat a.toNat b.toNat 0) fun s =>
    let n := t.toNat
    let th := getThr s n
    let x := gRd th a
    let v := gRd th b
    orExcept s n (cntFault s n x.toNat)
      (let now := rdNat s x.toNat 8
       if v.toNat ≤ now then returnNow s t d (BitVec.ofNat 64 now)
       else
         let w := canWatch s x
         let s := beginWait s n .counter x v d (limitOf s limit)
         setThr s n { getThr s n with watched := w }))

/-- A waiting thread sees its counter (R184): it returns, leaves with MEM_ERR, or goes on waiting. -/
def pollCounter (s : State) (t : Nat) : State :=
  let th := getThr s t
  let a := th.waitArg.toNat
  if lineBad s a then except s t 0x05 th.waitArg (BitVec.ofNat 32 (stackOf a))
  else
    let v := rdNat s a 8
    if th.waitVal.toNat ≤ v then returnWait s t (BitVec.ofNat 64 v) else s

/-- COUNTER_POLL (R184): a plain store, or an add made while the watch table is full, is seen. -/
def execCounterPoll (t : Tid) (s : State) : Out :=
  if waitsOn (getThr s t.toNat) .counter then .next (pollCounter s t.toNat) else .next s

/-- WAIT_LIMIT (R246): EXC_INFO is the wait's reason. -/
def execWaitLimit (t : Tid) (s : State) : Out :=
  let th := getThr s t.toNat
  let due := th.limitAt.any fun u => decide (u ≤ s.now)
  if due && waitsOn th .cadence then .next (except s t.toNat 0x0B 0 1)
  else if due && waitsOn th .counter then .next (except s t.toNat 0x0B th.waitArg 2)
  else .next s

/-! ## TCTL -/

/-- A thread becomes SUSPENDED, its state and wait kept (R219). (DEDUCED, log entry 29) -/
def suspendThr (s : State) (t : Nat) : State :=
  let th := getThr s t
  setThr s t { th with st := .suspended, prior := some (th.st, th.wait) }

/-- What a resumed thread finds of its wait: the rules of R160 for a cadence, the counter as it stands, a
free operation entry (R219). -/
def recheckWait (s : State) (t : Nat) : State :=
  let th := getThr s t
  match th.wait with
  | .cadence =>
    if th.lastOcc < (getCad s th.cad.toNat).occ then returnTick s t
    else if !(getCad s th.cad.toNat).running then returnWait s t (cadOff th)
    else s
  | .counter => pollCounter s t
  | .opEntry => serveOpWaiter s th.inst
  | _ => s

/-- A SUSPENDED thread returns to the state it held before (R219): one that lost its slot meanwhile becomes
READY. -/
def resumeThr (s : State) (t : Nat) : State :=
  let th := getThr s t
  match th.prior with
  | some (.waiting, w) => recheckWait (setThr s t { th with st := .waiting, wait := w, prior := none }) t
  | _ => makeRunnable (setThr s t { th with prior := none }) t

/-- TCTL (R219): the target's instance is checked, the order meets the others of its cycle (R372, R373), and then the
operation acts and gives its result code. -/
def issueTctl (s : State) (t : Tid) (g : Guard) (d a : GReg) (effect : Nat) (f : State → Nat → State × Nat) : State :=
  issueWord s t g 0x3D (upperWord 0x3D g d.toNat a.toNat 0 0) false .instance_ fun s =>
    let th := getThr s t.toNat
    let x := (gRd th a).toNat % 2 ^ 22
    if th.inst ≠ 0 ∧ !tidInInst s th.inst x then except s t.toNat 0x04 0 4
    else
      let (s, wins) := contend s (threadOrder s x (some th.inst) effect (some (t, d)))
      if !wins then retireG s t d 2
      else
        let (s', r) := if live (getThr s x) then f (retireG s t d 0) x else (s, 1)
        if r = 0 then s' else retireG s t d (BitVec.ofNat 64 r)

/-- Suspension of a target: DONE, or NO_CHANGE. -/
def suspendResult (s : State) (x : Nat) : State × Nat := if (getThr s x).st = .suspended then (s, 2) else (suspendThr s x, 0)

/-- Resumption of a target: DONE, or NO_CHANGE. A target that waits for a restart stays SUSPENDED (R398). -/
def resumeResult (s : State) (x : Nat) : State × Nat :=
  if (getThr s x).st = .suspended && (getThr s x).restart.isNone then (resumeThr s x, 0) else (s, 2)

def execTctlSuspend (t : Tid) (g : Guard) (d a : GReg) (s : State) : Out := .next (issueTctl s t g d a 1 suspendResult)

def execTctlResume (t : Tid) (g : Guard) (d a : GReg) (s : State) : Out := .next (issueTctl s t g d a 2 resumeResult)

def execTctlAbort (t : Tid) (g : Guard) (d a : GReg) (s : State) : Out :=
  .next (issueTctl s t g d a 4 fun s x => (abortThread counterAdd s x (if (getThr s t.toNat).inst = 0 then 2 else 0), 0))

end Sys2Proof.Machine
end

