-- ==== Sys2Proof/Machine/Sched.lean ====
section
/-! DEFINITION. The thread scheduler: hot slots and swaps (R171 to R174), core faults (R20, R188), and
restarts from checkpoints (R398). -/

namespace Sys2Proof.Machine

open Sys2Proof

/-! ## Slots -/

/-- Whether a slot, as core × 16 + slot, is taken. -/
def slotTaken (s : State) (k : Nat) : Bool := s.mbx.threads.any fun (_, th) => th.slot == some k

/-- Pinned threads in the slots of a core (R173). -/
def corePinned (s : State) (c : Nat) : Nat := ((slotThreads s c).filter fun (_, th) => th.pin).length

/-- Whether core `c` may take the thread: in service, and with room for a pinned one (R173). -/
def coreTakes (s : State) (c : Nat) (pin : Bool) : Bool := coreInService s c && (!pin || decide (corePinned s c < 8))

/-- A free slot of a Spire for a thread (R172 rule 1). (DESIGN CHOICE, log entry 31) -/
def freeSlotIn (s : State) (n : Nat) (pin : Bool) : Option Nat :=
  firstOf (fun k => coreTakes s (k / 16) pin && !slotTaken s k) (upFrom (n * 1024) 1024)

/-- The threads in slots of a Spire that may give way to a thread (R173). -/
def victimsIn (s : State) (n : Nat) (pin : Bool) : List (Nat × Thread) :=
  s.mbx.threads.filter fun (_, th) =>
    !th.pin && th.slot.any (fun k => k / 1024 == n && coreTakes s (k / 16) pin)

/-- The victim of rules 2 to 4 of R172 for a thread of priority `p`. Rule 2 orders the WAITING victims; which of several
HOT victims rules 3 and 4 take is the model's choice, the lowest priority and then the longest in its state. (DESIGN
CHOICE, log entry 31) -/
def victimIn (s : State) (n p : Nat) (pin : Bool) : Option (Nat × Thread) :=
  let vs := victimsIn s n pin
  let low (a b : Nat × Thread) : Bool := a.2.prio.toNat < b.2.prio.toNat || (a.2.prio == b.2.prio && a.2.order < b.2.order)
  match leastBy low (vs.filter fun (_, th) => th.st == .waiting) with
  | some v => some v
  | none =>
    match leastBy low (vs.filter fun (_, th) => th.st == .hot && th.prio.toNat < p) with
    | some v => some v
    | none => leastBy low (vs.filter fun (_, th) => th.st == .hot && th.prio.toNat == p && th.quantumOver)

/-- Whether the pool of a Spire has a slot for a thread under R172. -/
def poolHasSlot (s : State) (n : Nat) (th : Thread) : Bool :=
  (freeSlotIn s n th.pin).isSome || (victimIn s n th.prio.toNat th.pin).isSome

/-- A thread leaves its slot with its context saved: its stores drain first (R172, R188). -/
def swapOut (s : State) (t : Nat) : State :=
  let s := release s t
  let th := getThr s t
  let s := setThr s t { th with slot := none, quantumOver := false }
  if th.st = .hot then makeRunnable s t else s

/-- A thread's context is loaded into a slot: an acquire of that core (R185 rule 7). -/
def swapIn (s : State) (t k : Nat) : State :=
  let th := getThr s t
  acquire (setThr s t { th with st := .hot, slot := some k, slotSince := s.now, quantumOver := false, saved := ctxBytes t th }) t

/-- The READY threads of a Spire that could be placed. -/
def placeable (s : State) (n : Nat) : List (Nat × Thread) :=
  s.mbx.threads.filter fun (_, th) => th.st == .ready && !th.homeOpen && th.home.val == n && poolHasSlot s n th

/-- SWAP (R172): the first READY thread of its pool that can be placed takes a slot. -/
def execSwap (t : Tid) (s : State) : Out :=
  let n := t.toNat
  let th := getThr s n
  let first := match leastBy servedBefore (placeable s th.home) with
    | some (k, _) => k == n
    | none => false
  if th.st = .ready ∧ first = true then
    match freeSlotIn s th.home th.pin with
    | some k => .next (swapIn s n k)
    | none =>
      match victimIn s th.home th.prio.toNat th.pin with
      | some (v, vt) => .next (swapIn (swapOut s v) n (vt.slot.getD 0))
      | none => .next s
  else .next s

/-- QUANTUM_EXPIRY (R172 rule 4): the thread has held its slot for SCHED.QUANTUM. -/
def execQuantumExpiry (t : Tid) (s : State) : Out :=
  let th := getThr s t.toNat
  if th.st = .hot ∧ th.slotSince + regFld s .sched 0x008 0 16 * 40000 ≤ s.now then
    .next (setThr s t.toNat { th with quantumOver := true })
  else .next s

/-! ## Displacement and restart -/

/-- How many slots of a Spire could be given to a thread under R172. -/
def poolSlots (s : State) (n : Nat) (th : Thread) : Nat :=
  ((upFrom (n * 1024) 1024).filter fun k => coreTakes s (k / 16) th.pin && !slotTaken s k).length +
    ((victimsIn s n th.pin).filter fun (_, v) => v.st == .waiting ||
      (v.st == .hot && (v.prio.toNat < th.prio.toNat || (v.prio == th.prio && v.quantumOver)))).length

/-- The READY threads of a Spire that are served before a thread. -/
def readyBefore (s : State) (n t : Nat) (th : Thread) : Nat :=
  (s.mbx.threads.filter fun (k, x) => k != t && x.st == .ready && x.home.val == n && servedBefore (k, x) (t, th)).length

/-- A displaced thread finds its home (R20): its own Spire while the pool has a slot for it beside those that are served
before it, else the Spire in service with the most free slots. (DESIGN CHOICE, log entry 31) -/
def rehome (s : State) (t : Nat) : State :=
  let th := getThr s t
  if spireInService s th.home && decide (readyBefore s th.home t th < poolSlots s th.home th) then s
  else match bestSpire s with
    | some n => setThr s t { th with home := Fin.ofNat 4 n }
    | none => s

/-- A thread moves out of its slot to find another (R20, R172, R188). -/
def displace (s : State) (t : Nat) : State := rehome (swapOut s t) t

/-- An element at its place in a sorted list. -/
def insertBy {α : Type} (lt : α → α → Bool) (x : α) : List α → List α
  | [] => [x]
  | y :: r => if lt x y then x :: y :: r else y :: insertBy lt x r

/-- Threads in the order in which they are served (R172). -/
def inService (l : List (Nat × Thread)) : List (Nat × Thread) := l.foldr (insertBy servedBefore) []

/-- A thread is to be restarted (R398 step 1), or is aborted when no checkpoint of it is in force (R395). -/
def restartThr (s : State) (t : Nat) (code : Nat) (addr : W64) (info : W32) : State :=
  if !live (getThr s t) then s
  else if (checkpoint s t).isSome then
    let s := discardStores s t
    let s := dropHostReq s t
    let th := getThr s t
    let s := setThr s t { th with
      st := .suspended, wait := .none, prior := none, slot := none, limitAt := none, hostLoad := none
      startTick := false, granted := false, restart := some (BitVec.ofNat 8 code) }
    if th.granted then serveOpWaiter s th.inst else s
  else killThread counterAdd s t code addr info

/-- The operations of a thread that were issued after its checkpoint and have not completed (R398 step 2). -/
def laterOps (s : State) (t : Nat) : List (Nat × Op) :=
  let old := (getThr s t).ckptOps
  s.op.table.filter fun (e, o) => o.used && o.tid.toNat == t && !o.orphan && !old.contains (handle44 e o)

/-- LEN and CTR of a checkpoint's sessions are written back to their records (R398 step 3). (DESIGN CHOICE, log entry 32) -/
def restoreSessions (inst : Inst) (l : List Byte) (s : State) : State :=
  (upFrom 0 (at_ l 0x2A0 1)).foldl
    (fun s i =>
      let b := 0x2C0 + 40 * i
      let sa := at_ l (b + 24) 8
      let ra := at_ l (b + 32) 8
      let s := if sa ≠ 0 ∧ inInst s inst sa 64 = true then wrNat s inst (sa + 0x10) 8 (at_ l b 8) else s
      if ra ≠ 0 ∧ inInst s inst ra 128 = true then wrNat s inst (ra + 0x08) 8 (at_ l (b + 8) 8) else s) s

/-- The THREAD record of a restart (R398 step 6, R484). -/
def emitRestart (s : State) (inst : Inst) (t : Nat) (code : Byte) (step : Nat) : State :=
  emit s evThread actRestored (some inst) (unitThread t) ([4, 0, code, 0] ++ toBytes step 8)

/-- THREAD_RESTART (R398). (DESIGN CHOICE, log entry 32) -/
def execThreadRestart (t : Tid) (s : State) : Out :=
  let n := t.toNat
  let th := getThr s n
  match th.restart, checkpoint s n with
  | some code, some l =>
    if !(laterOps s n).isEmpty then .next s
    else
      let s := restoreSessions th.inst l s
      let th' := ctxLoad (getThr s n) l
      let th' := if th'.handler = 0 then th'
        else { th' with
          exc := { th'.exc with code := code, info := 0x80000000, pc := th'.pc, addr := 0 }
          inHandler := true, pc := th'.handler }
      let s := rehome (makeRunnable (setThr s n { th' with restart := none }) n) n
      .next (emitRestart s th.inst n code (at_ l 0x290 8))
  | some code, none => .next (killThread counterAdd s n code.toNat 0 0)
  | none, _ => .next s

/-- Step by step, the store-buffer entries of a faulted core: those whose residue fails are discarded and
named in a record, the others drain (R188). -/
def drainChecked (c : Nat) (bad : List Nat) : Nat → List StoreEntry → State → State
  | _, [], s => s
  | i, e :: r, s =>
    let s := if bad.contains i then
        emit s evThread actNone (some (getThr s e.tid.toNat).inst) (unitThread e.tid.toNat)
          ([3, 0, 0, 0] ++ toBytes e.addr.toNat 8)
      else drainEntry c s e
    drainChecked c bad (i + 1) r s

/-- Discarded entries of a thread among those of a store buffer. -/
def discardedOf (t : Nat) (bad : List Nat) (l : List StoreEntry) : Nat :=
  ((l.zip (upFrom 0 l.length)).filter fun (e, i) => e.tid.toNat == t && bad.contains i).length

/-- A core is fenced (R188, R20, R389): its good entries drain, and its threads move; one with an entry
discarded restarts. -/
def faultCore (s : State) (c : Nat) (bad : List Nat) : State :=
    let stores := (getCore s c).stores
    let ts := slotThreads s c
    let s := emitFenced s (unitOf 4 c) actFenced 1 0
    let s := drainChecked c bad 0 stores s
    let s := setCore s c { getCore s c with fenced := true, stores := [], dcache := [], icache := [] }
    (inService ts).foldl
      (fun s (t, _) =>
        let n := discardedOf t bad stores
        if n = 0 then displace s t else restartThr s t 0x0A 0 (BitVec.ofNat 32 n)) s

end Sys2Proof.Machine
end

