-- ==== Sys2Proof/Machine/HostSub.lean ====
section
/-! DEFINITION. Submission of threads by the host: rings, launch records, counters and aborts (R176 to R179,
R192, R363). -/

namespace Sys2Proof.Machine

open Sys2Proof

/-- Whether a PCIe function responds at all: the link is up, and a virtual function needs VF Enable (R353,
R363). -/
def fnUp (s : State) (n : Inst) : Bool := s.host.linkUp && (n == 0 || s.host.vfEnable)

/-- The routing ID of function `n`, counted from that of the physical function (R353). -/
def fnRouting (n : Inst) : Nat := if n = 0 then 0 else Config.firstVfOffset + (n.val - 1) * Config.vfStride

/-- The PCI vendor and device ID that function `n` reports (R3, R353). -/
def pciIds (n : Inst) : Nat × Nat := (Config.pciVendor, Config.pciDevice n.val)

/-- Whether function `by_` reaches the BAR2 page of an instance: its own, or any for the physical function
(R176). -/
def reachesPage (s : State) (by_ inst : Inst) : Bool := fnUp s by_ && (by_ == 0 || by_ == inst)

def getRing (s : State) (n j : Nat) : Ring := tabGet {} s.mbx.rings (n * 4 + j)
def setRing (s : State) (n j : Nat) (v : Ring) : State := { s with mbx.rings := tabPut s.mbx.rings (n * 4 + j) v }

/-- Whether an instance is ENABLED (R362). -/
def instEnabled (s : State) (n : Nat) : Bool := (getInst s n).st == .enabled

/-- A write to the bits `mask` of the register at `off` of a page, which holds `old`: it meets the orders of its cycle (R372),
and what it has lost keeps its value. (DESIGN CHOICE, log entry 73) -/
def pageTo (s : State) (by_ inst : Inst) (off mask old v : Nat) (f : State → Nat → State) : State :=
  let x : Order := { at_ := s.now, rank := masterRank (some by_), inst := by_, on := .reg (2 ^ 26 + inst * 2 ^ 16 + off), mask := mask
                     effect := v &&& mask, contains := false }
  let (s, keep) := contendBits s x
  if keep = mask then f s v else f s ((v &&& keep) ||| (old ^^^ (old &&& keep)))

/-- A write of RINGj.TAIL (R176, R177), ignored unless the instance is ENABLED (R363, R367). -/
def tailWrite (s : State) (by_ inst : Inst) (j : Nat) (v : W32) : State :=
  if instEnabled s inst then
    pageTo s by_ inst (j * 0x40 + 0x10) (2 ^ 32 - 1) (getRing s inst j).tail.toNat v.toNat
      fun s v => setRing s inst j { getRing s inst j with tail := BitVec.ofNat 32 v }
  else s

/-- RING_DOORBELL (R176, R177). -/
def execRingDoorbell (by_ inst : Inst) (j : Fin 4) (tail : W32) (s : State) : Out :=
  if reachesPage s by_ inst then .next (tailWrite s by_ inst j tail) else .next s

/-- A write of RINGj.CTL (R176): PRIV_OK is writable in instance 0 only. -/
def ringCtl (r : Ring) (inst : Inst) (v : Nat) : Ring :=
  { r with enable := bit v 0, prioMax := BitVec.ofNat 3 (bits v 1 3), log2 := BitVec.ofNat 5 (bits v 4 5)
           privOk := if inst = 0 then bit v 9 else r.privOk }

/-- RINGj.CTL as it reads (R176). -/
def ctlBits (r : Ring) : Nat := b2n r.enable + r.prioMax.toNat * 2 + r.log2.toNat * 2 ^ 4 + b2n r.privOk * 2 ^ 9

/-- A write of RINGj.CTL (R176). -/
def ctlWrite (s : State) (by_ inst : Inst) (j v : Nat) : State :=
  pageTo s by_ inst (j * 0x40 + 0x08) (if inst = 0 then 0x3FF else 0x1FF) (ctlBits (getRing s inst j)) v
    fun s v => setRing s inst j (ringCtl (getRing s inst j) inst v)

/-- RING_ENABLE (R176). -/
def execRingEnable (by_ inst : Inst) (j : Fin 4) (ctl : W32) (s : State) : Out :=
  if reachesPage s by_ inst then .next (ctlWrite s by_ inst j ctl.toNat) else .next s

/-- CLR_STOP (R176): STOPPED and ERR are cleared. -/
def clearStop (r : Ring) : Ring := { r with stopped := false, err := 0 }

def execClrStop (by_ inst : Inst) (j : Fin 4) (s : State) : Out :=
  if reachesPage s by_ inst then .next (setRing s inst j (clearStop (getRing s inst j))) else .next s

/-- The number of the epoch, plus 1. (DESIGN CHOICE, log entry 63) -/
def epochNo (s : State) : Nat := nsNow s / 2 ^ 20 + 1

/-- A refused access of a function (R351, R13): the counter, and one record per function and epoch. (DESIGN CHOICE, log
entry 33) -/
def accessError (s : State) (fn : Inst) : State :=
  let i := getInst s fn
  let i := { i with accErr := i.accErr + 1 }
  let s := setInst s fn i
  if i.accEpoch = some (epochNo s) then s
  else
    emit (setInst s fn { i with accEpoch := some (epochNo s) }) evHost actRefused (some fn) (unitFn fn)
      ([2, 0, 0, 0] ++ toBytes i.accErr.toNat 4)

/-- An add to the counter at CNT_ADDR (R176, R184): one that is not valid, or lies outside the instance's memory, is
refused and reported (R13). (DESIGN CHOICE, log entry 33) -/
def cntAddNow (s : State) (inst : Inst) (v : W64) : State :=
  let a := (getInst s inst).cntAddr.toNat
  if a % 8 == 0 && inInstStacked s inst a 8 then counterAdd s a v else accessError s inst

/-- A write of CNT_ADD by halves (R176): the low half is held, and the high half performs the add. -/
def cntAddWrite (s : State) (inst : Inst) (w : CntWrite) : State :=
  let i := getInst s inst
  match w with
  | .low v => setInst s inst { i with cntLow := some v }
  | .high v => cntAddNow (setInst s inst { i with cntLow := none }) inst (v ++ i.cntLow.getD 0)
  | .full v => cntAddNow s inst v

/-- CNT_ADD (R176, R363). -/
def execCntAdd (by_ inst : Inst) (w : CntWrite) (s : State) : Out :=
  if reachesPage s by_ inst && instEnabled s inst then .next (cntAddWrite s inst w) else .next s

/-- A write of ABORT_TID (R176, R192) by a function, or by the Keep when `by_` names none: bit 31 must be 1, and the thread
the instance's own; any other write is refused and reported (R13). (DESIGN CHOICE, log entry 33) -/
def abortTidWrite (s : State) (by_ : Option Inst) (inst : Inst) (v : W32) : State :=
  let t := v.toNat % 2 ^ 22
  if bit v.toNat 31 && tidInInst s inst t then
    orderAbort s t by_ (match by_ with | none => 1 | some b => if b = 0 ∧ inst ≠ 0 then 2 else 0)
  else accessError s inst

/-- ABORT_TID (R192). -/
def execAbortTid (by_ inst : Inst) (v : W32) (s : State) : Out :=
  if reachesPage s by_ inst then .next (abortTidWrite s (some by_) inst v) else .next s

/-! ## Launch records -/

/-- A launch record (R178). -/
structure LaunchRec where
  entry : W64
  arg : W64
  statusAddr : W64
  doneCnt : W64
  userTag : W64
  tid : Nat
  prio : Nat
  flags : Nat
  cadence : Nat
  group : Nat
  spire : Nat
  reserved : Bool
  deriving DecidableEq, Repr

/-- The fields of the 64 bytes of a record (R178); `reserved` says that a reserved bit is set. -/
def launchRec (l : List Byte) : LaunchRec :=
  let w (o : Nat) : W64 := BitVec.ofNat 64 (at_ l o 8)
  { entry := w 0x00, arg := w 0x08, statusAddr := w 0x10, doneCnt := w 0x18, userTag := w 0x20
    tid := at_ l 0x28 4 % 2 ^ 22, prio := at_ l 0x2C 1 % 8, flags := at_ l 0x2D 1
    cadence := at_ l 0x2E 1, group := at_ l 0x2F 1, spire := at_ l 0x30 1
    reserved := at_ l 0x28 4 / 2 ^ 22 != 0 || at_ l 0x2C 1 / 8 != 0 || at_ l 0x2D 1 / 32 != 0 ||
      at_ l 0x30 1 / 8 != 0 || at_ l 0x31 15 != 0 }

/-- Whether a thread ID is in use (R168). -/
def tidBusy (s : State) (t : Nat) : Bool := (getThr s t).st != .free

/-- The lowest free thread ID of an instance's range (R178 AUTO). (DESIGN CHOICE, log entry 31) -/
def autoTid (s : State) (inst : Nat) : Option Nat :=
  let b := regFld s (.inst inst) 0x010 0 11 * 4096
  let n := regFld s (.inst inst) 0x010 16 11 * 4096
  let used := s.mbx.threads.filter fun (k, th) => th.st != .free && b ≤ k && k < b + n
  firstOf (fun t => decide (t < b + n) && !tidBusy s t) (upFrom b (used.length + 1))

/-- Pinned threads, by a test. -/
def pinnedCount (s : State) (p : Thread → Bool) : Nat := (s.mbx.threads.filter fun (_, th) => th.pin && p th).length

/-- The Spire that a record names, or one that could take its thread now (R172, R178). -/
def launchHome (s : State) (spire : Nat) : Option Nat :=
  if spire < 4 then (if spireInService s spire then some spire else none) else bestSpire s

/-- Whether a pinned launch exceeds a limit of R173: 8 slots of each core in service of its Spire, and the
instance's PINQ. -/
def pinExceeds (s : State) (inst : Inst) (home : Option Nat) : Bool :=
  decide (instPinq s inst ≤ pinnedCount s fun th => th.inst == inst) ||
    match home with
    | some n => decide (((spireCores n).filter (coreInService s)).length * 8 ≤ pinnedCount s fun th => th.home.val == n)
    | none => decide (2048 ≤ pinnedCount s fun _ => true)

/-- The reason for which a record is refused, if any, in the order of R178, LAUNCH_COUNTER before
LAUNCH_ACCESS. (DESIGN CHOICE, log entry 33) -/
def launchRefusal (s : State) (inst : Inst) (j : Nat) (r : LaunchRec) : Option Nat :=
  let auto := bit r.flags 0
  if r.reserved || r.entry.toNat % 8 != 0 || r.statusAddr.toNat % 8 != 0 || r.doneCnt.toNat % 8 != 0 || 4 < r.spire ||
      (bit r.flags 4 && !bit r.flags 2) then some 0x01
  else if !auto && !tidInInst s inst r.tid then some 0x02
  else if !auto && tidBusy s r.tid then some 0x03
  else if auto && (autoTid s inst).isNone then some 0x04
  else if bit r.flags 2 && cadInst s r.cadence != inst.val then some 0x05
  else if r.doneCnt != 0 && !isStacked r.doneCnt.toNat then some 0x0A
  else if !inInst s inst r.entry.toNat 8 || (r.statusAddr != 0 && !inInst s inst r.statusAddr.toNat 8) ||
      (r.doneCnt != 0 && !inInst s inst r.doneCnt.toNat 8) then some 0x06
  else if bit r.flags 1 && pinExceeds s inst (launchHome s r.spire) then some 0x07
  else if bit r.flags 3 && !(getRing s inst j).privOk then some 0x08
  else if (launchHome s r.spire).isNone then some 0x09
  else none

/-- A refused record (R178): the status, the counter, and the THREAD records. -/
def refuseLaunch (s : State) (inst : Inst) (r : LaunchRec) (code : Nat) : State :=
  let s := if r.statusAddr != 0 && inInst s inst r.statusAddr.toNat 8 then
      wrNat s inst r.statusAddr.toNat 8 (exitStatus 2 code 0) else s
  let s := if r.doneCnt != 0 && r.doneCnt.toNat % 8 == 0 && inInstStacked s inst r.doneCnt.toNat 8 then
      counterAdd s r.doneCnt.toNat 1 else s
  emitThread3 s inst r.tid 2 code 0 0 r.userTag

/-- The thread of an accepted record (R174, R176, R179). -/
def newThread (s : State) (inst : Inst) (j t : Nat) (r : LaunchRec) (home : Nat) : Thread :=
  let k := getCad s r.cadence
  let bound := bit r.flags 2
  { g := [(1, r.arg), (2, BitVec.ofNat 64 t), (3, r.userTag)], pc := r.entry, pred := 1
    pin := bit r.flags 1, priv := bit r.flags 3, group := BitVec.ofNat 8 r.group, inst := inst
    prio := BitVec.ofNat 3 (min r.prio (min (getRing s inst j).prioMax.toNat (instPrioMax s inst)))
    cad := BitVec.ofNat 8 (if bound then r.cadence else 0), bound := bound
    lastTick := if bound then k.tick else 0, lastOcc := if bound then k.occ else 0
    step := gstep s inst r.group, arg := r.arg, userTag := r.userTag, statusAddr := r.statusAddr, doneCnt := r.doneCnt
    home := Fin.ofNat 4 home, homeOpen := r.spire == 4 }

/-- An accepted record starts its thread (R178, R179): READY, or waiting for a tick under START_TICK. -/
def startThread (s : State) (inst : Inst) (j : Nat) (r : LaunchRec) : State :=
  let t := if bit r.flags 0 then (autoTid s inst).getD 0 else r.tid
  let home := (launchHome s r.spire).getD 0
  let s := setThr s t (newThread s inst j t r home)
  let s := { s with
    keep.restoreBy := s.keep.restoreBy.filter fun x => x.toNat != t
    img.zeroiseBy := s.img.zeroiseBy.filter fun x => x.toNat != t }
  if bit r.flags 4 && (getCad s r.cadence).running then
    let s := beginWait s t .cadence 0 0 0 none
    setThr s t { getThr s t with startTick := true }
  else makeRunnable s t

/-- Whether a ring has a record to be read (R177, R363). -/
def ringPending (s : State) (n j : Nat) : Bool :=
  let r := getRing s n j
  instEnabled s n && !s.host.scrub && r.enable && !r.stopped && r.tail != r.head

/-- The ring that is read next (R177): ring 0 first, rings of one number round-robin across instances. The
last instance served for ring number `j` is kept under number `j` of `arb`. -/
def nextRing (s : State) : Option (Nat × Nat) :=
  let pick (j : Nat) : Option Nat :=
    firstOf (fun n => ringPending s (n % 32) j) (upFrom (tabGet 31 s.arb j + 1) 32)
  match firstOf (fun j => (pick j).isSome) (upFrom 0 4) with
  | some j => (pick j).map fun n => (n % 32, j)
  | none => none

/-- The error that stops a ring (R176, R177). -/
def ringError (s : State) (n : Inst) (r : Ring) : Option Byte :=
  let k := r.log2.toNat
  let a := r.base.toNat + r.head.toNat % 2 ^ k * 64
  if r.base.toNat % 64 ≠ 0 then some 1
  else if k < 6 ∨ 16 < k then some 2
  else if 2 ^ k < (r.tail - r.head).toNat then some 3
  else if !inInst s n a 64 || lineBad s a then some 4
  else none

/-- A ring stops (R177): its error, one HOST record, and the interrupt IRQ1. -/
def stopRing (s : State) (n : Inst) (j : Nat) (err : Byte) : State :=
  let s := setRing s n j { getRing s n j with stopped := true, err := err }
  raiseIrq (emit s evHost actNone (some n) (unitFn n) [1, BitVec.ofNat 8 j, err]) n 1

/-- LAUNCH_RECORD (R177, R178): the record at HEAD of the ring that is read next. -/
def execLaunchRecord (inst : Inst) (j : Fin 4) (s : State) : Out :=
  if nextRing s = some (inst.val, j.val) then
    let s := { s with arb := tabPut s.arb j inst }
    let r := getRing s inst j
    match ringError s inst r with
    | some err => .next (stopRing s inst j err)
    | none =>
      let l := launchRec (rdBytes s (r.base.toNat + r.head.toNat % 2 ^ r.log2.toNat * 64) 64)
      let s := bumpFree (setRing s inst j { r with head := r.head + 1 })
      match launchRefusal s inst j l with
      | some code => .next (refuseLaunch s inst l code)
      | none => .next (startThread s inst j l)
  else .next s

end Sys2Proof.Machine
end

