-- ==== Sys2Proof/Machine/Fabric.lean ====
section
/-! DEFINITION. The fabric router: routes, slices, credits, the egress of links, and the sending of frames (R309 to R318, R348). -/

namespace Sys2Proof.Machine

open Sys2Proof

/-! ## Links and routes -/

def getLink (s : State) (l : Nat) : LinkSt := tabGet {} s.fab.links l
def setLink (s : State) (l : Nat) (v : LinkSt) : State := { s with fab.links := tabPut s.fab.links l v }

/-- A field of LINKk_CFG (R308). -/
def linkCfg (s : State) (l lo w : Nat) : Nat := regFld s .fab (0x100 + 8 * l) lo w

/-- Whether a link is a PLANE link (R308 KIND). -/
def isPlane (s : State) (l : Nat) : Bool := linkCfg s l 1 1 == 1

/-- Whether a link is ACTIVE (R304), with its group's domain usable (R405). -/
def linkActive (s : State) (l : Nat) : Bool := l < 36 && (getLink s l).st == .active

/-- The device's own ID (R455). -/
def ownDev (s : State) : Nat := regFld s .global 0x00C 0 16

/-- The routing entry of a destination in the bank in force (R316, R319). The entries of the device itself and of 0xFFFF
are ignored. -/
def routeOf (s : State) (d : Nat) : Nat := if d = ownDev s ∨ d = 0xFFFF then 0 else (tabGet 0 s.reg.routeAct d).toNat

/-- Whether a device is reached in a slice (R317): ALLOWED, with that SLICE. -/
def reaches (s : State) (slice d : Nat) : Bool := bit (routeOf s d) 0 && bits (routeOf s d) 16 12 == slice

/-- The ACTIVE plane links that reach a destination (R316). -/
def planesTo (s : State) (d : Nat) : List Nat :=
  (upFrom 0 36).filter fun k => bit (routeOf s d) (28 + k) && isPlane s k && linkActive s k

/-- The link of a list on which the `n`-th frame goes, in proportion to the links' widths (R316). -/
def spread (s : State) : List Nat → Nat → Option Nat
  | [], _ => none
  | l :: r, n => let w := max 1 (getLink s l).width; if n < w then some l else spread s r (n - w)

/-- The first path of R316 that is available for the `n`-th frame to a destination. -/
def pathTo (s : State) (d n : Nat) : Option Nat :=
  let e := routeOf s d
  let herd := bits e 2 6
  let relay := bits e 9 6
  let planes := planesTo s d
  let total := (planes.map fun l => max 1 (getLink s l).width).foldl (· + ·) 0
  if bit e 1 && !isPlane s herd && linkActive s herd then some herd
  else if !planes.isEmpty then spread s planes (n % total)
  else if bit e 8 && !isPlane s relay && linkActive s relay then some relay
  else none

/-! ## Sending -/

/-- Classes (R310). -/
def cReq : BitVec 2 := 0
def cRsp : BitVec 2 := 1
def cColl : BitVec 2 := 2
def cTime : BitVec 2 := 3

/-- Types delivered reliably (R313). -/
def reliable (typ : Byte) : Bool := (1 ≤ typ.toNat && typ.toNat ≤ 3) || (0x10 ≤ typ.toNat && typ.toNat ≤ 0x12)

/-- The credits that a frame needs, in 64-byte units (R312). (DESIGN CHOICE, log entry 60) -/
def creditCost (f : Frame) : Nat := (24 + f.payload.length + 63) / 64

/-- The pool of a frame (R312). -/
def poolOf (f : Frame) : Nat := f.cls.toNat * 2 + b2n f.hop

/-- Whether a link takes a frame now (R312): credits on a herd link, no pause on a plane link; TIME is never
paused. Link-local types need no credit. -/
def linkTakes (s : State) (l : Nat) (f : Frame) : Bool :=
  let k := getLink s l
  if isPlane s l then f.cls == cTime || !k.paused.getLsbD f.cls.toNat
  else f.typ == 0x1C || f.typ == 0x1D || decide (creditCost f ≤ tabGet 0 k.credits (poolOf f))

/-- The priority of a class in the IEEE 802.1Q tag (R311). -/
def pcpOf (s : State) (c : BitVec 2) : Nat := regFld s .fab 0x010 (4 * c.toNat) 3

/-- The timestamps that the MAC puts into a time message or a delay exchange as it leaves (R149, R321). -/
def stamped (s : State) (f : Frame) : Frame :=
  if f.typ = 0x18 then { f with payload := toBytes (nsNow s) 8 ++ toBytes s.time.belfry.frac.toNat 2 ++ f.payload.drop 10 }
  else if f.typ = 0x19 then { f with payload := toBytes (timeFx s) 10 ++ f.payload.drop 10 }
  else if f.typ = 0x1A then { f with payload := f.payload.take 18 ++ toBytes (timeFx s) 10 }
  else f

/-- A frame leaves on a link. -/
def putTx (s : State) (l : Nat) (x : TxFrame) : State :=
  { s with fab.tx := { x with link := some (Fin.ofNat 36 l), frame := stamped s x.frame, pcp := pcpOf s x.frame.cls } :: s.fab.tx }

/-- A frame of the device's own (R309). On a plane link a time message is an IEEE 1588 Sync message (R321). -/
def mkFrame (s : State) (cls : BitVec 2) (typ : Byte) (dst : Nat) (slice : Nat) (seq : W32) (addr : Nat) (payload : List Byte) : Frame :=
  { version := 1, cls := cls, hop := false, typ := typ, src := BitVec.ofNat 16 (ownDev s), dst := BitVec.ofNat 16 dst
    slice := BitVec.ofNat 12 slice, seq := seq, len := BitVec.ofNat 16 payload.length, addr := BitVec.ofNat 64 addr
    payload := payload, fcsOk := true, reservedSet := false }

/-- The buffer of a received frame on a herd link is free again: its credits go back (R312). (DESIGN CHOICE, log entry 60) -/
def returnCredit (s : State) (l : Nat) (f : Frame) : State :=
  if isPlane s l then s
  else putTx s l { link := none, frame := mkFrame s cTime 0x1D (getLink s l).partner.toNat 0 0 0 (toBytes (creditCost f + poolOf f * 4096) 2) }

/-- A frame is transmitted on a link, using credits on a herd link; a relayed frame leaves the buffer that it stood in.
(DESIGN CHOICE, log entry 60) -/
def transmit (s : State) (l : Nat) (x : TxFrame) : State :=
  let k := getLink s l
  let f := x.frame
  let k := { k with headAt := tabPut k.headAt f.cls.toNat s.now }
  let k := if isPlane s l || f.typ == 0x1C || f.typ == 0x1D then k
    else { k with credits := tabPut k.credits (poolOf f) (tabGet 0 k.credits (poolOf f) - creditCost f) }
  let s := putTx (setLink s l k) l x
  match x.buffered with
  | some b => returnCredit s b { f with hop := false }
  | none => s

/-- The herd link by which a relayed frame goes on (R318). -/
def relayTo (s : State) (d : Nat) : Option Nat :=
  let e := routeOf s d
  let h := bits e 2 6
  if bit e 1 && !isPlane s h && linkActive s h then some h else none

/-- The link by which a frame goes out: its own, that of the relay, or the first path available. -/
def outLink (s : State) (x : TxFrame) : Option Nat :=
  match x.via with
  | some l => if linkActive s l then some l.val else none
  | none => if x.frame.hop then relayTo s x.frame.dst.toNat else pathTo s x.frame.dst.toNat x.num

/-- The frames that wait at the egress of a link, the oldest first. -/
def waitingAt (s : State) (l : Nat) : List TxFrame := (s.fab.tx.filter fun x => x.link.isNone && outLink s x == some l).reverse

/-- NTH of a link's egress (R349, R461). -/
def egressNth (s : State) (l : Nat) : Nat := regFld s .fab (0x300 + 4 * l) 0 8

/-- The grant of a frame that finds nothing else raised at the egress counts as any other (R343). -/
def countEgress (s : State) (l : Nat) (c : BitVec 2) : State :=
  if c = cTime then s else arbCount s (arbEgress l) (egressNth s l ≤ tabGet 0 s.arb (arbEgress l) + 1)

/-- A frame goes out on its link, unless one of its pool waits there before it, or the link does not take it; else it
waits. -/
def offer (s : State) (x : TxFrame) : State :=
  match outLink s x with
  | some l =>
    if linkTakes s l x.frame && !(waitingAt s l).any (fun y => poolOf y.frame == poolOf x.frame) then
      transmit (countEgress s l x.frame.cls) l x
    else { s with fab.tx := x :: s.fab.tx }
  | none => { s with fab.tx := x :: s.fab.tx }

/-- A frame goes out, or waits for a path or for credits. -/
def sendFrame (s : State) (f : Frame) (num : Nat) : State := offer s { link := none, frame := f, num := num, readyAt := s.now }

/-- The frame that a class can send next on a link: the oldest one at the head of its pool that the link takes. -/
def headOf (s : State) (l : Nat) (c : BitVec 2) : Option TxFrame :=
  let w := (waitingAt s l).filter fun x => x.frame.cls == c
  firstOf (fun x => linkTakes s l x.frame && (w.takeWhile fun y => y != x).all fun y => poolOf y.frame != poolOf x.frame) w

/-- The requester that a class is at a link's egress (R311, R348): REQ 0, RSP 1, COLL 2, by the age of its head. -/
def egressReq (s : State) (l : Nat) (x : TxFrame) : ArbReq :=
  let c := x.frame.cls.toNat
  ⟨if c = 1 then 7 else if c = 2 then 6 else 5, max x.readyAt (tabGet 0 (getLink s l).headAt c), c⟩

/-- A waiting frame leaves the queue. -/
def unqueue (s : State) (x : TxFrame) : State := { s with fab.tx := s.fab.tx.reverse.erase x |>.reverse }

/-- One frame is granted at a link's egress (R311, R348): TIME first, the others by the age-fair arbiter. -/
def grantEgress (s : State) (l : Nat) : State :=
  match headOf s l cTime with
  | some x => transmit (unqueue s x) l x
  | none =>
    match arbPick s (arbEgress l) (egressNth s l) (([cReq, cRsp, cColl].filterMap (headOf s l)).map (egressReq s l)) with
    | some (r, reserved) =>
      match headOf s l (BitVec.ofNat 2 r.index) with
      | some x => transmit (unqueue (arbCount s (arbEgress l) reserved) x) l x
      | none => s
    | none => s

/-- The frames that wait go out, as far as paths and credits allow. (DESIGN CHOICE, log entry 60) -/
def retryWaiting (s : State) : State :=
  (upFrom 0 36).foldl (fun s l => (waitingAt s l).foldl (fun s _ => grantEgress s l) s) s

/-- The bytes of a frame on the medium from its MAC addresses to its payload, with its tag and EtherType (R309). The
fourth byte of a MAC address is 0, and the device ID follows with its high byte first. (DESIGN CHOICE, log entry 61) -/
def wireBytes (x : TxFrame) : List Byte :=
  let f := x.frame
  let mac (d : W16) : List Byte := [0x02, 0x1F, 0x8A, 0x00, (d >>> 8).setWidth 8, d.setWidth 8]
  mac f.dst ++ mac f.src ++ [0x81, 0x00, BitVec.ofNat 8 (x.pcp * 32), 0x00, 0x88, 0xB5] ++
    [BitVec.ofNat 8 (f.version.toNat + 16 * f.cls.toNat + 64 * b2n f.hop), f.typ] ++ toBytes f.src.toNat 2 ++ toBytes f.dst.toNat 2 ++
    toBytes f.slice.toNat 2 ++ toBytes f.seq.toNat 4 ++ toBytes f.len.toNat 2 ++
    toBytes (f.cred.toNat + 4096 * f.credPool.toNat) 2 ++ toBytes f.addr.toNat 8 ++ f.payload

/-- A frame that is not delivered reliably; such frames are spread one by one (R316). -/
def sendPlain (s : State) (cls : BitVec 2) (typ : Byte) (dst slice addr : Nat) (payload : List Byte) : State :=
  let n := s.fab.spread
  sendFrame { s with fab.spread := n + 1 } (mkFrame s cls typ dst slice 0 addr payload) n

/-- PATH_WAIT starts for a destination that has no path (R313). -/
def notePath (s : State) (dst : Nat) : State :=
  if (pathTo s dst 0).isSome then { s with fab.pathWait := tabDel s.fab.pathWait dst }
  else if tabHas s.fab.pathWait dst then s
  else { s with fab.pathWait := tabPut s.fab.pathWait dst (s.now + regFld s .fab 0x014 16 16 * 40000000) }

/-- Whether a frame overlaps a WRITE of its operation to the same device that has not been acknowledged (R314). -/
def behindWrite (us : List TxCopy) (op : Option Nat) (dst : W16) (f : Frame) : Bool :=
  let n := if f.typ = 0x02 then ofBytes (f.payload.take 4) else 8
  (f.typ == 0x02 || f.typ == 0x03) && op.isSome && us.any fun c =>
    c.op == op && c.dst == dst && c.frame.typ == 0x01 &&
      decide (c.frame.addr.toNat < f.addr.toNat + n ∧ f.addr.toNat < c.frame.addr.toNat + c.frame.payload.length)

/-- A frame that is delivered reliably for an operation (R313): numbered, kept until it is acknowledged, and
sent, unless it must follow a WRITE (R314). (DESIGN CHOICE, log entry 60) -/
def sendReliable (s : State) (op : Option Nat) (inst : Inst) (cls : BitVec 2) (typ : Byte) (dst addr : Nat) (payload : List Byte) : State :=
  let k := dst * 4 + cls.toNat
  let seq := tabGet 0 s.fab.txSeq k + 1
  let f := mkFrame s cls typ dst (instSlice s inst) seq addr payload
  let held := behindWrite s.fab.unacked op (BitVec.ofNat 16 dst) f
  let s := { s with
    fab.txSeq := tabPut s.fab.txSeq k seq
    fab.unacked := s.fab.unacked ++ [{ dst := BitVec.ofNat 16 dst, frame := f, op := op, inst := inst, gen := (getInst s inst).gen
                                       tries := 0, sentAt := s.now, held := held }] }
  if held then s else notePath (sendFrame s f seq.toNat) dst

/-- Frames that no longer follow an unacknowledged WRITE go out (R314). -/
def sendHeld (s : State) : State :=
  let ready (us : List TxCopy) (c : TxCopy) : Bool := c.held && !behindWrite us c.op c.dst c.frame
  let go := s.fab.unacked.filter (ready s.fab.unacked)
  let s := { s with fab.unacked := s.fab.unacked.map fun c => if ready s.fab.unacked c then { c with held := false, sentAt := s.now } else c }
  go.foldl (fun s c => notePath (sendFrame s c.frame c.frame.seq.toNat) c.dst.toNat) s

/-- The bytes of a write to a peer, as WRITE frames of at most 1,024 bytes (R310); `fuel` bounds their
number. -/
def sendWrites (op : Option Nat) (inst : Inst) (dst : Nat) : Nat → Nat → List Byte → State → State
  | 0, _, _, s => s
  | fuel + 1, a, l, s =>
    if l.isEmpty then s
    else sendWrites op inst dst fuel (a + 1024) (l.drop 1024) (sendReliable s op inst cReq 0x01 dst a (l.take 1024))

/-- Frames of an operation that have not been acknowledged. -/
def unackedOf (s : State) (e : Nat) : List TxCopy := s.fab.unacked.filter fun c => c.op == some e

/-- The FABRIC record of an operation that fails (R315, R484). (DESIGN CHOICE, log entry 64) -/
def emitFabricOp (s : State) (e dst : Nat) (r : Byte) : State :=
  let o := getOp s e
  emit s evFabric actNone (some o.inst) (unitOp e)
    (toBytes dst 2 ++ [1, r] ++ toBytes (handle44 e o) 6 ++ toBytes (instSlice s o.inst) 2)

/-- An operation fails for its peer (R315): its result, with the destination in DETAIL, and its record. -/
def failPeer (s : State) (e dst : Nat) (r : Byte) : State :=
  if (getOp s e).result.isSome then s
  else
    let s := setResult s e r dst
    let s := { s with fab.unacked := s.fab.unacked.filter fun c => c.op != some e }
    emitFabricOp s e dst r

end Sys2Proof.Machine
end

