-- ==== Sys2Proof/Machine/BelfryTime.lean ====
section
/-! DEFINITION. The Belfry: its count, references, states and steering (R143 to R157, R321), and the passing
of time. -/

namespace Sys2Proof.Machine

open Sys2Proof

def setBelfry (s : State) (b : Belfry) : State := { s with time.belfry := b }

/-- A Belfry event's unit (R385). -/
def unitBelfry : UnitId := unitOf 0xE 1

/-! ## The count (R143) -/

/-- NS set by counting: a carry into a new multiple of 2^20 is an epoch boundary. (DESIGN CHOICE, log entry 4) (DESIGN CHOICE, log entry 14) -/
def countTo (now ns frac : Nat) (b : Belfry) : Belfry :=
  let old := b.ns.toNat / 2 ^ 20
  { b with
    ns := BitVec.ofNat 64 ns
    frac := BitVec.ofNat 16 frac
    boundary := if old < ns / 2 ^ 20 then some (now, ns / 2 ^ 20 * 2 ^ 20) else b.boundary }

/-- One Dome cycle of the count: 40,960 fraction units, adjusted by FREQ_ADJ parts per 10^12 (R143, R145). (DESIGN CHOICE, log entry 2) -/
def belfryCycle (now : Nat) (b : Belfry) : Belfry :=
  let acc := b.steerAcc + 40960 * b.freqAdj.toInt
  let v := b.ns.toNat * 65536 + b.frac.toNat + (40960 + acc / 1000000000000).toNat
  countTo now (v / 65536 % 2 ^ 64) (v % 65536) { b with steerAcc := acc % 1000000000000 }

/-- A step of the timebase (R152): NS is set, FRAC becomes 0; a forward step that lands on or passes a
multiple of 2^20 is one epoch boundary (R143). -/
def stepTo (s : State) (ns : W64) : State :=
  let b := s.time.belfry
  setBelfry s { b with
    ns := ns, frac := 0, steerAcc := 0, timeValid := true
    boundary := if b.ns.toNat / 2 ^ 20 < ns.toNat / 2 ^ 20 then some (s.now, ns.toNat) else b.boundary }

/-- Whether the conditions of R152 allow a step to a value, given as a phase error in 2^−8 ns. -/
def mayStep (s : State) (err : Int) : Bool :=
  !s.time.belfry.timeValid ||
    (regFld s .belfry 0x018 0 1 == 1 && decide (256000000 < err.natAbs) &&
      !(s.time.cadences.any fun (_, c) => c.running) && !(s.time.launches.any fun (_, l) => l.st != .free) &&
      !(s.mbx.threads.any fun (_, t) => waitsOn t .time || (t.st == .suspended && t.prior == some (.waiting, .time))))

/-! ## Sources (R147, R150) -/

def refOf (b : Belfry) : RefSource → Ref
  | .pps => b.pps | .ptp => b.ptp | .fabric => b.fab

def setRef (b : Belfry) (r : RefSource) (v : Ref) : Belfry :=
  match r with
  | .pps => { b with pps := v } | .ptp => { b with ptp := v } | .fabric => { b with fab := v }

/-- The priority of a source in REF_CFG (R145); a grandmaster does not select FABRIC. -/
def refPri (s : State) : RefSource → Nat
  | .pps => regFld s .belfry 0x01C 0 2
  | .ptp => regFld s .belfry 0x01C 2 2
  | .fabric => if regFld s .belfry 0x01C 6 1 = 1 then 0 else regFld s .belfry 0x01C 4 2

/-- The best qualified source (R150): highest priority other than 0; PPS, then PTP, then FABRIC among
equals. -/
def bestRef (s : State) (ok : RefSource → Bool) : Option RefSource :=
  leastBy (fun a b => decide (refPri s b < refPri s a))
    ([RefSource.pps, .ptp, .fabric].filter fun r => ok r && (refOf s.time.belfry r).qualified && refPri s r != 0)

/-- A source is selected (R152): FREERUN and HOLDOVER go to ACQUIRING. -/
def selectRef (s : State) (r : RefSource) : State :=
  let b := s.time.belfry
  let st := match b.state with
    | .freerun => BState.acquiring
    | .holdover => .acquiring
    | x => x
  setBelfry s { b with source := some r, state := st, good := 0, bad := 0, holdExpired := false }

/-- The selected source is given up: the next best one is taken, or HOLDOVER begins (R150, R152). -/
def leaveRef (s : State) : State :=
  match bestRef s (fun _ => true) with
  | some x => setBelfry s { s.time.belfry with source := some x, good := 0, bad := 0 }
  | none => setBelfry s { s.time.belfry with source := none, state := .holdover, holdSince := s.now, holdExpired := false }

/-- With no source selected, a qualified one is taken; a selected source that is disabled, or that is FABRIC on a
grandmaster, is given up as if it were lost (R145, R149). (DEDUCED, log entry 65) -/
def trySelect (s : State) : State :=
  match s.time.belfry.source with
  | some r => if refPri s r = 0 then leaveRef s else s
  | none =>
    match bestRef s (fun _ => true) with
    | some r => selectRef s r
    | none => s

/-! ## Measurement and steering (R152) -/

/-- A steering value held within ±200 ppm (R143). (DESIGN CHOICE, log entry 4) -/
def clampSteer (v : W32) : W32 :=
  let x := v.toInt
  if 200000000 < x then 200000000#32 else if x < -200000000 then BitVec.ofInt 32 (-200000000) else v

/-- What a measurement means for ACQUIRING and LOCKED (R152): |phase error| against 20 ns and 200 ns. -/
def lockState (b : Belfry) (err : Int) : Belfry :=
  match b.state with
  | .acquiring =>
    if err.natAbs ≤ 20 * 256 then
      (if 16 ≤ b.good + 1 then { b with state := .locked, good := 0, bad := 0, unfit := false } else { b with good := b.good + 1 })
    else { b with good := 0 }
  | .locked =>
    if 200 * 256 < err.natAbs then
      (if 4 ≤ b.bad + 1 then { b with state := .acquiring, good := 0, bad := 0 } else { b with bad := b.bad + 1 })
    else { b with bad := 0 }
  | _ => b

/-- A measurement of the selected source: its time `ref` against the local time `loc`, both in 2^−8 ns. A
step sets NS; otherwise the Belfry slews by a steering value of its choice. (DESIGN CHOICE, log entry 4) (DEDUCED, log entry 65) -/
def measure (s : State) (loc ref : Int) : State :=
  let err := ref - loc
  let s := setBelfry s (lockState { s.time.belfry with phaseErr := BitVec.ofInt 32 err } err)
  if mayStep s err then stepTo s (BitVec.ofInt 64 (ref / 256))
  else
    let s := setBelfry s { s.time.belfry with freqAdj := clampSteer (Config.steering s.free) }
    { s with free := s.free + 1 }

/-- The local time of an event `frac` / 256 ns into the present, in 2^−8 ns. -/
def localTime (s : State) (frac : Nat) : Int := (timeFx s / 256 + frac : Nat)

/-- The nearest whole second, in 2^−8 ns. (DEDUCED, log entry 65) -/
def nearestSecond (t : Int) : Int := (t + 128000000000) / 256000000000 * 256000000000

/-- An edge counts towards qualification when it comes 1 s ± 1 µs after the last (R147). -/
def ppsCount (r : Ref) (now : Nat) : Nat :=
  match r.lastSeen with
  | some t => if 39999960000 ≤ now - t ∧ now - t ≤ 40000040000 then r.count + 1 else 1
  | none => 1

/-- A PPS edge qualifies its source after 4 edges in a row with REFCLK_IN in range, and keeps a qualified one so,
whatever its distance from the last edge (R147). -/
def ppsSeen (b : Belfry) (now : Nat) (refclk : BitVec 2) : Belfry :=
  let n := ppsCount b.pps now
  let q := b.pps.qualified || (decide (4 ≤ n) && refclk != 0)
  { b with refclk := refclk
           pps := { qualified := q, since := if q && !b.pps.qualified then now else b.pps.since
                    lastSeen := some now, count := n } }

/-- The phase error of a write of SET_TIME (R152): its value minus NS, in 2^−8 ns. -/
def setTimeErr (s : State) (v : W64) : Int := ((v.toNat : Int) - nsNow s) * 256

/-- The step that SET_TIME has armed at a PPS edge (R152). -/
def ppsStep (s : State) (v : W64) : State :=
  let s := setBelfry s { s.time.belfry with stepAtPps := none }
  if mayStep s (setTimeErr s v) then stepTo s v
  else setBelfry s { s.time.belfry with setIgnored := true }

/-- A lost source (R150, R152): the next best one is taken, or HOLDOVER begins. -/
def loseRef (s : State) (r : RefSource) : State :=
  let b := setRef s.time.belfry r {}
  let s := setBelfry s (if r = .pps then { b with stepAtPps := none } else b)
  if s.time.belfry.source = some r then leaveRef s else s

/-- An edge that comes more than 1.1 s after the last one finds its source lost (R147). -/
def ppsLate (s : State) : State :=
  if s.time.belfry.pps.qualified && s.time.belfry.pps.lastSeen.any (fun t => decide (t + 44000000000 < s.now)) then loseRef s .pps
  else s

/-- PPS_EDGE (R147, R152). -/
def execPpsEdge (refclk : BitVec 2) (frac : Byte) (s : State) : Out :=
  let s := ppsLate s
  let s := trySelect (setBelfry s (ppsSeen s.time.belfry s.now refclk))
  if s.time.belfry.source = some .pps then
    match s.time.belfry.stepAtPps with
    | some v => .next (ppsStep s v)
    | none => .next (measure s (localTime s frac.toNat) (nearestSecond (localTime s frac.toNat)))
  else .next s

/-- PTP_ANNOUNCE (R147, R148): a chosen grandmaster of PTP_DOMAIN, with sync and the delay exchanges of the mechanism
of PTP_P2P complete, qualifies PTP and keeps it qualified. -/
def execPtpAnnounce (domain : Byte) (chosen : Bool) (exchanged : Option Bool) (s : State) : Out :=
  let b := s.time.belfry
  if domain.toNat = regFld s .belfry 0x01C 16 8 ∧ chosen = true then
    let q := b.ptp.qualified || exchanged == some (regFld s .belfry 0x01C 7 1 == 1)
    .next (trySelect (setBelfry s { b with
      ptp := { b.ptp with qualified := q, since := if q && !b.ptp.qualified then s.now else b.ptp.since, lastSeen := some s.now } }))
  else .next s

/-- The timestamp that the management MAC takes now: a multiple of 8 ns (R148), in 2^−8 ns. (DEDUCED, log entry 65) -/
def macStamp (s : State) : Int := localTime s 0 / 2048 * 2048

/-- PTP_SYNC (R147, R148): the grandmaster's time at this instant, against the timestamp of the management MAC. -/
def execPtpSync (remote : W64) (remoteFrac : W16) (s : State) : Out :=
  if s.time.belfry.source = some .ptp then
    .next (measure s (macStamp s) ((remote.toNat : Int) * 256 + (remoteFrac.toNat / 256 : Nat)))
  else .next s

/-- Whether a source is lost (R147): PPS without an edge for 1.1 s or without REFCLK_IN, FABRIC without a
time message for 3 ms. The announce interval of PTP is the network's. -/
def refLost (s : State) (r : RefSource) (refclkGone : Bool) : Bool :=
  let late (n : Nat) : Bool := (refOf s.time.belfry r).lastSeen.any fun t => decide (t + n ≤ s.now)
  match r with
  | .pps => refclkGone || late 44000000000
  | .ptp => true
  | .fabric => late 120000000

/-- REFERENCE_LOSS (R147, R150, R152). -/
def execReferenceLoss (src : RefSource) (refclkGone : Bool) (s : State) : Out :=
  if (refOf s.time.belfry src).qualified && refLost s src refclkGone then
    let s := loseRef s src
    .next (if refclkGone && src == .pps then setBelfry s { s.time.belfry with refclk := 0 } else s)
  else .next s

/-- SOURCE_REVERT (R150): a source of higher priority that has been qualified for 10 s. -/
def execSourceRevert (s : State) : Out :=
  let b := s.time.belfry
  match b.source with
  | none => .next s
  | some r =>
    let ok (x : RefSource) : Bool :=
      decide (refPri s r < refPri s x) && decide ((refOf b x).since + 400000000000 ≤ s.now)
    match bestRef s ok with
    | some x => if regFld s .belfry 0x018 1 1 = 1 then .next (setBelfry s { b with source := some x, good := 0, bad := 0 }) else .next s
    | none => .next s

/-- HOLDOVER_LIMIT (R153). -/
def execHoldoverLimit (s : State) : Out :=
  let b := s.time.belfry
  if b.state = .holdover ∧ b.holdExpired = false ∧ b.holdSince + regFld s .belfry 0x018 16 16 * 40000000000 < s.now then
    .next (emit (setBelfry s { b with holdExpired := true, unfit := true }) evTime actNone none unitBelfry [1, BitVec.ofNat 8 (bCode b.state)])
  else .next s

/-- Whether a completed write of SET_TIME is ignored (R152). -/
def setTimeIgnored (s : State) (v : W64) : Bool :=
  match s.time.belfry.state, s.time.belfry.source with
  | .freerun, _ => !mayStep s (setTimeErr s v)
  | .holdover, _ => !mayStep s (setTimeErr s v)
  | _, some .pps => v.toNat % 1000000000 != 0
  | _, _ => true

/-- A completed write of SET_TIME that is not ignored (R152): a step now, or at the next PPS edge. -/
def setTimeWrite (s : State) (v : W64) : State :=
  match s.time.belfry.state with
  | .freerun => stepTo s v
  | .holdover => stepTo s v
  | _ => setBelfry s { s.time.belfry with stepAtPps := some v }

/-- PPS_OUT_PULSE (R155): PPS_OUT rises within 2 ns of a whole second, unless it is in the 100 µs of a pulse already. -/
def execPpsOutPulse (s : State) : Out :=
  let b := s.time.belfry
  if regFld s .belfry 0x018 2 1 = 1 ∧ b.timeValid = true ∧ b.ns.toNat % 1000000000 < 2 ∧
      (b.ppsOut = false ∨ b.ppsRise + 4000000 ≤ s.now) then
    .next (setBelfry s { b with ppsOut := true, ppsRise := s.now })
  else .next s

/-- PPS_OUT_END (R155): PPS_OUT falls after 100 µs. -/
def execPpsOutEnd (s : State) : Out :=
  let b := s.time.belfry
  if b.ppsOut = true ∧ b.ppsRise + 4000000 ≤ s.now then .next (setBelfry s { b with ppsOut := false }) else .next s

/-! ## Time messages (R149, R321) -/

/-- The links on which fabric time is relayed (R145 RELAY_MASK) and that are ACTIVE. -/
def relayLinks (s : State) : List Nat :=
  (upFrom 0 36).filter fun l => bit (regAct s .belfry 0x030).toNat l && linkActive s l

/-- The PTP domain of the Sync message in whose form a time message travels on a link, if it does (R321). -/
def syncOn (s : State) (l : Nat) : Option Byte := if isPlane s l then some (BitVec.ofNat 8 (regFld s .belfry 0x01C 16 8)) else none

/-- A TIME-class frame to the partner of a link: it waits for credits behind the earlier ones (R312, R314). -/
def sendOnLink (s : State) (l : Nat) (typ : Byte) (payload : List Byte) : State :=
  let f := mkFrame s cTime typ (getLink s l).partner.toNat 0 0 0 payload
  offer s { link := none, frame := { f with sync := if typ = 0x18 then syncOn s l else none }, via := some (Fin.ofNat 36 l), readyAt := s.now }

/-- The payload of a TIME message as it leaves now (R321): nothing lies between its ORIGIN and its transmission, so
CORRECTION is 0. (DEDUCED, log entry 65) -/
def timePayload (s : State) (gm seq : W16) (hops : Nat) : List Byte :=
  toBytes (nsNow s) 8 ++ toBytes s.time.belfry.frac.toNat 2 ++ toBytes gm.toNat 2 ++ toBytes seq.toNat 2 ++
    toBytes hops 1 ++ [0] ++ toBytes 0 8

/-- TIME_MESSAGE_SEND (R149): a grandmaster sends a time message every 1 ms on each relay link. -/
def execTimeMessageSend (s : State) : Out :=
  let b := s.time.belfry
  if regFld s .belfry 0x01C 6 1 = 1 ∧ b.sentAt + 40000000 ≤ s.now then
    let seq := b.timeSeq + 1
    let s := setBelfry s { b with sentAt := s.now, timeSeq := seq, hops := 0, gm := BitVec.ofNat 16 (ownDev s) }
    .next ((relayLinks s).foldl (fun s l => sendOnLink s l 0x18 (timePayload s (BitVec.ofNat 16 (ownDev s)) seq 0)) s)
  else .next s

/-- DELAY_EXCHANGE (R149): every 1 ms, a two-way exchange on each link with relay traffic. -/
def execDelayExchange (s : State) : Out :=
  let b := s.time.belfry
  let fl := regFld s .belfry 0x01C 8 6
  let ls := relayLinks s ++ (if linkActive s fl && !(relayLinks s).contains fl && regFld s .belfry 0x01C 4 2 != 0 then [fl] else [])
  if ls ≠ [] ∧ b.exchangedAt + 40000000 ≤ s.now then
    let s := setBelfry s { b with exchangedAt := s.now }
    .next (ls.foldl (fun s l => sendOnLink s l 0x19 (toBytes (timeFx s) 10)) s)
  else .next s

/-! ## Epoch boundaries (R143, R156, R157) -/

/-- Registers whose pending values were written at least 1,024 ns before an instant (R156). -/
def dueRegs (s : State) (at_ : Nat) : List Nat := (s.reg.pendAt.filter fun (_, w) => decide (w + 40960 ≤ at_)).map Prod.fst

/-- The routing entries that take effect at a boundary (R319, R156). -/
def applyRoutes (s : State) (at_ : Nat) : State :=
  let due := s.reg.routeAt.filter fun (_, w) => decide (w + 40960 ≤ at_)
  due.foldl
    (fun s (d, _) => { s with
      reg.routeAct := tabPut s.reg.routeAct d (tabGet 0 s.reg.routePend d)
      reg.routeAt := tabDel s.reg.routeAt d }) s

/-- The priorities of an instance as they stood before this cycle, by which a decision of the cycle still goes (R347). -/
def noteLimits (s : State) (k : Nat) : State :=
  match blkOf k with
  | some (.inst n) =>
    if k - blkBase (.inst n) = 0x018 ∧ (tabGet (0, 0) s.reg.prioOld k).1 ≠ s.now then
      { s with reg.prioOld := tabPut s.reg.prioOld k (s.now, regAct s (.inst n) 0x018) }
    else s
  | _ => s

/-- The pending values of a register's EPOCH fields take effect. -/
def applyEpochReg (s : State) (k : Nat) : State :=
  let s := noteLimits s k
  let s := match blkOf k with
    | some b => applyReg .epoch s b (k - blkBase b)
    | none => s
  { s with reg.pendAt := tabDel s.reg.pendAt k }

/-- The cadence whose registers hold a BAR0 offset. -/
def cadOfReg (k : Nat) : Option Nat :=
  match blkOf k with
  | some (.cadence i) => some (i * 128 + (k - blkBase (.cadence i)) / 0x20)
  | _ => none

/-- ANCHOR, PERIOD and DEADLINE in force, in 2^−16 ns, 2^−16 ns and ns (R158). -/
def cadVals (s : State) (c : Nat) : Nat × Nat × Nat :=
  let b : Blk := .cadence (c / 128)
  let o := c % 128 * 0x20
  ((regAct s b o).toNat * 65536, (regAct s b (o + 8)).toNat % 2 ^ 50, (regAct s b (o + 0x14)).toNat % 2 ^ 32)

/-- Whether a cadence may run with its values (R159). -/
def cadOk (s : State) (c : Nat) : Bool :=
  let (_, p, d) := cadVals s c
  s.time.belfry.timeValid && decide (1000 * 65536 ≤ p ∧ p ≤ 10000000000 * 65536 ∧ d ≤ p / 65536)

/-- A cadence stops: the threads that wait on it resume with CAD_OFF (R159, R162). -/
def stopCad (s : State) (c : Nat) : State :=
  let s := setCad s c { getCad s c with running := false }
  (s.mbx.threads.filter fun (_, th) => waitsOn th .cadence && th.cad.toNat == c).foldl
    (fun s (t, _) => returnWait s t (cadOff (getThr s t))) s

/-- The lowest j ≥ 0 with ANCHOR + j × PERIOD ≥ E (R159). -/
def firstTick (a p e : Nat) : Nat := if e ≤ a then 0 else (e - a + p - 1) / p

/-- A cadence takes its values at an epoch boundary with NS `e` (R159, R162). One that CFG_ERR keeps stopped with its
ENABLE at 1 starts at a later boundary at which a write of any of its registers takes effect, if it may run then.
(DESIGN CHOICE, log entry 29) -/
def cadEpoch (e : Nat) (s : State) (c : Nat) : State :=
  let k := getCad s c
  if regFld s (.cadence (c / 128)) (c % 128 * 0x20 + 0x10) 0 1 = 0 then (if k.running then stopCad s c else s)
  else if !cadOk s c then
    let s := setCad s c { k with cfgErr := true }
    if k.running then stopCad s c else s
  else
    let v := cadVals s c
    let changed := k.changed || (k.vals.isSome && k.vals != some v)
    let j := firstTick v.1 v.2.1 (e * 65536)
    setCad s c { k with
      running := true, cfgErr := false, vals := some v, changed := changed, j := j
      num := if changed && k.occ != 0 then k.tick.toNat + 1 else j }

/-- Tiles whose step group holds no thread take their STEP-class values, and their swings, at an epoch
boundary (R360). -/
def groupEmpty (s : State) (p : Nat) : Bool :=
  match logTile s p with
  | none => true
  | some t => !bit (townOf s t) 7 || (members s (bits (townOf s t) 0 5) (tileGroup s t)).isEmpty

def stepFallback (s : State) : State :=
  let s := s.reg.vals.pend.foldl
    (fun s (k, _) => match blkOf k with
      | some (.tile n t) => if groupEmpty s (n * 264 + t) then applyReg .step s (.tile n t) (k - blkBase (.tile n t)) else s
      | _ => s) s
  { s with
    tile.tiles := tabMap
      (fun p t => if t.rewrites.isEmpty then t
        else if groupEmpty s p then { t with rewrites := t.rewrites.map fun r => { r with go := r.go || (r.ready && r.c1) } }
        else t) s.tile.tiles }

/-- EPOCH_BOUNDARY (R156, R157): EPOCH-class values and the routing bank apply together, cadences start,
stop or change, and steps without a thread to mark them take place. -/
def execEpochBoundary (s : State) : Out :=
  match s.time.belfry.boundary with
  | none => .next s
  | some (when_, ns) =>
    let s := setBelfry s { s.time.belfry with boundary := none }
    if (regAct s .belfry 0x028).toNat ≤ ns / 2 ^ 20 then
      let due := dueRegs s when_
      let s := applyRoutes (due.foldl applyEpochReg s) when_
      let s := setRegPend (setRegAct s .belfry 0x028 0) .belfry 0x028 0
      let cads := (due.filterMap cadOfReg).eraseDups
      let s := stepFallback (cads.foldl (cadEpoch ns) (trySelect s))
      .next ((upFrom 0 32).foldl serveOpWaiters s)
    else .next (stepFallback s)

/-! ## Ticks -/

/-- The instant of a cadence's next tick, in 2^−16 ns (R159). -/
def nextTick (s : State) (c : Nat) : Nat := (cadVals s c).1 + (getCad s c).j * (cadVals s c).2.1

/-- Whether a launch has still to be dispatched whose dispatch is due by now, at T + 32 ns (R157, R165). -/
def launchOutstanding (s : State) : Bool :=
  s.time.launches.any fun (_, l) => (l.st == .armed && l.group.isNone || l.st == .committed) && decide (l.t.toNat + 32 ≤ nsNow s)

/-- A tick occurs (R159, R160): its number and deadline stand, and the waiting threads return. (DESIGN CHOICE, log entry 13) -/
def tickCad (s : State) (c : Nat) : State :=
  let k := getCad s c
  let d := (cadVals s c).2.2
  let s := setCad s c { k with
    tick := BitVec.ofNat 64 k.num, num := k.num + 1, j := k.j + 1, occ := k.occ + 1
    due := if d = 0 then none else some (nextTick s c + d * 65536) }
  (s.mbx.threads.filter fun (_, th) => waitsOn th .cadence && th.bound && th.cad.toNat == c).foldl
    (fun s (t, _) => returnTick s t) s

/-- CADENCE_TICK (R157, R159). -/
def execCadenceTick (n : Fin 256) (s : State) : Out :=
  if (getCad s n).running && decide (nextTick s n ≤ timeFx s) && s.time.belfry.boundary.isNone && !launchOutstanding s then
    .next (tickCad s n)
  else .next s

end Sys2Proof.Machine
end

