-- ==== Sys2Proof/Machine/Ops.lean ====
section
/-! DEFINITION. The passing of time: what happens on a Dome cycle in which no command waits. -/

namespace Sys2Proof.Machine

open Sys2Proof

/-- The oldest entry of every core's store buffer becomes globally visible. (DESIGN CHOICE, log entry 2) -/
def drainAll (s : State) : State := (s.mbx.cores.map Prod.fst).foldl drainOne s

/-- One Dome cycle passes: 25 units of 25 ps, a count of the Belfry while P12AUX feeds it, and store buffers
that drain. (DESIGN CHOICE, log entry 2) -/
def idle (s : State) : State :=
  let now := s.now + 25
  drainAll { s with now := now, time.belfry := if s.pwr.p12ok then belfryCycle now s.time.belfry else s.time.belfry }

end Sys2Proof.Machine
end

