-- ==== Sys2Proof/Machine/Readout.lean ====
section
/-! DEFINITION. From weights and activations to column results: the reference algorithm (R51, R52), the
conversions of a pass, their trims and roundings (R60 to R62, R82, R83), and the check columns (R65 to
R67). -/

namespace Sys2Proof.Machine

open Sys2Proof

/-! ## Weights and activations -/

/-- A weight cell that is not 0: its row, its cell column, its value. -/
structure Wt where
  row : Nat
  col : Nat
  val : Int
  deriving DecidableEq, Repr

/-- The value of a TERN code; the illegal pair contributes nothing (R54, R55). -/
def ternVal (c : Nat) : Int := if c = 1 then 1 else if c = 3 then -1 else 0

/-- The cells of one byte of WEIGHTS, the byte at offset `off` of its array (R30, R120). -/
def byteWts (off v : Nat) : List Wt :=
  ((upFrom 0 4).map fun j => ⟨off / 128, off % 128 * 4 + j, ternVal (v / 4 ^ j % 4)⟩).filter fun w => w.val != 0

/-- The weight cells of an array whose WEIGHTS lie at an address of the protected region (R120). -/
def weightsAt (s : State) (a : Nat) : List Wt :=
  (s.mem.cells.filter fun (k, _) => a ≤ k && k < a + 65536).flatMap fun (k, v) => byteWts (k - a) v.toNat

/-- The weights of TERN codes by row × 512 + cell column (R54). -/
def cellWts (cells : Tab (BitVec 2)) : List Wt :=
  (cells.map fun (k, c) => ⟨k / 512, k % 512, ternVal c.toNat⟩).filter fun w => w.val != 0

/-- The weight cells that a physical array holds (R54). -/
def arrWts (a : Arr) : List Wt := cellWts a.cells

/-- The value of activation `r` of a vector (R43). -/
def actVal (uns : Bool) (d : List Byte) (r : Nat) : Int :=
  let b := (nth 0 d r).toNat
  if uns then (b : Int) else toSigned 8 b

/-- The two phase values of an activation (R43): the high phase is number 0. -/
def phaseVal (uns : Bool) (d : List Byte) (ph r : Nat) : Int :=
  let a := actVal uns d r
  if ph = 0 then a / 16 else a % 16

/-- The matrix column of a cell column, and the factor its cells carry (R32, R56). -/
def matCol (int2 : Bool) (c : Nat) : Nat := if int2 then c / 2 else c
def cellFactor (int2 : Bool) (c : Nat) : Int := if int2 && c % 2 == 0 then 2 else 1

/-- Columns of results: 256 for INT2 (R56). (DESIGN CHOICE, log entry 53) -/
def colCount (int2 : Bool) : Nat := if int2 then 256 else 512

/-- A sum over cells. -/
def sumWts (l : List Wt) (f : Wt → Int) : Int := (l.map f).foldl (· + ·) 0

/-- The exact sum of segment `sg` of matrix column `c` (R51). -/
def segSum (ws : List Wt) (int2 uns : Bool) (d : List Byte) (c sg : Nat) : Int :=
  sumWts (ws.filter fun w => matCol int2 w.col == c && w.row / 128 == sg)
    fun w => cellFactor int2 w.col * w.val * actVal uns d w.row

/-- The exact phase sum of segment `sg` of cell column `c` (R70). -/
def phaseSum (ws : List Wt) (uns : Bool) (d : List Byte) (ph c sg : Nat) : Int :=
  sumWts (ws.filter fun w => w.col == c && w.row / 128 == sg) fun w => w.val * phaseVal uns d ph w.row

/-! ## Scales and Lantern contributions -/

/-- An E4M3 code in units of 2^−9 (R52). -/
def units9 (v : Nat) : Int :=
  let f := v % 8
  let e := v / 8 % 16
  let m : Nat := if e = 0 then f else (8 + f) * 2 ^ (e - 1)
  if bit v 7 then -(m : Int) else m

/-- Whether an E4M3 code is NaN. -/
def e4m3Nan (v : Nat) : Bool := v % 128 == 127

/-- The scales of a logical array in the scale SRAM, by column × 4 + segment (R84). (DESIGN CHOICE, log entry 7) -/
def scalesOf (t : Tile) (l : Nat) : Tab Byte :=
  (t.scales.filter fun (k, _) => k / 2048 == l).map fun (k, b) => (k % 2048, b)

/-- The block scale of a column and segment among those of a logical array (R84). -/
def scaleOf (sc : Tab Byte) (c sg : Nat) : Nat := (tabGet 0 sc (c * 4 + sg)).toNat

/-- The fields of a Lantern entry (R92). -/
def eArray (e : W64) : Nat := bits e.toNat 0 6
def eRow (e : W64) : Nat := bits e.toNat 6 9
def eCol (e : W64) : Nat := bits e.toNat 15 9
def eVariant (e : W64) : Nat := bits e.toNat 24 6
def eClass (e : W64) : Nat := bits e.toNat 30 2
def eValue (e : W64) : Nat := bits e.toNat 32 8
def eResidue (e : W64) : Nat := bits e.toNat 40 4

/-- The matrix column of an entry, and the factor of its contribution (R92, R96). -/
def eMatCol (int2 : Bool) (e : W64) : Nat := if eClass e = 0 then matCol int2 (eCol e) else eCol e
def eFactor (int2 : Bool) (e : W64) : Int := if eClass e = 0 then cellFactor int2 (eCol e) else 1

/-- The Lantern sum of a column, in units of 2^−18 (R52, R96). -/
def lanternSum (sc : Tab Byte) (int2 uns : Bool) (d : List Byte) (es : List W64) (c : Nat) : Int :=
  ((es.filter fun e => eMatCol int2 e == c).map fun e =>
    eFactor int2 e * units9 (eValue e) * units9 (scaleOf sc c (eRow e / 128)) * actVal uns d (eRow e)).foldl (· + ·) 0

/-- An integer count of units of 2^−18 rounded once to FP32 (R52). -/
def roundUnits18 (q : Int) : Fv := round32 (.fin (decide (q < 0)) q.natAbs (-18))

/-- The scaled sum of a column's four segment sums (R51, R82 stages 4 and 5). -/
def scaledSum (sc : Tab Byte) (c : Nat) (x : Nat → Fv) : Fv :=
  let y (sg : Nat) : Fv := (x sg).mul (toF32 0xA (scaleOf sc c sg))
  (((y 0).add (y 1)).add (y 2)).add (y 3)

/-- Whether a scale of the column is NaN (R51). -/
def scaleNan (sc : Tab Byte) (c : Nat) : Bool := (upFrom 0 4).any fun sg => e4m3Nan (scaleOf sc c sg)

/-- The Lantern's term is added to a column's value (R51, R82 stage 7). -/
def addLantern (sc : Tab Byte) (int2 uns : Bool) (d : List Byte) (es : List W64) (c : Nat) (y : Fv) : Fv :=
  y.add (roundUnits18 (lanternSum sc int2 uns d es c))

/-- One column of the reference algorithm (R51). -/
def exactCol (sc : Tab Byte) (ws : List Wt) (int2 uns : Bool) (d : List Byte) (es : List W64) (c : Nat) : Fv :=
  if scaleNan sc c then ⟨nan32, 0⟩
  else addLantern sc int2 uns d es c (scaledSum sc c fun sg => f32ofInt (segSum ws int2 uns d c sg))

/-- The reference result of a pass (R51); class 0 entries take no part (R95). -/
def exactPass (sc : Tab Byte) (ws : List Wt) (int2 uns : Bool) (d : List Byte) (es : List W64) : List Fv :=
  (upFrom 0 (colCount int2)).map (exactCol sc ws int2 uns d (es.filter fun e => eClass e != 0))

/-! ## Conversions -/

/-- What an analogue pass is read from: the physical array, its trims in force, the codes that its converters give
where they differ from the nearest code, and the vector. -/
structure Conv where
  arr : Arr
  trims : Tab (W16 × W16)
  ws : List Wt
  codes : List (Nat × BitVec 12)
  uns : Bool
  d : List Byte

/-- The nearest code of an integer number of sixteenths, ties to even. (DESIGN CHOICE, log entry 53) -/
def nearest16 (v : Int) : Int :=
  let q := v / 16
  let r := v % 16
  if r < 8 then q else if 8 < r then q + 1 else if q % 2 = 0 then q else q + 1

/-- The charge of check column `g`, in sixteenths of a code (R65). -/
def checkCharge (k : Conv) (ph g sg : Nat) : Int :=
  ((k.arr.checks.filter fun (x, _) => x % 16 == g && x / 16 / 128 == sg).map
    fun (x, n) => n * phaseVal k.uns k.d ph (x / 16)).foldl (· + ·) 0

/-- The code of a conversion (R60, R61): by phase, segment and cell column, the check columns being numbers
512 to 527; a code that is not listed is the nearest to the charge. (DESIGN CHOICE, log entry 53) -/
def codeOf (k : Conv) (ph sg c : Nat) : Int :=
  match firstOf (fun (x, _) => x == (ph * 4 + sg) * 528 + c) k.codes with
  | some (_, v) => v.toInt
  | none => if c < 512 then phaseSum k.ws k.uns k.d ph c sg else nearest16 (checkCharge k ph (c - 512) sg)

/-- The trim of a column: gain 1.0 and offset 0.0 unless another is listed (R83). -/
def trimOf (trims : Tab (W16 × W16)) (c : Nat) : W16 × W16 := tabGet (0x3C00#16, 0#16) trims c

/-- The trimmed conversion value u (R82 stage 1). (DESIGN CHOICE, log entry 53) -/
def trimmed (k : Conv) (ph sg c : Nat) : Fv :=
  let (g, b) := trimOf k.trims c
  ((toF32 0xD g.toNat).mul (f32ofInt (codeOf k ph sg c))).add (toF32 0xD b.toNat)

/-- The phases combined: T = 16 × u_hi + u_lo (R82 stage 2). -/
def combined (k : Conv) (sg c : Nat) : Fv := ((f32ofInt 16).mul (trimmed k 0 sg c)).add (trimmed k 1 sg c)

/-- The segment sum of a matrix column (R82 stages 2 and 3). -/
def segValue (k : Conv) (int2 : Bool) (c sg : Nat) : Fv :=
  if int2 then ((f32ofInt 2).mul (combined k sg (2 * c))).add (combined k sg (2 * c + 1)) else combined k sg c

/-- The column values y of a pass (R82 stages 1 to 5). -/
def readoutY (sc : Tab Byte) (int2 : Bool) (k : Conv) : List Fv :=
  (upFrom 0 (colCount int2)).map fun c => scaledSum sc c (segValue k int2 c)

/-! ## Check columns -/

/-- What the check of a pass finds (R67, R484): the failed blocks, bit 4g + s; the phases that failed; whether
a limit code occurred; and the Δ of largest magnitude over the failed blocks. -/
structure CheckOut where
  mask : Nat := 0
  hi : Bool := false
  lo : Bool := false
  limit : Bool := false
  worst : W32 := 0
  deriving DecidableEq, Repr

/-- A limit code (R62). -/
def limitCode (v : Int) : Bool := v == -2048 || v == 2047

/-- Whether a conversion of a block's 33 in a phase gives a limit code (R62, R67). -/
def blockLimit (k : Conv) (ph g sg : Nat) : Bool :=
  (upFrom (32 * g) 32).any (fun c => limitCode (codeOf k ph sg c)) || limitCode (codeOf k ph sg (512 + g))

/-- The class 0 corrections of a block in a phase (R96), as an exact integer. (DESIGN CHOICE, log entry 53) -/
def blockRepair (k : Conv) (es : List W64) (ph g sg : Nat) : Int :=
  ((es.filter fun e => eClass e == 0 && eCol e / 32 == g && eRow e / 128 == sg).map
    fun e => units9 (eValue e) / 512 * phaseVal k.uns k.d ph (eRow e)).foldl (· + ·) 0

/-- Δ of a block in a phase (R67). -/
def blockDelta (k : Conv) (es : List W64) (ph g sg : Nat) : W32 :=
  let sum := (upFrom (32 * g) 32).foldl (fun acc c => (f32add acc (trimmed k ph sg c).v).v) 0
  let sum := (f32add sum (f32ofInt (blockRepair k es ph g sg)).v).v
  (f32sub (f32mul (f32ofInt 16).v (trimmed k ph sg (512 + g)).v).v sum).v

/-- Whether a block fails in a phase (R67). -/
def blockFails (k : Conv) (es : List W64) (ph g sg : Nat) : Bool :=
  blockLimit k ph g sg ||
    (!bit k.arr.mask.toNat (4 * g + sg) && !f32le (f32abs (blockDelta k es ph g sg)) (f32ofInt 384).v)

/-- One block and phase added to what the check finds. -/
def checkBlock (k : Conv) (es : List W64) (o : CheckOut) (x : Nat × Nat × Nat) : CheckOut :=
  let (ph, g, sg) := x
  if blockFails k es ph g sg then
    let d := blockDelta k es ph g sg
    { mask := if bit o.mask (4 * g + sg) then o.mask else o.mask + 2 ^ (4 * g + sg)
      hi := o.hi || ph == 0, lo := o.lo || ph == 1, limit := o.limit || blockLimit k ph g sg
      worst := if f32lt (f32abs o.worst) (f32abs d) then d else o.worst }
  else o

/-- The check of a pass (R67): every block in both phases. -/
def checkPass (k : Conv) (es : List W64) : CheckOut :=
  ((upFrom 0 128).map fun i => (i / 64, i % 64 / 4, i % 4)).foldl (checkBlock k es) {}

/-! ## Recompute -/

/-- The error of a conversion against the exact phase sum of the image's content (R381); class 0 corrections
are added for the column. -/
def convError (k : Conv) (img : List Wt) (checks : List (Nat × Int)) (es : List W64) (ph sg c : Nat) : W32 :=
  let u := (trimmed k ph sg c).v
  if c < 512 then
    let fix := ((es.filter fun e => eClass e == 0 && eCol e == c && eRow e / 128 == sg).map
      fun e => units9 (eValue e) / 512 * phaseVal k.uns k.d ph (eRow e)).foldl (· + ·) (0 : Int)
    (f32sub (f32add u (f32ofInt fix).v).v (f32ofInt (phaseSum img k.uns k.d ph c sg)).v).v
  else
    let n := ((checks.filter fun (x, _) => x % 16 == c - 512 && x / 16 / 128 == sg).map
      fun (x, n) => n * phaseVal k.uns k.d ph (x / 16)).foldl (· + ·) (0 : Int)
    (f32sub u (round32 (.fin (decide (n < 0)) n.natAbs (-4))).v).v

/-- The target level of check column `g` in row `r` (R65). -/
def checkLevel (ws : List Wt) (g r : Nat) : Int :=
  max (-16) (min 16 (sumWts (ws.filter fun w => w.row == r && w.col / 32 == g) Wt.val))

/-- The check levels of an array's content that are not 0 (R65). -/
def checkLevels (ws : List Wt) : List (Nat × Int) :=
  ((upFrom 0 8192).map fun x => (x, checkLevel ws (x % 16) (x / 16))).filter fun (_, n) => n != 0

/-- What the recompute of a pass finds (R381): the counts of errors above 1 and above 3 units and the largest
error, rounded; and whether the pass mismatches. -/
def recompCounts (k : Conv) (img : List Wt) (es : List W64) : (Nat × Nat × Nat) × Bool :=
  let checks := checkLevels img
  let gt (n : Int) (e : W32) : Bool := !f32le (f32abs e) (f32ofInt n).v
  let errs := (upFrom 0 4224).map fun i => convError k img checks es (i / 2112) (i % 2112 / 528) (i % 528)
  let a := (errs.filter (gt 1)).length
  let b := (errs.filter (gt 3)).length
  let m := (errs.map fun e => (encodeInt 0 65535 (num32 (f32abs e))).1.toNat).foldl max 0
  ((a, b, m), decide (16 < a) || decide (1 < b) || errs.any (gt 16))

end Sys2Proof.Machine
end

