-- ==== Sys2Proof/Machine/Lantern.lean ====
section
/-! DEFINITION. The Lantern store (R92 to R112): entries, slots, residency of variants, eviction, and Lantern
sets in memory. -/

namespace Sys2Proof.Machine

open Sys2Proof

/-! ## Entries (R92 to R94) -/

/-- RESIDUE of the lower 40 bits (R92). -/
def residueOf (e : W64) : Nat := e.toNat % 2 ^ 40 % 15

/-- An entry with its residue (R92). -/
def mkEntry (arr row col variant cls value : Nat) : W64 :=
  let v := arr % 64 + row % 512 * 2 ^ 6 + col % 512 * 2 ^ 15 + variant % 64 * 2 ^ 24 + cls % 4 * 2 ^ 30 + value % 256 * 2 ^ 32
  BitVec.ofNat 64 (v + v % 15 * 2 ^ 40)

/-- Whether RESIDUE passes (R94). -/
def residueOk (e : W64) : Bool := eResidue e == residueOf e

/-- Whether an entry keeps the rules of its class, on an INT2 array or another (R92, R93). -/
def classOk (int2 : Bool) (e : W64) : Bool :=
  let v := eValue e
  let colOk := !int2 || eCol e < 256
  bits e.toNat 44 20 == 0 &&
    match eClass e with
    | 0 => eVariant e == 0 && (v == 0x38 || v == 0xB8 || v == 0x40 || v == 0xC0)
    | 1 => eVariant e == 0 && !e4m3Nan v && colOk
    | 2 => eVariant e != 0 && !e4m3Nan v && colOk
    | _ => false

/-- The VALUE of a repair (R93): the intended cell value minus the value read back; none where they agree. -/
def repairValue (d : Int) : Option Nat :=
  if d = 1 then some 0x38 else if d = -1 then some 0xB8 else if d = 2 then some 0x40 else if d = -2 then some 0xC0 else none

/-! ## Slots (R97, R100) -/

/-- The slots that are FREE. -/
def ltnFree (t : Tile) : Nat := 8192 - t.ltn.length

/-- The lowest FREE slot: the first number that the rising list of slots in use leaves out. -/
def ltnLowest : Tab LtnSlot → Nat → Nat
  | [], n => n
  | (k, _) :: r, n => if k = n then ltnLowest r (n + 1) else n

/-- An entry written into the lowest FREE slot. -/
def ltnPlace (t : Tile) (e : W64) (ix : Nat) (st : LtnState) : Tile :=
  { t with ltn := tabPut t.ltn (ltnLowest t.ltn 0) { entry := e, source := e, ix := ix, st := st } }

/-- Slots for which `f` holds become FREE. -/
def ltnDrop (t : Tile) (f : LtnSlot → Bool) : Tile := { t with ltn := t.ltn.filter fun (_, x) => !f x }

/-- The pinned entries: classes 0 and 1, save those that retire (R100). -/
def ltnPinned (t : Tile) : Nat := (t.ltn.filter fun (_, x) => eClass x.source < 2 && x.st != .retiring).length

/-- Whether a slot holds a class 2 entry of a variant. -/
def holdsVariant (v : Nat) (x : LtnSlot) : Bool := eClass x.source == 2 && eVariant x.source == v

/-- The slots that apply to a pass of a logical array and variant (R95). -/
def liveSlots (t : Tile) (l v : Nat) : List LtnSlot :=
  (t.ltn.map Prod.snd).filter fun x =>
    x.st == .live && eArray x.source == l && (eClass x.source < 2 || eVariant x.source == v)

/-! ## Variants (R102 to R105) -/

def varOf (t : Tile) (v : Nat) : VarState := tabGet {} t.variants v
def setVar (t : Tile) (v : Nat) (x : VarState) : Tile := { t with variants := tabPut t.variants v x }

/-- A variant's last-use stamp (R102). -/
def stampVar (t : Tile) (v : Nat) : Tile :=
  if v = 0 then t else setVar t v { varOf t v with stamp := t.boundary }

/-- The variant to be evicted next (R103): the oldest stamp, then the lower ID, among those with class 2
entries in slots, other than `keep`. -/
def nextVictim (t : Tile) (keep : Nat) : Option Nat :=
  leastBy (fun a b => (varOf t a).stamp < (varOf t b).stamp)
    ((upFrom 1 63).filter fun v => v != keep && t.ltn.any fun (_, x) => holdsVariant v x)

/-- A whole variant is evicted (R103, R104): it becomes EVICTED. (DESIGN CHOICE, log entry 36) -/
def evictVar (t : Tile) (v : Nat) : Tile :=
  let t := ltnDrop t (holdsVariant v)
  { setVar t v { varOf t v with res := 3 } with evicts := satN 32 (t.evicts + 1) }

/-- Variants other than `keep` are evicted until `n` slots are free or none is left; there are 63. -/
def evictFor (keep n : Nat) : Nat → Tile → Tile
  | 0, t => t
  | fuel + 1, t =>
    if n ≤ ltnFree t then t
    else match nextVictim t keep with
      | none => t
      | some v => evictFor keep n fuel (evictVar t v)

/-- The set entries of a logical array for a variant, as first entry and count (R105). -/
def rangeOf (t : Tile) (l v : Nat) : Nat × Nat :=
  match firstOf (fun (a, _, _) => a == l) (varOf t v).ranges with
  | some (_, first, n) => (first, n)
  | none => (0, 0)

/-- The overflow entries of a pass, by their index in the set (R105): those of the array's range that are not
LIVE. -/
def overflowIx (t : Tile) (l v : Nat) : List Nat :=
  let x := varOf t v
  if v = 0 ∨ x.res = 0 ∨ x.res = 1 then []
  else
    let (first, n) := rangeOf t l v
    let held := (t.ltn.filter fun (_, y) => holdsVariant v y && eArray y.source == l).map fun (_, y) => y.ix
    (upFrom first n).filter fun i => !held.contains i

/-- Overflow entry `i` of a variant as memory holds it, with the failure that its read meets (R94, R105). (DESIGN CHOICE,
log entry 54) -/
def overflowEntry (s : State) (t : Tile) (int2 : Bool) (l v i : Nat) : W64 × Option Byte :=
  let a := (varOf t v).entryBase.toNat + 8 * i
  let e := BitVec.ofNat 64 (rdNat s a 8)
  if rangeBad s a 8 then (e, some rMemErr)
  else if residueOk e && classOk int2 e && eArray e == l && eClass e == 2 && eVariant e == v then (e, none)
  else (e, some rLtnMalformed)

/-- The overflow entries read for a pass, each with the failure it meets (R94, R105). A second read of a
location that no one writes gives what the first gave, save where the first met an error in transit. (DESIGN CHOICE, log
entry 54) -/
def readOverflow (s : State) (t : Tile) (int2 : Bool) (l v : Nat) : List W64 × Option Byte :=
  let es := (overflowIx t l v).map (overflowEntry s t int2 l v)
  ((es.filter fun x => x.2.isNone).map Prod.fst, (firstOf (fun x => x.2.isSome) es).bind Prod.snd)

/-! ## Records -/

/-- RESERVE of a tile (R101). -/
def ltnReserve (s : State) (p : Nat) : Nat := regFld s (tileBlk p) 0x008 0 14

/-- A LANTERN record (R484). (DESIGN CHOICE, log entry 36) -/
def emitLantern (s : State) (p v kind n : Nat) : State :=
  emit s evLantern actNone none (unitTile p)
    (toBytes v 1 ++ toBytes kind 1 ++ [0, 0] ++ toBytes n 4 ++ toBytes (satN 16 (ltnPinned (getTile s p))) 2)

/-- The record of a repair that breaches the reserve (R104). (DESIGN CHOICE, log entry 36) -/
def emitBreach (s : State) (p n : Nat) : State :=
  if 8192 - ltnReserve s p < ltnPinned (getTile s p) then emitLantern s p 0 3 n else s

/-! ## Sets in memory (R108 to R110) -/

/-- The entries of a tile's run, in set order, from its first index on. -/
def setRun (s : State) (base first n : Nat) : List (Nat × W64) :=
  (upFrom first n).map fun i => (i, BitVec.ofNat 64 (rdNat s (base + 8 * i) 8))

/-- The order of entries within a tile (R110). -/
def entryBefore (a b : W64) : Bool :=
  eArray a < eArray b || (eArray a == eArray b && (eRow a < eRow b || (eRow a == eRow b && eCol a < eCol b)))

/-- Whether a list is in strictly rising order. -/
def rising {α : Type} (lt : α → α → Bool) : List α → Bool
  | a :: b :: r => lt a b && rising lt (b :: r)
  | _ => true

/-- The directory of a set (R109): tile, first entry and count of each record. -/
def setDir (l : List Byte) (n : Nat) : List (Nat × Nat × Nat) :=
  (upFrom 0 n).map fun i => (at_ l (0x40 + 8 * i) 2 % 1024, at_ l (0x44 + 8 * i) 4, at_ l (0x42 + 8 * i) 2 % 16384)

/-- The reserved bits of a directory (R109). -/
def dirReserved (l : List Byte) (n : Nat) : Bool :=
  (upFrom 0 n).any fun i => at_ l (0x40 + 8 * i) 2 / 1024 != 0 || at_ l (0x42 + 8 * i) 2 / 16384 != 0

/-- Whether FIRST is the sum of the counts before it, and the counts add up (R109, R110). -/
def dirSums : List (Nat × Nat × Nat) → Nat → Nat → Bool
  | [], sum, total => sum == total
  | (_, first, n) :: r, sum, total => first == sum && 1 ≤ n && n ≤ 8192 && dirSums r (sum + n) total

/-- The header of a set (R108), from its first 64 bytes. (DEDUCED, log entry 59) -/
def setHeaderOk (h : List Byte) : Bool :=
  let tiles := at_ h 0x10 4
  let off := at_ h 0x18 4
  at_ h 0 4 == 0x53544E4C && at_ h 4 2 == 1 && 1 ≤ at_ h 6 1 && at_ h 6 1 ≤ 63 && at_ h 7 1 == 0 &&
    1 ≤ tiles && tiles ≤ 1024 && off % 64 == 0 && 0x40 + 8 * tiles ≤ off &&
    at_ h 0x1C 4 == off + 8 * at_ h 0x14 4 && at_ h 0x24 28 == 0

/-- Whether the content of a set keeps R108 to R110, its header being in order: directory, entries, CRC. (DEDUCED, log entry 59) -/
def setContentOk (s : State) (a : Nat) (h : List Byte) (int2 : Nat → Nat → Bool) : Bool :=
  let len := at_ h 0x1C 4
  let tiles := at_ h 0x10 4
  let l := rdBytes s a len
  let dir := setDir l tiles
  let base := a + at_ h 0x18 4
  !dirReserved l tiles && rising (fun x y => x.1 < y.1) dir && dirSums dir 0 (at_ h 0x14 4) &&
    dir.all (fun (t, first, n) =>
      let es := (setRun s base first n).map Prod.snd
      rising entryBefore es &&
        es.all fun e => residueOk e && classOk (int2 t (eArray e)) e && eClass e == 2 && eVariant e == at_ h 6 1) &&
    (crc32c (l.drop 0x40)).toNat == at_ h 0x20 4

/-! ## Commit (R103, R106, R111) -/

/-- The ranges of set entries by logical array (R105), from a run's entries. -/
def rangesOf (run : List (Nat × W64)) : List (Nat × Nat × Nat) :=
  ((upFrom 0 64).filterMap fun l =>
    let mine := run.filter fun (_, e) => eArray e == l
    match mine with
    | [] => none
    | (i, _) :: _ => some (l, i, mine.length))

/-- A run of set entries committed in a tile (R103), with the number placed. -/
def commitSet (t : Tile) (v : Nat) (base : W64) (run : List (Nat × W64)) : Tile × Nat :=
  let t := ltnDrop t (holdsVariant v)
  let t := evictFor v run.length 64 t
  let n := min run.length (ltnFree t)
  let t := (run.take n).foldl (fun t (i, e) => ltnPlace t e i .live) t
  let t := setVar t v { res := if n = run.length then 1 else 2, stamp := t.boundary, entryBase := base, ranges := rangesOf run }
  ({ t with spills := satN 32 (t.spills + (run.length - n)) }, n)

/-- A variant returns to ABSENT (R107). (DEDUCED, log entry 59) -/
def releaseVar (t : Tile) (v : Nat) : Tile :=
  { ltnDrop t (holdsVariant v) with variants := tabDel t.variants v }

/-- Whether a tile still holds a pass that refers to a variant: asked for, in flight, or in the exact unit
(R107, R236). (DEDUCED, log entry 59) -/
def tileUsesVar (s : State) (p v : Nat) : Bool :=
  let t := getTile s p
  t.todo.any (fun r => r.variant == v) || t.flight.any (fun f => f.req.variant == v) ||
    t.exactQ.any (fun x => x.flight.req.variant == v) ||
    s.tile.tiles.any fun (q, t) => t.exactBusy.any fun x => x.home.getD q == p && x.flight.req.variant == v

/-- Whether a Lantern operation that started before another has still to act on a tile (R239). -/
def ltnEarlier (s : State) (e t : Nat) : Bool :=
  s.op.table.any fun (k, o) => k != e && o.started && o.result.isNone && o.startNo < (getOp s e).startNo &&
    match o.work with
    | .ltn w => w.left.contains t
    | _ => false

/-- One tile is done with: the operation ends with its last one. -/
def ltnTileDone (s : State) (e : Nat) (w : LtnWork) (t : Nat) : State :=
  let w := { w with left := w.left.filter fun x => x != t }
  let s := setOp s e { getOp s e with work := .ltn w }
  if w.left.isEmpty then setResult s e rOk 0xFFFF else s

/-- The run of set entries that a set load has for a tile: its first index and its length (R109). -/
def dirOf (w : LtnWork) (t : Nat) : Nat × Nat :=
  match firstOf (fun (x, _, _) => x == t) w.dir with
  | some (_, first, n) => (first, n)
  | none => (0, 0)

/-- The entries that a set load writes in a tile, with their indexes, as they stand in memory now. -/
def runOf (s : State) (w : LtnWork) (t : Nat) : List (Nat × W64) :=
  let (first, n) := dirOf w t
  setRun s w.entryBase.toNat first n

/-- The failure that the entries of a run meet as they are written: memory that cannot be read, RESIDUE, or the rules of
their class (R93, R94, R228). (DEDUCED, log entry 59) -/
def writeFault (s : State) (w : LtnWork) (t : Nat) (int2 : Nat → Bool) : Option Byte :=
  let (first, n) := dirOf w t
  let es := (runOf s w t).map Prod.snd
  if rangeBad s (w.entryBase.toNat + 8 * first) (8 * n) then some rMemErr
  else if es.any fun e => !residueOk e then some rLtnResidue
  else if es.any fun e => !(classOk (int2 (eArray e)) e && eClass e == 2 && eVariant e == w.variant) then some rLtnMalformed
  else none

/-! ## The write port (R112) -/

/-- A raised request as the arbiter of the port sees it (R112). -/
def portReq (s : State) (r : PortReq) : ArbReq :=
  match r.user with
  | .pv _ => ⟨7, r.age, 0⟩
  | .keep _ => ⟨6, r.age, 1⟩
  | .load e => ⟨min 5 (instArbPrio s (getOp s e).inst), r.age, 2⟩

/-- Whether a request is of a set load that still has to commit in logical tile `n`: the first of those that name the
tile asks (R239). -/
def loadAsks (s : State) (n e : Nat) : Bool :=
  let o := getOp s e
  o.started && o.result.isNone && !ltnEarlier s e n && match o.work with
    | .ltn w => w.load && w.left.contains n
    | _ => false

/-- The set loads that have come to a tile's port raise their requests, and those that have ended are gone. Only the
entries that find a slot are written (R103). -/
def raiseLoads (s : State) (p n : Nat) : State :=
  let t := getTile s p
  let live (r : PortReq) : Bool := match r.user with
    | .load e => loadAsks s n e && r.age == (getOp s e).startAt
    | _ => r.left != 0
  let kept := t.port.filter live
  let fresh := (s.op.table.map Prod.fst).filter fun e => loadAsks s n e && !kept.any fun r => r.user == .load e
  let ask (e : Nat) : PortReq := ⟨.load e, (getOp s e).startAt, match (getOp s e).work with
    | .ltn w => (commitSet t w.variant w.entryBase (runOf s w n)).2
    | _ => 0⟩
  setTile s p { t with port := kept ++ fresh.map ask }

/-- The first element for which `f` holds, changed. -/
def mapFirst {α : Type} (f : α → Bool) (g : α → α) : List α → List α
  | [] => []
  | x :: l => if f x then g x :: l else x :: mapFirst f g l

/-- One grant of the port: 16 entries in one Spire cycle, if that cycle is over by now (R112, R343). -/
def portGrant (s : State) (p : Nat) : State :=
  let t := getTile s p
  let waits := t.port.filter fun r => r.left != 0
  match leastBy (fun a b : PortReq => a.age < b.age) waits with
  | none => s
  | some o =>
    let from_ := max t.portAt o.age
    let raised := waits.filter fun r => r.age ≤ from_
    match arbPick s (arbLtn p) (regFld s (tileBlk p) 0x038 0 8) (raised.map (portReq s)) with
    | none => s
    | some (r, reserved) =>
      if s.now < from_ + 32 then s
      else
        let hit (x : PortReq) : Bool := x.left != 0 && portReq s x == r
        arbCount (setTile s p { t with portAt := from_ + 32, port := mapFirst hit (fun x => { x with left := x.left - 16 }) t.port })
          (arbLtn p) reserved

/-- The grants that have been made by now; `fuel` is how many the raised requests need. -/
def portGrants (p : Nat) : Nat → State → State
  | 0, s => s
  | fuel + 1, s => portGrants p fuel (portGrant s p)

/-- The port of a tile brought up to the present (R112). -/
def servePort (s : State) (p : Nat) : State :=
  match logTile s p with
  | none => s
  | some n =>
    let s := raiseLoads s p n
    portGrants p (((getTile s p).port.map fun r => (r.left + 15) / 16).foldl (· + ·) 0) s

/-- A request for `n` entries is raised at the port (R112). -/
def portWrite (s : State) (p : Nat) (u : PortUser) (n : Nat) : State :=
  if n = 0 then s
  else
    let s := servePort s p
    setTile s p { getTile s p with port := (getTile s p).port ++ [⟨u, s.now, n⟩] }

/-- Whether writes for a logical array still wait for the port. -/
def portBusy (t : Tile) (l : Nat) : Bool :=
  t.port.any fun r => r.left != 0 && (r.user == .pv l || r.user == .keep l)

end Sys2Proof.Machine
end

