-- ==== Sys2Proof/Machine/ArrayOps.lean ====
section
/-! DEFINITION. The states of physical arrays and what moves them (R57, R69, R74 to R79), spares (R129, R130),
staging and swings (R97, R131 to R138), and image slots (R115, R137). -/

namespace Sys2Proof.Machine

open Sys2Proof

/-! ## Images -/

def getImage (s : State) (k : Nat) : Image := tabGet {} s.img.images k

/-- The image slot current for a logical array (R131). -/
def curSlotOf (t : Tile) (l : Nat) : Option Nat :=
  match t.image with
  | none => none
  | some k => some (tabGet k t.curSlot l)

/-- The placement index and record of a logical array in an image (R119). -/
def placeOf (i : Image) (tile l : Nat) : Option (Nat × PlaceRec) :=
  firstOf (fun (_, r) => r.tile.toNat == tile && r.array.toNat == l) ((upFrom 0 i.placement.length).zip i.placement)

/-- The logical arrays that an image places in a tile (R119). -/
def placedIn (i : Image) (tile : Nat) : List Nat := (i.placement.filter fun r => r.tile.toNat == tile).map fun r => r.array.toNat

/-- Whether a logical array of an image is of INT2 format. -/
def int2Of (i : Image) (tile l : Nat) : Bool := (placeOf i tile l).any fun (_, r) => r.format == 2

/-- Where the WEIGHTS of a logical array lie in an image slot (R120). -/
def weightsAddr (i : Image) (tile l : Nat) : Nat :=
  match placeOf i tile l with
  | some (n, _) => i.weights + n * 65536
  | none => i.weights

/-- The weights of a logical array in an image slot. -/
def imageWts (s : State) (i : Image) (tile l : Nat) : List Wt := weightsAt s (weightsAddr i tile l)

/-- Whether an image's weights of a logical array can be read (R391, R335). -/
def imageReadable (s : State) (i : Image) (tile l : Nat) : Bool := !i.lost && !rangeBad s (weightsAddr i tile l) 65536

/-- The scale bytes of a logical array in an image slot (R120), those that are not 0. -/
def imageScales (s : State) (i : Image) (tile l : Nat) : Tab Byte :=
  match placeOf i tile l with
  | some (n, _) => ((upFrom 0 2048).map fun k => (k, rdByte s (i.scales + n * 2048 + k))).filter fun (_, b) => b != 0
  | none => []

/-- The class 1 entries of a logical array in an image slot, with their index in OUTLIERS (R120). -/
def imageOutliers (s : State) (i : Image) (tile l : Nat) : List (Nat × W64) :=
  match placeOf i tile l with
  | some (n, r) =>
    let first := ((i.placement.take n).map fun x => x.outliers.toNat).foldl (· + ·) 0
    (upFrom first r.outliers.toNat).map fun k => (k, BitVec.ofNat 64 (rdNat s (i.outliers + 8 * k) 8))
  | none => []

/-- The content digest of a logical array in an image (R139). -/
def imageDigest (i : Image) (tile l : Nat) : W64 :=
  match placeOf i tile l with
  | some (n, _) => nth 0 i.digests n
  | none => 0

/-! ## States -/

/-- The array of physical tile `p` with number `a`. -/
def arrOf (s : State) (p a : Nat) : Arr := getArr (getTile s p) a

/-- An array changed. -/
def setArrOf (s : State) (p a : Nat) (v : Arr) : State := setTile s p (setArr (getTile s p) a v)

/-- An array changes state. Records are issued when it leaves ACTIVE and when it goes to FENCED (R69, R76,
R138, R386). (DESIGN CHOICE, log entry 58) -/
def moveArr (s : State) (p a : Nat) (st : ArrState) (why : Nat) (action : Byte) : State :=
  let x := arrOf s p a
  let s := setArrOf s p a { x with st := st, since := s.now, why := BitVec.ofNat 8 why, calDone := false, job := none }
  if x.st = .active ∨ st = .fenced then emitArray s action p a (arrCode x.st) (arrCode st) why else s

/-- Whether an array is worn (R57). -/
def worn (x : Arr) : Bool := decide (100000 ≤ x.cycles)

/-- Whether a physical array is named by a job, a rewrite or the array map of a tile. -/
def arrTaken (t : Tile) (a : Nat) : Bool :=
  (logArr t a).isSome || t.pendMap.any (fun (_, x) => x == a) || t.jobs.any (fun j => j.phys == a) ||
    t.rewrites.any (fun r => r.spare == some a) || t.pv.any fun j => j.phys == a

/-- The spare arrays of a tile that are free (R79). -/
def spares (t : Tile) : List Nat := (upFrom 0 68).filter fun a => (getArr t a).st == .spare && !arrTaken t a

/-- A spare that rewrite or recalibration may use: only while more than SPARE_KEEP are free (R130). -/
def usableSpare (s : State) (p : Nat) : Option Nat :=
  let l := spares (getTile s p)
  if regFld s (tileBlk p) 0x00C 0 2 < l.length then l.head? else none

/-- The rewrite of a logical array, if it is under one (R131). -/
def rewriteOf (t : Tile) (l : Nat) : Option Rewrite := firstOf (fun r => r.logical == l) t.rewrites

/-- A rewrite changed. -/
def setRewrite (t : Tile) (r : Rewrite) : Tile :=
  { t with rewrites := t.rewrites.map fun x => if x.logical = r.logical then r else x }

def dropRewrite (t : Tile) (l : Nat) : Tile := { t with rewrites := t.rewrites.filter fun x => x.logical != l }

/-- A job is asked of the program-verify engine (R128). -/
def addJob (s : State) (p : Nat) (j : Job) : State :=
  let t := getTile s p
  setTile s p { t with jobs := t.jobs ++ [{ j with age := s.now }] }

/-! ## Fault sparing (R129) -/

/-- A logical array loses its physical array: a spare is programmed for it, or it stays under digital
substitution; an array under rewrite is served by its rewrite (R129, R136). (DESIGN CHOICE, log entry 41) -/
def spareOut (s : State) (p l : Nat) : State :=
  let t := getTile s p
  if (rewriteOf t l).isSome then s
  else match (spares t).head? with
    | none =>
      closeWindow (setTile s p { t with substituted := if t.substituted.contains l then t.substituted else l :: t.substituted })
        (unitArray p (physArr t l))
    | some a =>
      let s := setTile s p { t with rewrites := t.rewrites ++
        [{ logical := l, kind := .sparing, newSlot := none, spare := some a, old := physArr t l }] }
      addJob s p { kind := .sparing, phys := a, logical := some l, slot := curSlotOf t l }

/-- The ACTION of the record of an array's fault (R389): spared or substituted. -/
def faultAction (t : Tile) (a : Nat) : Byte :=
  match logArr t a with
  | none => actFenced
  | some l => if (rewriteOf t l).isSome then actSubstituted else if (spares t).isEmpty then actSubstituted else actSpared

/-- An array goes to FENCED for a fault, and a spare takes its place (R76, R129); its recovery window opens
(R393). -/
def fenceArr (s : State) (p a why : Nat) : State :=
  let t := getTile s p
  let s := moveArr s p a .fenced why (faultAction t a)
  match logArr t a with
  | some l =>
    let spare := (spares t).head?
    let s := if (rewriteOf t l).isNone && spare.isSome then openWindow s (unitArray p a) (spare.map (unitArray p)) else s
    spareOut s p l
  | none => s

/-! ## Check limit (R69) -/

/-- Passes are admitted on an array: its window moves on (R69). -/
def notePass (s : State) (p a : Nat) : State :=
  let x := arrOf s p a
  let n := x.window + 1
  setArrOf s p a (if 2 ^ regFld s (tileBlk p) 0x010 8 5 ≤ n then { x with window := 0, fails := 0 } else { x with window := n })

/-- A check failure or a mismatch is counted; at the limit the array drains to FENCED (R69). The answer says
whether the limit was reached. -/
def countFail (s : State) (p a why : Nat) : State × Bool :=
  let x := arrOf s p a
  let s := setArrOf s p a { x with fails := x.fails + 1 }
  if regFld s (tileBlk p) 0x010 4 4 ≤ x.fails + 1 ∧ x.st = .active then
    let s := moveArr s p a .draining why actFenced
    (setArrOf s p a { arrOf s p a with toFence := true }, true)
  else (s, false)

/-! ## Repairs and class 1 entries -/

/-- A class 0 repair is staged for a logical array, evicting variants when no slot is free (R104); the answer says
whether the Lantern could take it. -/
def stageRepair (t : Tile) (e : W64) : Tile × Bool :=
  let t := evictFor 0 1 64 t
  if 1 ≤ ltnFree t then (ltnPlace t e 0 .staged, true) else (t, false)

/-- The repairs of failed weight pairs (R76, R93), from the intended values. -/
def repairsOf (l : Nat) (want : List Wt) (failed : List FailedPair) : List W64 :=
  (failed.filter fun f => f.col.val < 512).filterMap fun f =>
    let w := match firstOf (fun w => w.row == f.row.val && w.col == f.col.val) want with
      | some w => w.val
      | none => 0
    (repairValue (w - (if f.illegal then 0 else f.read))).map fun v => mkEntry l f.row f.col 0 0 v

/-- Repairs are staged one by one until one finds no room; the variants evicted for them stay evicted (R104). -/
def stageRepairs : List W64 → Tile → Tile × Bool
  | [], t => (t, true)
  | e :: r, t =>
    match stageRepair t e with
    | (t, true) => stageRepairs r t
    | x => x

/-- Class 1 entries are staged when they fit (R133). -/
def stageClass1 (t : Tile) (es : List (Nat × W64)) : Option Tile :=
  if es.length ≤ ltnFree t then some (es.foldl (fun t (i, e) => ltnPlace t e i .staged) t) else none

/-- LIVE class 0 and, if asked, class 1 entries of a logical array become RETIRING (R97). -/
def retireEntries (t : Tile) (l : Nat) (class1 : Bool) : Tile :=
  { t with ltn := t.ltn.map fun (k, x) =>
      if x.st == .live && eArray x.source == l && (eClass x.source == 0 || (class1 && eClass x.source == 1))
      then (k, { x with st := .retiring }) else (k, x) }

/-- STAGED entries of a logical array become LIVE (R97). -/
def liveEntries (t : Tile) (l : Nat) : Tile :=
  { t with ltn := t.ltn.map fun (k, x) =>
      if x.st == .staged && eArray x.source == l then (k, { x with st := .live }) else (k, x) }

/-- The queued and sampled recomputes of a tile. -/
def pendingRecomputes (t : Tile) : List Flight :=
  t.recompQ.map (·.flight) ++ t.flight.filter (·.sampled) ++
    match t.exactBusy with
    | some x => if x.for_ = .recompute then [x.flight] else []
    | none => []

/-- RETIRING slots that a boundary has passed become FREE, save those that a queued recompute applied (R97). -/
def freeDue (t : Tile) : Tile :=
  ltnDrop t fun x => x.st == .retiring && x.due && !(pendingRecomputes t).any fun f => f.sources.contains x.source

/-- A boundary comes for the RETIRING slots (R97). -/
def freeRetiring (t : Tile) : Tile :=
  freeDue { t with ltn := t.ltn.map fun (k, x) => (k, { x with due := x.due || x.st == .retiring }) }

/-! ## Image slots (R115, R137) -/

/-- The image slots that a tile refers to. -/
def tileSlots (t : Tile) : List Nat :=
  t.image.toList ++ t.curSlot.map Prod.snd ++ t.rewrites.filterMap (·.newSlot) ++ t.jobs.filterMap (·.slot) ++
    (t.flight ++ t.exactQ.map (·.flight) ++ t.recompQ.map (·.flight) ++ t.exactBusy.toList.map (·.flight)).filterMap (·.slot)

/-- Image slots that nothing refers to any more are zeroed and freed (R115, R137). -/
def collectSlots (s : State) : State :=
  let used := s.tile.tiles.flatMap (fun (_, t) => tileSlots t) ++
    match s.img.load with
    | some l => l.slot.toList ++ l.oldSlot.toList
    | none => []
  s.img.images.foldl
    (fun s (k, i) => if used.contains k then s
      else zeroRange { s with img.images := tabDel s.img.images k } i.base i.size) s

/-! ## The end of a load (R129, R137, R486) -/

/-- The logical tiles of an image. -/
def imageTiles (i : Image) : List Nat := (i.placement.map fun r => r.tile.toNat).eraseDups

/-- A load ends: DONE is set with the reason, IRQ2 is raised (R464), and LOAD_CNT is added (R126, R129); a counter outside
the memory of instance 0, whose function runs the load, is refused and reported (R13). (DEDUCED, log entry 34) -/
def endLoad (s : State) (reason : Nat) : State :=
  let s := { s with img.load := none, img.loadDone := true, img.loadReason := BitVec.ofNat 8 reason }
  let s := raiseIrq s 0 2
  let c := (regAct s .sec 0x028).toNat
  if c = 0 then s
  else if c % 8 == 0 && inInstStacked s 0 c 8 then counterAdd s c 1
  else accessError s 0

/-- Whether a logical tile has done all that a load asks of it: it serves, and every array it places has the
slot of the load as its current one. -/
def tileLoaded (s : State) (slot n : Nat) : Bool :=
  let t := getTile s (physTile s n)
  t.loaded && (placedIn (getImage s slot) n).all fun l => curSlotOf t l == some slot

/-- The slot of a load becomes the image of a tile (R137). -/
def adoptSlot (slot : Nat) (s : State) (n : Nat) : State :=
  let p := physTile s n
  setTile s p { getTile s p with image := some slot, curSlot := [] }

/-- A load that has been committed is complete once each of its tiles is (R129, R137, R486). -/
def loadCheck (s : State) : State :=
  match s.img.load with
  | some ⟨_, some k, _⟩ =>
    let ts := imageTiles (getImage s k)
    if ts.all (tileLoaded s k) then
      collectSlots (endLoad (ts.foldl (adoptSlot k) s) 0)
    else s
  | _ => s

/-- An array of the load in progress has been programmed or has swung (R460 PROGRESS). -/
def noteProgress (s : State) : State := { s with img.progress := s.img.progress + 1 }

/-! ## Swings (R132, R134, R138) -/

/-- The record of R139 for a logical array of a tile. -/
def writeRecord (s : State) (p n l : Nat) (slot : Option Nat) : State :=
  match slot with
  | none => s
  | some k =>
    let i := getImage s k
    let t := getTile s p
    let v := (i.imageId, imageDigest i n l)
    setTile s p { t with recs := tabPut t.recs l v }

/-- The scales of a logical array replaced by those staged (R84). -/
def swapScales (t : Tile) (l : Nat) : Tile :=
  if tabHas t.staged l then
    let keep := t.scales.filter fun (k, _) => k / 2048 != l
    { t with
      scales := (tabGet [] t.staged l).foldl (fun m (k, b) => tabPut m (l * 2048 + k) b) keep
      staged := tabDel t.staged l }
  else t

/-- The swing of a logical array (R132 step 6, R134 step 4, R138): the map names the new array, staged entries
and scales come into force, and the slot becomes current. A rewrite that has failed changes the slot alone
(R136). -/
def swing (n p : Nat) (s : State) (r : Rewrite) : State :=
  let l := r.logical
  let t := getTile s p
  let t := if r.failed then
      { t with substituted := if t.substituted.contains l then t.substituted else l :: t.substituted }
    else { t with substituted := t.substituted.filter (· != l) }
  let t := if r.inPlace && !r.touched then t else retireEntries t l (r.kind == .rolling)
  let t := liveEntries t l
  let t := swapScales t l
  let t := match r.newSlot with
    | some k => { t with curSlot := tabPut t.curSlot l k }
    | none => t
  let t := dropRewrite t l
  let s := setTile s p t
  let new := if r.inPlace then r.old else r.spare.getD r.old
  let s := if r.failed then s
    else
      let s := setTile s p { getTile s p with amap := tabPut (getTile s p).amap l new }
      let s := if r.inPlace || (arrOf s p r.old).st != .active then s
        else moveArr s p r.old .draining (if r.kind = .recal then 6 else 5) actNone
      let s := moveArr s p new .active 0 actNone
      let s := if r.kind = .sparing then closeWindow s (unitArray p r.old) else s
      writeRecord s p n l (curSlotOf (getTile s p) l)
  let s := if r.kind = .rolling then noteProgress s else s
  loadCheck s

/-- Whether a rewrite swings at this boundary (R132, R138): its entries must have been written (R112). -/
def swings (t : Tile) (r : Rewrite) : Bool := (r.go || (r.ready && r.c1 && r.kind != .rolling)) && !portBusy t r.logical

/-! ## Rolling rewrites (R130 to R137) -/

/-- A rewrite that works in place: its array leaves ACTIVE, and its old entries retire (R134); without an array
to drain it has failed, and only its slot is to change (R136). -/
def goInPlace (s : State) (p : Nat) (r : Rewrite) (why : Nat) : State :=
  let t := getTile s p
  if (getArr t r.old).st = .active then
    let t := if r.kind = .rolling then retireEntries t r.logical true else t
    moveArr (setTile s p (setRewrite t { r with inPlace := true, spare := none })) p r.old .draining why actNone
  else if r.kind = .rolling then setTile s p (setRewrite t { r with failed := true, ready := true, c1 := true, spare := none })
  else
    let t := dropRewrite t r.logical
    setTile s p { t with substituted := if t.substituted.contains r.logical then t.substituted else r.logical :: t.substituted }

/-- The rolling rewrite of a logical array begins (R132, R134): on a spare, or in place. (DEDUCED, log entry 50) -/
def beginRolling (n p k : Nat) (s : State) (l : Nat) : State :=
  let i := getImage s k
  let t := getTile s p
  let r : Rewrite := { logical := l, kind := .rolling, newSlot := some k, spare := usableSpare s p, old := physArr t l
                       c1 := (imageOutliers s i n l).isEmpty }
  let s := setTile s p { t with rewrites := t.rewrites ++ [r], staged := tabPut t.staged l (imageScales s i n l) }
  match r.spare with
  | some x => addJob s p { kind := .rolling, phys := x, logical := some l, slot := some k }
  | none => goInPlace s p r 5

/-- The logical arrays of a tile that the load in progress has still to rewrite. -/
def toRewrite (s : State) (n p : Nat) : List Nat :=
  let t := getTile s p
  match s.img.load with
  | some ⟨_, some k, _⟩ =>
    if t.loaded then (placedIn (getImage s k) n).filter fun l => curSlotOf t l != some k && (rewriteOf t l).isNone else []
  | _ => []

/-- Rewrites begin while fewer than four are under way in the tile (R130). -/
def nextRewrites (n p : Nat) (s : State) : State :=
  match s.img.load with
  | some ⟨_, some k, _⟩ =>
    ((toRewrite s n p).take (4 - (getTile s p).rewrites.length)).foldl (beginRolling n p k) s
  | _ => s

/-- STAGED entries of a logical array are given up. -/
def dropStaged (t : Tile) (l : Nat) : Tile := ltnDrop t fun x => x.st == .staged && eArray x.source == l

/-- STAGED repairs of a logical array are given up: its new write finds its own (R97). -/
def dropRepairs (t : Tile) (l : Nat) : Tile := ltnDrop t fun x => x.st == .staged && eArray x.source == l && eClass x.source == 0

/-- The new array of a rewrite or recalibration has gone to FENCED (R136): one retry on another usable spare,
then in place; after that the logical array stays under substitution. An array whose old entries have begun to retire
stays under substitution until the swing (R133). -/
def newFailed (n p : Nat) (s : State) (r : Rewrite) (why : Nat) : State :=
  let s := setTile s p (dropStaged (getTile s p) r.logical)
  let c1 := match r.newSlot with
    | some k => (imageOutliers s (getImage s k) n r.logical).isEmpty
    | none => true
  let r := { r with c1 := c1, ready := false, go := false, touched := false }
  if r.inPlace then goInPlace (moveArr s p r.old .fenced 0x0E actSubstituted) p { r with inPlace := false } why
  else
    let s := moveArr s p (r.spare.getD r.old) .fenced why actFenced
    match (if r.retried then none else usableSpare s p) with
    | some x =>
      let s := setTile s p (setRewrite (getTile s p) { r with spare := some x, retried := true })
      addJob s p { kind := r.kind, phys := x, logical := some r.logical, slot := if r.newSlot.isSome then r.newSlot else curSlotOf (getTile s p) r.logical }
    | none => goInPlace s p { r with retried := true } (if r.kind = .rolling then 5 else 6)

/-- The swings of a pass boundary. -/
def doSwings (s : State) (p : Nat) : State :=
  let n := (logTile s p).getD 0
  let l := (getTile s p).rewrites.filter (swings (getTile s p))
  if l.isEmpty then s else nextRewrites n p (l.foldl (swing n p) s)

/-! ## Trims out of range (R76, R138) -/

/-- An FP16 value in units of 2^−24; none for an infinity or a NaN. -/
def units24 (w : W16) : Option Int :=
  let e := bits w.toNat 10 5
  let f := bits w.toNat 0 10
  let m : Nat := if e = 0 then f else (1024 + f) * 2 ^ (e - 1)
  if e = 31 then none else some (if bit w.toNat 15 then -(m : Int) else m)

/-- Whether a gain trim is more than `pct` percent from 1.0 (R76). -/
def gainBeyond (pct : Nat) (g : W16) : Bool :=
  match units24 g with
  | none => true
  | some v => decide (pct * 2 ^ 24 < (v - 2 ^ 24).natAbs * 100)

/-- Whether an offset trim is beyond ±64 units (R76). -/
def offsetBeyond (b : W16) : Bool :=
  match units24 b with
  | none => true
  | some v => decide (64 * 2 ^ 24 < v.natAbs)

/-- Whether any gain trim is beyond a limit. -/
def anyGain (pct : Nat) (trims : Tab (W16 × W16)) : Bool := trims.any fun (_, g, _) => gainBeyond pct g

/-! ## Starting deep recalibration (R138) -/

/-- Deep recalibration of an ACTIVE array starts, unless its logical array is under one already or four of the
tile are (R84, R130, R138). (DESIGN CHOICE, log entry 58) -/
def startRecal (s : State) (p a why : Nat) : State :=
  let t := getTile s p
  match logArr t a with
  | none => s
  | some l =>
    if (arrOf s p a).st ≠ .active ∨ (rewriteOf t l).isSome ∨ 4 ≤ t.rewrites.length then s
    else
      let r : Rewrite := { logical := l, kind := .recal, newSlot := none, spare := none, old := a }
      match (if regFld s (tileBlk p) 0x00C 5 1 = 1 then usableSpare s p else none) with
      | some x =>
        let s := setTile s p { t with rewrites := t.rewrites ++ [{ r with spare := some x }] }
        let s := emitArray s actNone p a 1 1 why
        addJob s p { kind := .recal, phys := x, logical := some l, slot := curSlotOf t l }
      | none =>
        let s := setTile s p { t with rewrites := t.rewrites ++ [{ r with inPlace := true }] }
        moveArr s p a .draining why actNone

end Sys2Proof.Machine
end

