-- ==== Sys2Proof/Machine/KvPage.lean ====
section
/-! DEFINITION. Page frames, page lists and sequence records (R255 to R259), the appending of keys and values
(R261, R262), seals and digests (R263, R265). -/

namespace Sys2Proof.Machine

open Sys2Proof

/-- A page-list entry (R257). `reserved` says that a reserved bit is set, or DEV without GLOBAL. -/
structure PageEnt where
  frame : Nat
  dev : Nat
  global : Bool
  shared : Bool
  dvalid : Bool
  valid : Bool
  reserved : Bool
  deriving DecidableEq, Repr

def pageEnt (v : Nat) : PageEnt :=
  { frame := v % 2 ^ 32, dev := bits v 32 16, global := bit v 48, shared := bit v 49, dvalid := bit v 50, valid := bit v 63
    reserved := bits v 51 12 != 0 || (!bit v 48 && bits v 32 16 != 0) }

/-- A sequence record (R258). -/
structure SeqRec where
  plist : Nat
  plistLen : Nat
  len : Nat
  digest : Nat
  layers : Nat
  kvheads : Nat
  /-- Head dimension / 16. -/
  hdim : Nat
  reserved : Bool
  deriving DecidableEq, Repr

def seqRec (s : State) (a : Nat) : SeqRec :=
  let l := rdBytes s a 64
  { plist := at_ l 0 8, plistLen := at_ l 8 8, len := at_ l 0x10 8, digest := at_ l 0x18 8, layers := at_ l 0x20 1
    kvheads := at_ l 0x21 1, hdim := at_ l 0x22 1, reserved := at_ l 0x23 5 != 0 || at_ l 0x38 8 != 0 }

/-- The values that R258 allows in a record. -/
def seqRecOk (r : SeqRec) : Bool :=
  !r.reserved && r.plist % 8 == 0 && 1 ≤ r.plistLen && r.plistLen ≤ 2 ^ 32 && r.digest % 64 == 0 &&
    1 ≤ r.layers && 1 ≤ r.kvheads && r.kvheads ≤ 64 && (r.hdim == 4 || r.hdim == 8 || r.hdim == 16)

/-- Tokens per page (R256). -/
def pageTokens (kvheads hdim : Nat) : Nat := 16384 / (kvheads * (hdim * 16))

/-- The bytes of one token in a half of a page (R256). -/
def tokenBytes (kvheads hdim : Nat) : Nat := kvheads * (hdim * 16)

/-- The address of page-list entry `i`. -/
def entAddr (r : SeqRec) (i : Nat) : Nat := r.plist + 8 * i

/-- A page-list entry read. -/
def rdEnt (s : State) (a : Nat) : PageEnt := pageEnt (rdNat s a 8)

/-- Where a page lies (R255, R257). -/
inductive PagePlace where
  | local_ (a : Nat)
  | host (a : Nat)
  | peer (dev frame : Nat)
  deriving DecidableEq, Repr

/-- The place of a page named by an entry in a list of this device (R255, R257). -/
def placeOfEnt (s : State) (inst : Inst) (e : PageEnt) : PagePlace :=
  if !e.global || e.dev == ownDev s then .local_ (e.frame * 0x8000)
  else if e.dev = 0xFFFF then .host ((regAct s (.inst inst) 0x080).toNat + e.frame * 0x8000)
  else .peer e.dev e.frame

/-- Whether a local frame lies in the instance's frame ranges (R331, R357). -/
def frameOwned (s : State) (inst : Inst) (f : Nat) : Bool :=
  decide (f < 12091392) && covers (((userRanges s inst).filter fun (_, _, fr) => fr).map fun (b, z, _) => (b, z)) 9 (f * 0x8000) 0x8000

/-- Whether a host frame is one of the instance's (R357). -/
def hostFrameOwned (s : State) (inst : Inst) (f : Nat) : Bool :=
  decide (f < (regAct s (.inst inst) 0x088).toNat) &&
    covers (hostRanges s inst) 5 ((regAct s (.inst inst) 0x080).toNat + f * 0x8000) 0x8000

/-- Whether the place of a page is one that the instance may reach; none where it may (R260). -/
def placeFault (s : State) (inst : Inst) (e : PageEnt) : Option Byte :=
  match placeOfEnt s inst e with
  | .local_ _ => if frameOwned s inst e.frame then none else some rUnitAccess
  | .host _ => if hostFrameOwned s inst e.frame then none else some rUnitAccess
  | .peer d _ => if reaches s (instSlice s inst) d then none else some rPeerRefused

/-! ## Appends (R261, R262) -/

/-- The first failure found among several, in the order of a list of codes. (DESIGN CHOICE, log entry 51) -/
def worstOf (order : List Byte) (found : List (Option Byte)) : Option Byte :=
  firstOf (fun r => found.contains (some r)) order

/-- The rows of an append table. -/
def kvRow (s : State) (dst v : Nat) : Nat × Nat := (rdNat s (dst + 0x10 + 16 * v) 8, rdNat s (dst + 0x18 + 16 * v) 8)

/-- The page-list index that a row appends to (R261). -/
def kvIndex (r : SeqRec) (layer pos : Nat) : Nat := pos / pageTokens r.kvheads r.hdim * r.layers + layer

/-- The check of one row of the append table (R262). -/
def kvRowFault (s : State) (inst : Inst) (dst width v : Nat) : Option Byte :=
  let (a, pos) := kvRow s dst v
  if !inInst s inst a 64 then some rUnitAccess
  else if a % 64 ≠ 0 then some rMalformed
  else
    let r := seqRec s a
    let layer := rdNat s dst 1
    if rangeBad s a 64 then some rMemErr
    else if !seqRecOk r || 16384 < tokenBytes r.kvheads r.hdim || width != tokenBytes r.kvheads r.hdim || r.layers ≤ layer then some rMalformed
    else
      let i := kvIndex r layer pos
      if r.plistLen ≤ i then some rMalformed
      else if !inInst s inst (entAddr r i) 8 then some rUnitAccess
      else if rangeBad s (entAddr r i) 8 then some rMemErr
      else
        let e := rdEnt s (entAddr r i)
        if !e.valid || e.shared || e.reserved then some rMalformed
        else match placeOfEnt s inst e with
          | .local_ _ => if frameOwned s inst e.frame then none else some rUnitAccess
          | _ => some rMalformed

/-- The checks of an append table at the start of a PASS (R261, R262). (DESIGN CHOICE, log entry 57) -/
def kvFault (s : State) (inst : Inst) (dst width vectors : Nat) : Option Byte :=
  if !inInst s inst dst (16 + 16 * vectors) then some rUnitAccess
  else if rangeBad s dst (16 + 16 * vectors) then some rMemErr
  else if rdNat s (dst + 2) 14 ≠ 0 ∨ rdNat s (dst + 1) 1 / 2 ≠ 0 then some rMalformed
  else worstOf [rMalformed, rUnitAccess, rMemErr] ((upFrom 0 vectors).map (kvRowFault s inst dst width))

/-- DVALID of an entry written. (DESIGN CHOICE, log entry 57) -/
def setDvalid (s : State) (inst : Inst) (a : Nat) (v : Bool) : State :=
  let x := rdNat s a 8
  if bit x 50 = v then s else wrNat s inst a 8 (setBits x 50 1 (b2n v))

/-- 512 codes of output block `n` of vector `v` appended (R261); a key append clears DVALID, and one to the
last slot of a page with digests makes a seal due (R263). (DESIGN CHOICE, log entry 57) -/
def kvAppend (s : State) (op : Nat) (dst v n : Nat) (codes : List Byte) : State :=
  let inst := (getOp s op).inst
  let (a, pos) := kvRow s dst v
  let r := seqRec s a
  let layer := rdNat s dst 1
  let value := bit (rdNat s (dst + 1) 1) 0
  let t := pageTokens r.kvheads r.hdim
  let ea := entAddr r (kvIndex r layer pos)
  let e := rdEnt s ea
  let page := e.frame * 0x8000
  let s := if value then s else setDvalid s inst ea false
  let s := wrBytes s inst (page + b2n value * 0x4000 + pos % t * tokenBytes r.kvheads r.hdim + n * 512) codes
  let due : SealDue := ⟨op, BitVec.ofNat 64 a, kvIndex r layer pos⟩
  if !value && pos % t == t - 1 && r.digest != 0 && !s.op.seals.contains due then { s with op.seals := s.op.seals ++ [due] } else s

/-! ## Digests (R263, R265) -/

/-- A key element of a page as FP32. -/
def keyElem (page : List Byte) (kvheads hd t h d : Nat) : W32 :=
  (toF32 0xA (nth 0 page ((t * kvheads + h) * hd + d)).toNat).v

/-- One element of a digest, and the flags that forming it raises (R265, R42). -/
def digestElem (page : List Byte) (kvheads hdim h j : Nat) : Byte × BitVec 4 :=
  let hd := hdim * 16
  let g := hd / 64
  let tt := pageTokens kvheads hdim
  let sum := (upFrom 0 (tt * g)).foldl
    (fun (acc : Fv) k => acc.add ⟨keyElem page kvheads hd (k / g) h (j * g + k % g), 0⟩) Fv.zero
  let mean := sum.div (f32ofInt tt)
  let (c, f) := fromF32 0xA mean.v
  (BitVec.ofNat 8 c, mean.f ||| f)

/-- The digest of a page and its flags (R265, R42), from the bytes of its keys. -/
def pageDigest (page : List Byte) (kvheads hdim : Nat) : List Byte × BitVec 4 :=
  let es := (upFrom 0 (kvheads * 64)).map fun k => digestElem page kvheads hdim (k / 64) (k % 64)
  (es.map Prod.fst, es.foldl (fun f x => f ||| x.2) 0)

/-- A page is sealed (R263): its digest is written, and then DVALID set. Only the bytes that hold keys are read (R256); a
page that cannot be read is not sealed. (DESIGN CHOICE, log entry 57) -/
def sealPage (s : State) (inst : Inst) (x : SealDue) : State :=
  let r := seqRec s x.seq.toNat
  let ea := entAddr r x.entry
  let page := (rdEnt s ea).frame * 0x8000
  let len := pageTokens r.kvheads r.hdim * tokenBytes r.kvheads r.hdim
  if rangeBad s page len then s
  else
    let (d, f) := pageDigest (rdBytes s page len) r.kvheads r.hdim
    setDvalid (wrBytes (opFlags s x.op f) inst (r.digest + x.entry * (r.kvheads * 64)) d) inst ea true

end Sys2Proof.Machine
end

