-- ==== Sys2Proof/Machine/PassStart.lean ====
section
/-! DEFINITION. The start of PASS, PASS.X, DRAIN and Lantern operations: their descriptors and maps, the checks
of R231, and the passes that they ask of tiles (R229 to R239). -/

namespace Sys2Proof.Machine

open Sys2Proof

/-! ## Layout -/

/-- A placement map item (R230), and whether its reserved bits are 0. -/
def passItem (v : Nat) : PassItem :=
  { tile := v % 1024, array := bits v 10 6, kblock := bits v 16 16, nblock := bits v 32 16, firstPos := bits v 48 6, msel := bit v 54 }

/-- A position target item (R234). -/
def posItem (v : Nat) : PosItem := { tile := v % 1024, firstPos := bits v 10 6, kblock := bits v 16 16, uses := bits v 32 8 }

/-- `n` words of 8 bytes from an address. -/
def rdWords (s : State) (a n : Nat) : List Nat := (upFrom 0 n).map fun i => rdNat s (a + 8 * i) 8

/-- The drain fields of a descriptor (R229), without its position items. -/
def drainSpec (l : List Byte) : DrainSpec :=
  let m := at_ l 0x40 1
  { epi := m % 4, mem := bit m 2, pos := bit m 3, rms := bit m 4, kv := bit m 5, fmt := at_ l 0x41 1 % 16
    eps := BitVec.ofNat 32 (at_ l 0x44 4), dst := BitVec.ofNat 64 (at_ l 0x48 8), dstStride := at_ l 0x50 4
    resStride := at_ l 0x54 4, res := BitVec.ofNat 64 (at_ l 0x58 8), scaleOut := BitVec.ofNat 64 (at_ l 0x68 8) }

/-- Repeats by REPEAT (R229). -/
def repeatsOf (m : Nat) : Nat := if m % 4 = 0 then 1 else if m % 4 = 1 then 2 else 4

/-- The fields of a PASS descriptor (R229), without its maps. -/
def passWork (l : List Byte) (exact : Bool) : PassWork :=
  let m := at_ l 0x3C 1
  { exact := exact, matrix := BitVec.ofNat 32 (at_ l 0x28 4), matrix2 := BitVec.ofNat 32 (at_ l 0x2C 4)
    mapAddr := BitVec.ofNat 64 (at_ l 0x30 8), vectors := at_ l 0x3A 1, variant := at_ l 0x3B 1 % 64
    reps := repeatsOf m, acc := b2n (bit m 2), unsigned := bit m 3, hold := bit m 4, drain := drainSpec l }

/-- The sizes of the memory output formats that R233 allows. -/
def outSize (fmt : Nat) : Nat :=
  if fmt = 0x4 ∨ fmt = 0xA ∨ fmt = 0xB then 1 else if fmt = 0xD ∨ fmt = 0xE then 2 else if fmt = 0xF then 4 else 0

/-- Whether the fields of a descriptor keep R229 and R233. -/
def passFieldsOk (l : List Byte) : Bool :=
  let d := drainSpec l
  let items := at_ l 0x38 2
  let v := at_ l 0x3A 1
  1 ≤ items && items ≤ 4096 && 1 ≤ v && v ≤ 32 && at_ l 0x3B 1 < 64 && at_ l 0x3C 1 < 32 && at_ l 0x3C 1 % 4 != 3 &&
    at_ l 0x3D 3 == 0 && at_ l 0x70 16 == 0 && at_ l 0x30 8 % 8 == 0 && d.epi != 3 && at_ l 0x40 1 < 64 &&
    at_ l 0x41 1 < 16 && outSize d.fmt != 0 && at_ l 0x42 2 ≤ 4096 && (!d.rms || d.pos) &&
    (!d.kv || (d.epi == 0 && !d.pos && !d.rms && d.fmt == 0xA)) && (!d.pos || at_ l 0x60 8 % 8 == 0)

/-! ## Maps (R230, R232) -/

/-- The order in which items must stand (R230). -/
def itemBefore (a b : PassItem) : Bool :=
  let k (x : PassItem) : Nat := ((x.tile * 65536 + x.nblock) * 2 + b2n x.msel) * 65536 + x.kblock
  k a < k b

/-- The O-blocks of a tile, in ascending NBLOCK and then MSEL (R232). -/
def tileObs (items : List PassItem) (t : Nat) : List (Nat × Bool) :=
  ((items.filter fun x => x.tile == t).map fun x => (x.nblock, x.msel)).eraseDups

/-- The tiles of a map. -/
def mapTiles (items : List PassItem) : List Nat := (items.map (·.tile)).eraseDups

/-- OBLOCKS (R232). -/
def oblocksOf (items : List PassItem) : Nat := ((mapTiles items).map fun t => (tileObs items t).length).foldl max 0

/-- The KBLOCKs of a list, and those of its range in a tile. -/
def listKs (items : List PassItem) (n : Nat) (m : Bool) : List Nat :=
  (items.filter fun x => x.nblock == n && x.msel == m).map (·.kblock)

def rangeKs (items : List PassItem) (t n : Nat) (m : Bool) : List Nat :=
  (items.filter fun x => x.tile == t && x.nblock == n && x.msel == m).map (·.kblock)

/-- Whether a range in a tile is the last of its list (R232). -/
def isFinal (items : List PassItem) (t n : Nat) (m : Bool) : Bool :=
  (rangeKs items t n m).contains ((listKs items n m).length - 1)

/-- A number's place in an ascending list without repeats. -/
def insertUp (n : Nat) : List Nat → List Nat
  | [] => [n]
  | m :: l => if n < m then n :: m :: l else if n = m then m :: l else m :: insertUp n l

/-- The output blocks of an operation, ascending. -/
def nblocksOf (items : List PassItem) : List Nat := items.foldl (fun l x => insertUp x.nblock l) []

/-- Whether the KBLOCKs of every list are 0 to K − 1, with one consecutive range in each tile (R230). -/
def listsOk (items : List PassItem) : Bool :=
  ((items.map fun x => (x.nblock, x.msel)).eraseDups).all fun (n, m) =>
    let ks := listKs items n m
    (upFrom 0 ks.length).all (fun k => ks.contains k) &&
      (mapTiles items).all fun t =>
        let r := rangeKs items t n m
        r == upFrom (nth 0 r 0) r.length

/-- What MSEL may hold (R229, R230, R233). -/
def mselOk (w : PassWork) : Bool :=
  let ns := (w.items.map (·.nblock)).eraseDups
  let has (n : Nat) (m : Bool) : Bool := w.items.any fun x => x.nblock == n && x.msel == m
  (w.items.any (·.msel) || w.matrix2 == 0) &&
    if w.drain.epi = 2 then
      ns.all fun n => has n false && has n true &&
        (mapTiles w.items).all fun t => isFinal w.items t n false == isFinal w.items t n true
    else ns.all fun n => !(has n false && has n true)

/-- Whether the maps of an operation keep their rules. -/
def mapsOk (w : PassWork) (words posWords : List Nat) : Bool :=
  words.all (fun v => v / 2 ^ 55 == 0) && rising itemBefore w.items && listsOk w.items && mselOk w && w.oblocks ≤ 32 &&
    (!w.hold || w.vectors ≤ w.vb) && posWords.all (fun v => v / 2 ^ 40 == 0) &&
    w.drain.posItems.all fun p => 1 ≤ p.uses && w.items.any fun x => x.nblock == p.kblock

/-! ## Failing to start -/

/-- An operation fails at its start. -/
def failStart (s : State) (e : Nat) (r : Byte) (detail : Nat) : State := setResult s e r detail

/-- A logical tile whose physical tile is fenced, or lies on a fenced Spire (R231). -/
def tileFenced (s : State) (t : Nat) : Bool :=
  s.flt.devFence || (getTile s (physTile s t)).fenced || s.flt.spireFenced.getLsbD (t / 256)

/-- The failure that a tile itself gives an operation (R231), in that order. -/
def tileFault (s : State) (inst : Inst) (t : Nat) : Option Byte :=
  let x := getTile s (physTile s t)
  if !ownsTile s inst t then some rUnitAccess
  else if tileFenced s t then some rFenced
  else if x.locked then some rLocked
  else if x.image.isNone || !x.loaded then some rNotLoaded
  else none

/-- Whether the image in force places what an item names (R231). -/
def placed (s : State) (w : PassWork) (x : PassItem) : Bool :=
  match curSlotOf (getTile s (physTile s x.tile)) x.array with
  | none => false
  | some k =>
    match placeOf (getImage s k) x.tile x.array with
    | none => false
    | some (_, r) => r.matrix == (if x.msel then w.matrix2 else w.matrix) && r.kblock.toNat == x.kblock && r.nblock.toNat == x.nblock

/-- The first failure of the items, in the order of R231, with the tile at which it was found. -/
def itemsFault (s : State) (inst : Inst) (w : PassWork) : Option (Byte × Nat) :=
  let ts := mapTiles w.items
  let found (r : Byte) : Option (Byte × Nat) := (firstOf (fun t => tileFault s inst t == some r) ts).map fun t => (r, t)
  let foreign := (firstOf (fun p : PosItem => !ownsTile s inst p.tile) w.drain.posItems).map fun p => (rUnitAccess, p.tile)
  let badPlace := (firstOf (fun x => !placed s w x) w.items).map fun x => (rPlacement, x.tile)
  let absent := (firstOf (fun t => w.variant != 0 && (varOf (getTile s (physTile s t)) w.variant).res == 0) ts).map
    fun t => (rVariantAbsent, t)
  [found rUnitAccess, foreign, found rFenced, found rLocked, found rNotLoaded, badPlace, absent].foldl
    (fun acc x => if acc.isSome then acc else x) none

/-- Whether the drain reaches only memory of the instance (R228 UNIT_ACCESS). -/
def drainReach (s : State) (inst : Inst) (w : PassWork) : Bool :=
  let d := w.drain
  let ns := nblocksOf w.items
  let sz := outSize d.fmt * 512
  (upFrom 0 w.vectors).all fun v =>
    (!d.mem || d.kv || ns.all fun n => inInst s inst (d.dst.toNat + v * d.dstStride + n * sz) sz) &&
      (!(d.mem && d.fmt == 4 && !d.kv) || inInst s inst (d.scaleOut.toNat + 4 * v) 4) &&
      (d.epi != 1 || ns.all fun n => inInst s inst (d.res.toNat + v * d.resStride + n * 2048) 2048)

/-! ## Starting -/

/-- The operation's body: as ARM kept it (R250), or read from memory (R226). -/
def opBody (s : State) (e : Nat) : List Byte :=
  let o := getOp s e
  if o.body.isEmpty then rdBytes s o.addr.toNat (kindSize o.kind.toNat) else o.body

/-- The blocks that an operation fills in each tile: one for each group of VB vectors. -/
def groupsOf (w : PassWork) : Nat := (w.vectors + w.vb - 1) / w.vb

/-- Whether the vectors of an operation meet at quantise (R233). -/
def needsQuant (w : PassWork) : Bool := !w.hold && (w.drain.pos || (w.drain.mem && w.drain.fmt == 4 && !w.drain.kv))

/-- The pass that an item asks for vector `v`. (DESIGN CHOICE, log entry 56) -/
def passReq (s : State) (e : Nat) (w : PassWork) (x : PassItem) (v : Nat) : PassReq :=
  let r := rangeKs w.items x.tile x.nblock x.msel
  { op := e, seq := (getOp s e).seq, inst := (getOp s e).inst, array := x.array, kblock := x.kblock, firstK := nth 0 r 0, lastK := nth 0 r 0 + r.length - 1
    listLast := (listKs w.items x.nblock x.msel).length - 1, nblock := x.nblock, msel := x.msel
    oix := (upFrom 0 32).foldl (fun acc i => if nth (0, false) (tileObs w.items x.tile) i == (x.nblock, x.msel) && i < (tileObs w.items x.tile).length then i else acc) 0
    vec := v, pos := (x.firstPos + v) % 64, reps := w.reps, variant := w.variant, unsigned := w.unsigned, exact := w.exact
    blk := (w.acc + v / w.vb) % 2, slotV := v % w.vb }

/-- The passes of an operation go to the tiles of its items, in item order and then vector order. (DESIGN CHOICE, log entry 56) -/
def askPasses (s : State) (e : Nat) (w : PassWork) : State :=
  (mapTiles w.items).foldl
    (fun s t =>
      let p := physTile s t
      let x := getTile s p
      setTile s p { x with todo := x.todo ++
        (w.items.filter fun i => i.tile == t).flatMap fun i => (upFrom 0 w.vectors).map (passReq s e w i) }) s

/-- An operation is under way. -/
def startWork (s : State) (e : Nat) (w : Work) : State := setOp s e { getOp s e with work := w }

/-- The map of an operation and its position items are read, with the failure that reading them meets. -/
def readMaps (s : State) (inst : Inst) (l : List Byte) (w : PassWork) : Option Byte × PassWork × List Nat × List Nat :=
  let items := at_ l 0x38 2
  let np := if w.drain.pos then at_ l 0x42 2 else 0
  let pa := at_ l 0x60 8
  let a := w.mapAddr.toNat
  if !inInst s inst a (8 * items) || !inInst s inst pa (8 * np) then (some rUnitAccess, w, [], [])
  else if rangeBad s a (8 * items) || rangeBad s pa (8 * np) then (some rMemErr, w, [], [])
  else
    let words := rdWords s a items
    let posWords := rdWords s pa np
    let its := words.map passItem
    let ob := oblocksOf its
    (none, { w with items := its, drain := { w.drain with posItems := posWords.map posItem }
                    oblocks := ob, vb := 32 / max 1 ob }, words, posWords)

/-- The failure of a PASS at its start, if any (R231). -/
def passFault (s : State) (inst : Inst) (l : List Byte) (maps : Option Byte × PassWork × List Nat × List Nat) : Option (Byte × Nat) :=
  let (f, w, words, posWords) := maps
  match f with
  | some r => some (r, 0xFFFF)
  | none =>
    let kv := if w.drain.kv && !w.hold then kvFault s inst w.drain.dst.toNat ((nblocksOf w.items).length * 512) w.vectors else none
    if !passFieldsOk l || !mapsOk w words posWords || kv == some rMalformed then some (rMalformed, 0xFFFF)
    else match itemsFault s inst w with
      | some (r, t) => if r = rUnitAccess ∨ drainReach s inst w = true then some (r, t) else some (rUnitAccess, 0xFFFF)
      | none =>
        match kv with
        | some r => some (r, 0xFFFF)
        | none => if drainReach s inst w then none else some (rUnitAccess, 0xFFFF)

/-- A PASS or PASS.X starts (R226, R231). -/
def startPass (s : State) (e : Nat) (exact : Bool) : State :=
  let o := getOp s e
  let l := opBody s e
  if !passFieldsOk l then failStart s e rMalformed 0xFFFF
  else
    let maps := readMaps s o.inst l (passWork l exact)
    match passFault s o.inst l maps with
    | some (r, t) => failStart s e r t
    | none =>
      let w := maps.2.1
      let w := { w with
        drainsLeft := (mapTiles w.items).length * groupsOf w
        posLeft := if w.drain.pos && !w.hold then w.drain.posItems.length * w.vectors else 0 }
      askPasses (startWork s e (.pass w)) e w

/-! ## Accumulator blocks (R87, R236) -/

/-- A block of a tile, and one replaced: a block that nothing has any more is free. -/
def getBlock (t : Tile) (b : Nat) : Block := tabGet {} t.blocks b
def setBlock (t : Tile) (b : Nat) (v : Block) : Tile :=
  { t with blocks := if v.fills.isEmpty then tabDel t.blocks b else tabPut t.blocks b v }

/-- The fill of a block by an operation. -/
def findFill (k : Block) (e : Nat) : Option Fill := firstOf (fun x => x.op == some e) k.fills
def fillOf (k : Block) (e : Nat) : Fill := (findFill k e).getD { op := some e }

/-- The fill of an operation changed; a new one comes last. -/
def putFill (k : Block) (e : Nat) (x : Fill) : Block :=
  { k with fills := if (findFill k e).isSome then k.fills.map fun y => if y.op = some e then x else y else k.fills ++ [x] }

/-- Fills for which `f` holds are given up. -/
def dropFills (f : Fill → Bool) (k : Block) : Block := { k with fills := k.fills.filter fun x => !f x }

/-- Fills for which `f` holds are given up in every block of a tile. -/
def dropTileFills (f : Fill → Bool) (t : Tile) : Tile :=
  { t with blocks := (t.blocks.map fun (i, k) => (i, dropFills f k)).filter fun (_, k) => !k.fills.isEmpty }

/-- The fill whose drain is in progress: the oldest (R87). -/
def drainingFill (k : Block) : Option Fill := firstOf (fun x => x.draining) k.fills

/-- The work that holds a block (R235). -/
def heldWork (k : Block) : Option PassWork := (firstOf (fun x => x.held.isSome) k.fills).bind (·.held)

/-- Whether a held block is the one that a DRAIN names (R235). -/
def heldFor (w h : PassWork) (items : Nat) : Bool :=
  h.mapAddr == w.mapAddr && h.items.length == items && h.matrix == w.matrix && h.matrix2 == w.matrix2 &&
    h.vectors == w.vectors && h.acc == w.acc

/-- The held work that a DRAIN matches, with the physical tiles whose blocks hold it (R235). -/
def findHeld (s : State) (inst : Inst) (w : PassWork) (items : Nat) : Option (PassWork × List Nat) :=
  let hits := s.tile.tiles.filterMap fun (p, t) =>
    match heldWork (getBlock t w.acc) with
    | some h => if heldFor w h items && (match logTile s p with | some n => ownsTile s inst n | none => false) then some (p, h) else none
    | none => none
  match hits with
  | [] => none
  | (_, h) :: _ => some (h, hits.map Prod.fst)

/-- A DRAIN starts (R235): the held blocks begin to drain by its drain fields. -/
def startDrain (s : State) (e : Nat) : State :=
  let o := getOp s e
  let l := opBody s e
  let w0 := passWork l false
  match findHeld s o.inst w0 (at_ l 0x38 2) with
  | none => failStart s e rMalformed 0xFFFF
  | some (h, ps) =>
    let np := if w0.drain.pos then at_ l 0x42 2 else 0
    let pa := at_ l 0x60 8
    let bad : Option Byte := if !passFieldsOk l then some rMalformed
      else if !inInst s o.inst pa (8 * np) then some rUnitAccess
      else if rangeBad s pa (8 * np) then some rMemErr
      else none
    let posWords := rdWords s pa np
    let w := { h with hold := false, drain := { w0.drain with posItems := posWords.map posItem }, drainsLeft := ps.length }
    let w := { w with posLeft := if w.drain.pos then w.drain.posItems.length * w.vectors else 0 }
    match bad with
    | some r => failStart s e r 0xFFFF
    | none =>
    if !mapsOk w [] posWords then failStart s e rMalformed 0xFFFF
    else if w.drain.posItems.any fun p => !ownsTile s o.inst p.tile then failStart s e rUnitAccess 0xFFFF
    else if !drainReach s o.inst w then failStart s e rUnitAccess 0xFFFF
    else match (if w.drain.kv then kvFault s o.inst w.drain.dst.toNat ((nblocksOf w.items).length * 512) w.vectors else none) with
      | some r => failStart s e r 0xFFFF
      | none =>
        let s := startWork s e (.pass w)
        ps.foldl
          (fun s p =>
            let t := getTile s p
            let k := getBlock t w.acc
            setTile s p (setBlock t w.acc { k with fills := k.fills.map fun x =>
              if x.held.isSome then { x with op := some e, held := none, draining := true } else x })) s

/-! ## Lantern operations (R238, R239) -/

/-- The failure that the tiles of a Lantern operation give it. (DEDUCED, log entry 59) -/
def ltnTilesFault (s : State) (inst : Inst) (ts : List Nat) : Option (Byte × Nat) :=
  let found (r : Byte) : Option (Byte × Nat) := (firstOf (fun t => tileFault s inst t == some r) ts).map fun t => (r, t)
  [found rFenced, found rLocked, found rNotLoaded].foldl (fun acc x => if acc.isSome then acc else x) none

/-- The image in force of a tile, and whether an array of it is INT2. -/
def tileImageId (s : State) (t : Nat) : W64 :=
  match (getTile s (physTile s t)).image with
  | some k => (getImage s k).imageId
  | none => 0

def tileInt2 (s : State) (t l : Nat) : Bool :=
  match curSlotOf (getTile s (physTile s t)) l with
  | some k => int2Of (getImage s k) t l
  | none => false

/-- LTN.LOAD starts: the whole set is checked before any Lantern is written (R110, R239). (DEDUCED, log entry 59) -/
def startLtnLoad (s : State) (e : Nat) (l : List Byte) (range : List Nat) : State :=
  let o := getOp s e
  let a := at_ l 0x28 8
  let h := rdBytes s a 64
  if a % 64 ≠ 0 then failStart s e rMalformed 0xFFFF
  else if !inInst s o.inst a 64 then failStart s e rUnitAccess 0xFFFF
  else if rangeBad s a 64 then failStart s e rMemErr 0xFFFF
  else if !setHeaderOk h then failStart s e rLtnMalformed 0xFFFF
  else if at_ h 6 1 ≠ at_ l 0x34 1 then failStart s e rMalformed 0xFFFF
  else if !inInst s o.inst a (at_ h 0x1C 4) then failStart s e rUnitAccess 0xFFFF
  else if rangeBad s a (at_ h 0x1C 4) then failStart s e rMemErr 0xFFFF
  else
    let dir := setDir (rdBytes s a (0x40 + 8 * at_ h 0x10 4)) (at_ h 0x10 4)
    let mine := dir.filter fun (t, _, _) => range.contains t
    let ts := mine.map fun (t, _, _) => t
    match ltnTilesFault s o.inst ts with
    | some (r, t) => failStart s e r t
    | none =>
      if !setContentOk s a h (tileInt2 s) || ts.any (fun t => tileImageId s t != BitVec.ofNat 64 (at_ h 8 8)) then
        failStart s e rLtnMalformed 0xFFFF
      else
        let s := startWork s e (.ltn { load := true, set := BitVec.ofNat 64 a, entryBase := BitVec.ofNat 64 (a + at_ h 0x18 4)
                                       variant := at_ h 6 1, left := ts, dir := mine })
        if ts.isEmpty then setResult s e rOk 0xFFFF else s

/-- LTN.LOAD or LTN.REL starts (R238, R239). (DEDUCED, log entry 59) -/
def startLtn (s : State) (e : Nat) (load : Bool) : State :=
  let o := getOp s e
  let l := opBody s e
  let first := at_ l 0x30 2
  let n := at_ l 0x32 2
  let v := at_ l 0x34 1
  let range := upFrom first n
  if 1024 ≤ first ∨ n = 0 ∨ 1024 < first + n ∨ v = 0 ∨ 64 ≤ v ∨ at_ l 0x35 11 ≠ 0 ∨ (load = false ∧ at_ l 0x28 8 ≠ 0) then
    failStart s e rMalformed 0xFFFF
  else match firstOf (fun t => !ownsTile s o.inst t) range with
    | some t => failStart s e rUnitAccess t
    | none =>
      if load then startLtnLoad s e l range
      else match ltnTilesFault s o.inst range with
        | some (r, t) => failStart s e r t
        | none => startWork s e (.ltn { load := false, variant := v, left := range })

/-! ## LTN_COMMIT -/

/-- A set load commits in a tile (R103, R106, R111). -/
def ltnLoadTile (s : State) (e : Nat) (w : LtnWork) (t : Nat) : State :=
  let p := physTile s t
  let n := (dirOf w t).2
  let (tl, placed) := commitSet (getTile s p) w.variant w.entryBase (runOf s w t)
  let s := opCounts (setTile s p tl) e placed (n - placed)
  let s := if placed < n ∧ regFld s (tileBlk p) 0x008 17 1 = 1 then emitLantern s p w.variant 1 (n - placed) else s
  ltnTileDone s e w t

/-- Whether the port has taken all that a set load writes in a tile (R112). -/
def portTook (t : Tile) (e : Nat) : Bool := t.port.any fun r => r.user == .load e && r.left == 0

/-- LTN_COMMIT (R107, R111, R112, R239): a set load commits once the write port has taken its entries; one whose entries
cannot be written fails (R94). -/
def execLtnCommit (t : TileId) (e : OpIx) (s : State) : Out :=
  let p := t.spire.val * 264 + t.tile.val
  match logTile s p, (getOp s e).work with
  | some n, .ltn w =>
    if (getOp s e).started && (getOp s e).result.isNone && w.left.contains n && !ltnEarlier s e n then
      if w.load then
        let s := servePort s p
        match writeFault s w n (tileInt2 s n) with
        | some r => .next (setResult s e r n)
        | none =>
          if portTook (getTile s p) e then
            let tl := getTile s p
            .next (ltnLoadTile (setTile s p { tl with port := tl.port.filter fun r => r.user != .load e }) e w n)
          else .next s
      else if tileUsesVar s p w.variant then .next s
      else .next (ltnTileDone (setTile s p (releaseVar (getTile s p) w.variant)) e w n)
    else .next s
  | _, _ => .next s

end Sys2Proof.Machine
end

