-- ==== Sys2Proof/Machine/Accum.lean ====
section
/-! DEFINITION. Accumulation of column results, seeds, drains, quantise and position writes (R80, R81, R85 to
R91, R232 to R235, R263). -/

namespace Sys2Proof.Machine

open Sys2Proof

/-! ## Lists of FP32 values -/

/-- The values of a list of results, and the flags they raise. -/
def fvVals (l : List Fv) : List W32 := l.map (·.v)
def fvFlags (l : List Fv) : BitVec 4 := l.foldl (fun f x => f ||| x.f) 0

/-- Element-wise sums; columns that `p` does not have keep their value (an INT2 array has 256). -/
def addRows : List W32 → List W32 → List Fv
  | x :: xs, p :: ps => f32add x p :: addRows xs ps
  | xs, [] => xs.map fun x => ⟨x, 0⟩
  | [], _ => []

/-- 512 zeros. -/
def zeroRow : List W32 := List.replicate 512 0

/-! ## Completion of PASS and XFER.FILL -/

/-- Whether nothing is left to be done for a PASS or DRAIN (R227, R234). -/
def passDone (w : PassWork) : Bool :=
  w.drainsLeft == 0 && (!needsQuant w || w.vectors ≤ w.quantised.length) && w.posLeft == 0

/-- The operation's work changed, and its result set once nothing is left. -/
def putPass (s : State) (e : Nat) (w : PassWork) : State :=
  let s := setOp s e { getOp s e with work := .pass w }
  if passDone w then setResult s e rOk 0xFFFF else s

/-- The PASS work of an operation. -/
def passOf (s : State) (e : Nat) : Option PassWork :=
  match (getOp s e).work with
  | .pass w => some w
  | _ => none

/-- An operation fails during its passes (R231): its result stands, its waiting passes and the sums of the
blocks it fills are discarded; passes admitted and drains in progress go on. -/
def failPass (s : State) (e : Nat) (r : Byte) (detail : Nat) : State :=
  if (getOp s e).result.isSome then s
  else
    let s := setResult s e r detail
    { s with
      op.seeds := s.op.seeds.filter fun x => x.op != e
      tile.tiles := tabMap (fun _ t =>
        { dropTileFills (fun x => x.op == some e && !x.draining) t with
          todo := t.todo.filter fun x => x.op != e
          runs := t.runs.filter fun x => x.op != e
          parked := t.parked.filter fun x => x.req.op != e
          seeds := t.seeds.filter fun x => x.op != e }) s.tile.tiles }

/-! ## Runs (R85, R86, R91) -/

/-- Whether a run is the one that a pass belongs to. -/
def runMatches (q : PassReq) (r : Run) : Bool := r.op == q.op && r.nblock == q.nblock && r.msel == q.msel && r.vec == q.vec

/-- Whether a seed is for the run of a pass. -/
def seedMatches (q : PassReq) (x : SeedMsg) : Bool := x.op == q.op && x.nblock == q.nblock && x.msel == q.msel && x.vec == q.vec

def findRun (t : Tile) (q : PassReq) : Option Run := firstOf (runMatches q) t.runs
def findSeed (t : Tile) (q : PassReq) : Option SeedMsg := firstOf (seedMatches q) t.seeds

/-- The vectors of a group of an operation (R232). -/
def groupVectors (w : PassWork) (g : Nat) : Nat := min w.vb (w.vectors - g * w.vb)

/-- Whether a tile holds final ranges of an operation (R232). -/
def hasFinal (w : PassWork) (n : Nat) : Bool := (tileObs w.items n).any fun (b, m) => isFinal w.items n b m

/-- A fill whose runs have all ended (R88, R232, R235): held, drained, or free at once when it holds seeds
only. -/
def blockFull (s : State) (p n b : Nat) (e : Nat) (w : PassWork) : State :=
  let t := getTile s p
  let k := getBlock t b
  let x := fillOf k e
  if w.hold then
    putPass (setTile s p (setBlock t b (putFill k e { x with op := none, held := some w }))) e { w with drainsLeft := w.drainsLeft - 1 }
  else if hasFinal w n then setTile s p (setBlock t b (putFill k e { x with draining := true }))
  else putPass (setTile s p (setBlock t b (dropFills (fun y => y.op == some e) k))) e { w with drainsLeft := w.drainsLeft - 1 }

/-- The end of a run (R85, R86): its sums go to its slots, or as a seed to the next tile of its list. -/
def endRun (s : State) (p : Nat) (q : PassReq) (sum : List W32) : State :=
  match passOf s q.op, logTile s p with
  | some w, some n =>
    let t := getTile s p
    let k := getBlock t q.blk
    let last := q.lastK == q.listLast
    let x := fillOf k q.op
    let x' := { x with final := x.final ++ [(q.oix, q.vec)] }
    let k' := putFill { k with slots := if last then tabPut k.slots (q.slotV * 32 + q.oix) sum else k.slots } q.op x'
    let s := setTile s p (setBlock t q.blk k')
    let s := if last then s
      else match firstOf (fun x => x.nblock == q.nblock && x.msel == q.msel && x.kblock == q.lastK + 1) w.items with
        | none => s
        | some i =>
          let m : SeedMsg := ⟨q.op, i.tile, q.nblock, q.msel, q.vec, tabGet 0 x.scales q.slotV, sum⟩
          { s with op.seeds := s.op.seeds ++ [m] }
    if x'.final.length = (tileObs w.items n).length * groupVectors w x.group then blockFull s p n q.blk q.op w else s
  | _, _ => s

/-- The results of a run are taken in order (R85, R91): the next one if it is there, then those parked behind
it. -/
def advanceRun (p : Nat) : Nat → State → Run → PassReq → List W32 → State
  | 0, s, _, _, _ => s
  | fuel + 1, s, r, q, v =>
    let sums := addRows r.sum v
    let s := opFlags s q.op (fvFlags sums)
    let r := { r with next := r.next + 1, sum := fvVals sums }
    let t := getTile s p
    if q.lastK < r.next then
      endRun (setTile s p { t with runs := t.runs.filter fun x => !runMatches q x }) p q r.sum
    else match firstOf (fun x : RunRes => runMatches x.req r && x.req.kblock == r.next) t.parked with
      | none => setTile s p { t with runs := r :: t.runs.filter fun x => !runMatches q x }
      | some x =>
        advanceRun p fuel
          (setTile s p { t with parked := t.parked.filter fun y => !(runMatches y.req r && y.req.kblock == r.next) }) r x.req x.p

/-- A result is parked until those before it have come (R91). -/
def park (s : State) (p : Nat) (q : PassReq) (v : List W32) : State :=
  let t := getTile s p
  setTile s p { t with parked := t.parked ++ [⟨q, v⟩] }

/-- A column result enters its run (R85, R86, R91). Results of an operation that has failed are discarded. -/
def deliver (s : State) (p : Nat) (q : PassReq) (v : List W32) : State :=
  let t := getTile s p
  if (getOp s q.op).result.isSome ∨ (getOp s q.op).used = false then s
  else match findRun t q with
    | some r => if r.next = q.kblock then advanceRun p (t.parked.length + 1) s r q v else park s p q v
    | none =>
      if q.kblock ≠ q.firstK then park s p q v
      else
        let start := match findSeed t q with
          | some x => if q.firstK = 0 then zeroRow else x.sums
          | none => zeroRow
        let s := setTile s p { t with seeds := t.seeds.filter fun x => !seedMatches q x }
        advanceRun p (t.parked.length + 1) s ⟨q.op, q.nblock, q.msel, q.vec, q.kblock, start⟩ q v

/-! ## Drains (R88, R233) -/

/-- silu, each step rounding once (R233). -/
def silu (x : Fv) : Fv := x.div ((⟨0x3F800000#32, 0⟩ : Fv).add (Fv.exp ⟨f32flip x.v, x.f⟩))

/-- A row of a block after the activation scale (R50, R233). -/
def scaledRow (k : Block) (x : Fill) (o v vb : Nat) : List Fv :=
  let sc := tabGet 0 x.scales (v % vb)
  (tabGet zeroRow k.slots (v % vb * 32 + o)).map fun x => f32mul x sc

/-- An FP32 row in memory. -/
def rdRow32 (s : State) (a : Nat) : List Fv := (upFrom 0 512).map fun c => ⟨BitVec.ofNat 32 (rdNat s (a + 4 * c) 4), 0⟩

/-- The number of an O-block in a tile. -/
def obIndex (w : PassWork) (n b : Nat) (m : Bool) : Nat :=
  match firstOf (fun (_, x) => x == (b, m)) ((upFrom 0 32).zip (tileObs w.items n)) with
  | some (i, _) => i
  | none => 0

/-- The values of an output row before conversion (R233). -/
def drainRow (s : State) (w : PassWork) (k : Block) (x : Fill) (n b v : Nat) (m : Bool) : List Fv :=
  let y := scaledRow k x (obIndex w n b m) v w.vb
  match w.drain.epi with
  | 1 => (y.zip (rdRow32 s (w.drain.res.toNat + v * w.drain.resStride + b * 2048))).map fun (a, r) => a.add r
  | 2 => ((scaledRow k x (obIndex w n b false) v w.vb).zip (scaledRow k x (obIndex w n b true) v w.vb)).map fun (g, u) => (silu g).mul u
  | _ => y

/-- FP32 values converted to a format (R40), as elements and flags. -/
def convertRow (fmt : Nat) (l : List W32) : List Nat × BitVec 4 :=
  l.foldr (fun x (es, f) => let (c, g) := fromF32 fmt x; (c :: es, f ||| g)) ([], 0)

/-- The bytes of elements of a whole number of bytes each. -/
def elemBytes (size : Nat) (l : List Nat) : List Byte := l.flatMap fun c => toBytes c size

/-- The output rows of a drained block: vector, output block and MSEL, in order. Under GATED a block's two rows
make one. -/
def drainRows (w : PassWork) (n : Nat) (x : Fill) : List (Nat × Nat × Bool) :=
  let vs := (upFrom 0 w.vectors).filter fun v => x.final.any fun (_, y) => y == v
  vs.flatMap fun v => ((tileObs w.items n).filter fun (b, m) =>
    isFinal w.items n b m && !(w.drain.epi == 2 && m)).map fun (b, m) => (v, b, m)

/-- One output row is written to memory or appended, and kept for quantise (R233, R261). -/
def drainOut (e n : Nat) (k : Block) (x : Fill) (s : State) (r : Nat × Nat × Bool) : State :=
  let (v, b, m) := r
  match passOf s e with
  | none => s
  | some w =>
    let d := w.drain
    let row := drainRow s w k x n b v m
    let s := opFlags s e (fvFlags row)
    let y := fvVals row
    let s := if d.kv then
        let (c, f) := convertRow 0xA y
        opFlags (kvAppend s e d.dst.toNat v b (elemBytes 1 c)) e f
      else if d.mem && d.fmt != 4 then
        let (c, f) := convertRow d.fmt y
        let sz := outSize d.fmt
        opFlags (wrBytes s (getOp s e).inst (d.dst.toNat + v * d.dstStride + b * 512 * sz) (elemBytes sz c)) e f
      else s
    if needsQuant w then setOp s e { getOp s e with work := .pass { w with y := tabPut w.y (v * 65536 + b) y } } else s

/-- Whether the residual of a block's drain can be read. -/
def resReadable (s : State) (w : PassWork) (rows : List (Nat × Nat × Bool)) : Bool :=
  w.drain.epi != 1 || rows.all fun (v, b, _) => !rangeBad s (w.drain.res.toNat + v * w.drain.resStride + b * 2048) 2048

/-- BLOCK_DRAIN_END (R88, R233, R261): the drain in progress ends. -/
def execBlockDrainEnd (t : TileId) (b : Fin 2) (s : State) : Out :=
  let p := t.spire.val * 264 + t.tile.val
  let k := getBlock (getTile s p) b
  match drainingFill k, logTile s p with
  | some x, some n =>
    let e := x.op.getD 4096
    match passOf s e with
    | some w =>
      let free (s : State) : State :=
        setTile s p (setBlock (getTile s p) b (dropFills (fun y => y.op == x.op && y.draining) (getBlock (getTile s p) b)))
      let rows := drainRows w n x
      if !resReadable s w rows then .next (failPass (free s) e rMemErr n)
      else
        let s := free (bumpFree (rows.foldl (drainOut e n k x) s))
        match passOf s e with
        | some w => .next (putPass s e { w with drainsLeft := w.drainsLeft - 1 })
        | none => .next s
    | none => .next s
  | _, _ => .next s

/-! ## Quantise (R233) -/

/-- The sum of squares of R233, in blocks of 512. -/
def squareSum (rows : List (List W32)) : Fv :=
  rows.foldl
    (fun t row => t.add (row.foldl (fun (acc : Fv) y => acc.add (f32mul y y)) Fv.zero)) Fv.zero

/-- The root-mean-square factor applied to a scale (R233). -/
def rmsScale (sc : Fv) (rows : List (List W32)) (eps : W32) : Fv :=
  let n := 512 * rows.length
  sc.mul ((⟨0x3F800000#32, 0⟩ : Fv).div ((((squareSum rows).div (f32ofInt n)).add ⟨eps, 0⟩).sqrt))

/-- quantise (R233): the rows of codes, the scale without RMS, the scale to be delivered, and the flags. -/
def quantise (rows : List (List W32)) (rms : Bool) (eps : W32) : List (List Byte) × W32 × W32 × BitVec 4 :=
  if rows.any fun r => r.any fun y => !isFinite32 y then
    (rows.map fun r => r.map fun _ => 0, nan32, nan32, flagInv)
  else
    let m := rows.foldl (fun m r => r.foldl (fun m y => if f32lt m (f32abs y) then f32abs y else m) m) (0 : W32)
    let sc : Fv := if f32eq m 0 then ⟨0x3F800000#32, 0⟩ else f32div m (f32ofInt 127).v
    let q := rows.map fun r => r.map fun y => let d := f32div y sc.v; (fromF32 0x4 d.v, d.f)
    let fl := q.foldl (fun f r => r.foldl (fun f x => f ||| x.1.2 ||| x.2) f) sc.f
    let s2 := if rms then rmsScale sc rows eps else sc
    (q.map fun r => r.map fun x => BitVec.ofNat 8 x.1.1, sc.v, s2.v, fl ||| s2.f)

/-- The position writes of one vector (R234). -/
def posWrites (e v : Nat) (items : List PosItem) (codes : Nat → List Byte) (sc : W32) : List PosWrite :=
  items.map fun x => ⟨e, x.tile, (x.firstPos + v) % 64, codes x.kblock, sc, v, x.uses⟩

/-- QUANTISE_RENDEZVOUS (R233, R234): every element of the vector is known. -/
def execQuantiseRendezvous (e : OpIx) (v : Fin 32) (s : State) : Out :=
  match passOf s e with
  | some w =>
    let ns := nblocksOf w.items
    let ready := ns.all fun n => tabHas w.y (v.val * 65536 + n)
    if needsQuant w && ready && decide (v.val < w.vectors) && !w.quantised.contains v && (getOp s e).result.isNone then
      let rows := ns.map fun n => tabGet [] w.y (v.val * 65536 + n)
      let (codes, s1, s2, fl) := quantise rows w.drain.rms w.drain.eps
      let inst := (getOp s e).inst
      let s := opFlags s e fl
      let s := if w.drain.mem && w.drain.fmt == 4 then
          let s := (ns.zip codes).foldl (fun s (n, c) => wrBytes s inst (w.drain.dst.toNat + v * w.drain.dstStride + n * 512) c) s
          wrNat s inst (w.drain.scaleOut.toNat + 4 * v) 4 s1.toNat
        else s
      let code (n : Nat) : List Byte := match firstOf (fun (k, _) => k == n) (ns.zip codes) with
        | some (_, c) => c
        | none => []
      let s := if w.drain.pos then { s with op.posQueue := s.op.posQueue ++ posWrites e v w.drain.posItems code s2 } else s
      .next (putPass s e { w with
        quantised := v.val :: w.quantised
        y := w.y.filter fun (k, _) => k / 65536 != v.val })
    else .next s
  | none => .next s

/-! ## Positions (R80, R81, R234) -/

/-- One position write of an operation has been accepted. -/
def posAccepted (s : State) (e : Nat) : State :=
  match (getOp s e).work with
  | .pass w => putPass s e { w with posLeft := w.posLeft - 1 }
  | .xfer w =>
    let w := { w with posLeft := w.posLeft - 1 }
    let s := setOp s e { getOp s e with work := .xfer w }
    if w.posLeft = 0 ∧ w.total ≤ w.prog then setResult s e rOk 0xFFFF else s
  | _ => s

/-- The list without its first element for which `f` holds. -/
def dropFirst {α : Type} (f : α → Bool) : List α → List α
  | [] => []
  | x :: r => if f x then r else x :: dropFirst f r

/-- POSITION_WRITE (R81, R234): the oldest write that waits for the position is accepted once it is free. -/
def execPositionWrite (t : TileId) (p : Fin 64) (s : State) : Out :=
  let n := t.spire.val * 264 + t.tile.val
  let mine (w : PosWrite) : Bool := physTile s w.tile == n && w.pos == p.val
  let x := getTile s n
  match firstOf mine s.op.posQueue with
  | some w =>
    if tabHas x.positions p then .next s
    else
      let s := { s with op.posQueue := dropFirst mine s.op.posQueue }
      let s := setTile s n { x with positions := tabPut x.positions p { data := w.data, scale := w.scale, vec := w.vec, uses := w.uses } }
      .next (posAccepted s w.op)
  | none => .next s

/-! ## Seeds (R86, R89) -/

/-- The scale recorded for a vector of an operation in a block of a tile (R89). -/
def recordedScale (t : Tile) (e blk slotV group : Nat) : Option W32 :=
  match findFill (getBlock t blk) e with
  | some x => if x.group = group ∧ tabHas x.scales slotV = true then some (tabGet 0 x.scales slotV) else none
  | none => none

/-- SEED (R86, R89): the oldest seed on its way to the tile arrives. -/
def execSeed (t : TileId) (s : State) : Out :=
  let p := t.spire.val * 264 + t.tile.val
  let mine (m : SeedMsg) : Bool := physTile s m.tile == p
  match firstOf mine s.op.seeds with
  | none => .next s
  | some m =>
    let s := { s with op.seeds := dropFirst mine s.op.seeds }
    match passOf s m.op with
    | none => .next s
    | some w =>
      let x := getTile s p
      match recordedScale x m.op ((w.acc + m.vec / w.vb) % 2) (m.vec % w.vb) (m.vec / w.vb) with
      | some sc => if sc = m.scale then .next (setTile s p { x with seeds := x.seeds ++ [m] }) else .next (failPass s m.op rScale m.tile)
      | none => .next (setTile s p { x with seeds := x.seeds ++ [m] })

/-! ## Seals (R263) -/

/-- Whether a key write of an operation may still be made: a drain of it is to come, or for one that has failed is in
progress (R263, R231). -/
def keysLeft (s : State) (e : Nat) : Bool :=
  if (getOp s e).result.isSome then
    s.tile.tiles.any fun (_, t) => t.blocks.any fun (_, k) => k.fills.any fun x => x.op == some e && x.draining
  else match passOf s e with
    | some w => w.drainsLeft != 0
    | none => false

/-- SEAL (R263): every key write of the operation has been made. -/
def execSeal (e : OpIx) (s : State) : Out :=
  match firstOf (fun x : SealDue => x.op == e.val) s.op.seals with
  | none => .next s
  | some x =>
    if !keysLeft s e then
      let s := { s with op.seals := dropFirst (fun x : SealDue => x.op == e.val) s.op.seals }
      .next (sealPage s (getOp s e).inst x)
    else .next s

end Sys2Proof.Machine
end

