-- ==== Sys2Proof/Machine/TilePass.lean ====
section
/-! DEFINITION. Passes in a tile: admission (R64, R75, R81, R86 to R91, R98, R105), the exact unit (R113,
R114, R237), results (R67, R68, R82, R485), and the pass boundary. -/

namespace Sys2Proof.Machine

open Sys2Proof

/-! ## Intervals and check levels -/

/-- The factor in force for a Spire, in units of 2^−12 (R415). -/
def spireFactor (s : State) (n : Nat) : Nat :=
  min s.pwr.rP (min (tabGet 4096 s.pwr.rT n) (tabGet 4096 s.pwr.rT 4))

/-- I_T in Spire cycles (R415). -/
def intervalOf (s : State) (p : Nat) : Nat :=
  let r := max 1 (spireFactor s (p / 264))
  (320 * 4096 + r - 1) / r

/-- The check level in force (R378, R379). -/
def levelOf (s : State) (p : Nat) : Nat :=
  let l := regFld s (tileBlk p) 0x010 0 3
  if l = 7 then regFld s .flt 0x008 0 3 else l

/-- 1 / f of the check level (R378); 0 at L0. -/
def sampleRate (s : State) (p : Nat) : Nat :=
  match levelOf s p with
  | 0 => 0 | 1 => 1024 | 2 => 256 | 3 => 64 | _ => 16

/-- Whether the supplies of a tile are usable: its field, its Spire's tile digital and converters (R405). -/
def tilePowered (s : State) (p : Nat) : Bool :=
  let n := p / 264
  domUsable s (7 * n + p % 264 / 66) && domUsable s (7 * n + 4) && domUsable s (7 * n + 6)

/-- Whether a tile admits work (R375). -/
def tileOpen (s : State) (p : Nat) : Bool :=
  !(getTile s p).fenced && !s.flt.devFence && !s.flt.spireFenced.getLsbD (p / 264)

/-! ## Admission -/

/-- The outcome of trying to admit a pass. -/
inductive Admit where
  | idle
  | fail (r : Byte)
  | go
  deriving DecidableEq, Repr

/-- Whether an accumulator block takes passes of a group of an operation (R87, R235, R236): it is not held, no drain of
it is in progress, and an earlier group of the same operation has left it. Another operation may be filling it. (DEDUCED,
log entry 54) -/
def blockTakes (t : Tile) (q : PassReq) (w : PassWork) : Bool :=
  let k := getBlock t q.blk
  (heldWork k).isNone && (drainingFill k).isNone && !(findFill k q.op).any fun x => x.group != q.vec / w.vb

/-- The scale already recorded for the vector of a pass: by its block, or by a seed (R89). -/
def vectorScale (t : Tile) (q : PassReq) (w : PassWork) : Option W32 :=
  match recordedScale t q.op q.blk q.slotV (q.vec / w.vb) with
  | some x => some x
  | none => (firstOf (fun m : SeedMsg => m.op == q.op && m.vec == q.vec) t.seeds).map (·.scale)

/-- Whether a pass is of the same run as another and comes before it. -/
def beforeInRun (q r : PassReq) : Bool :=
  r.op == q.op && r.nblock == q.nblock && r.msel == q.msel && r.vec == q.vec && r.kblock < q.kblock

/-- Whether the result of a pass is going to need a hold set (R91): a pass before it in its run goes through the exact
unit, or has not been admitted. -/
def needsHold (t : Tile) (q : PassReq) : Bool :=
  t.exactQ.any (fun x => beforeInRun q x.flight.req) || t.exactBusy.any (fun x => beforeInRun q x.flight.req) ||
    t.todo.any (beforeInRun q)

/-- The hold sets that are taken, by results that are parked and by passes in flight, and in a tile under replacement by
those that other exact units share (R91, R390). -/
def holdTaken (t : Tile) : Nat :=
  t.parked.length + (t.flight.filter fun f => needsHold t f.req).length +
    (t.exactQ.filter fun x => t.replacing && needsHold t x.flight.req).length

/-- Whether the pass would need a hold set while the hold buffer is full (R91). Results that were in flight when an
earlier pass of their run failed its check are parked all the same. (DESIGN CHOICE, log entry 54) -/
def holdFull (t : Tile) (q : PassReq) : Bool := needsHold t q && 16 ≤ holdTaken t

/-- Whether a pass is admitted now (R81, R86 to R91, R101, R105). (DESIGN CHOICE, log entry 54) -/
def admitTest (s : State) (p : Nat) (q : PassReq) : Admit :=
  let t := getTile s p
  match passOf s q.op with
  | none => .idle
  | some w =>
    let pos : Position := tabGet {} t.positions q.pos
    if (getOp s q.op).result.isSome then .idle
    else if !tabHas t.positions q.pos || pos.uses == 0 then .idle
    else if !blockTakes t q w then .idle
    else if q.kblock = q.firstK ∧ q.firstK ≠ 0 ∧ (findSeed t q).isNone = true then .idle
    else if holdFull t q then .idle
    else if q.variant ≠ 0 ∧ (varOf t q.variant).res = 0 then .fail rVariantAbsent
    else if (vectorScale t q w).any fun x => x != pos.scale then .fail rScale
    else if regFld s (tileBlk p) 0x008 16 1 = 0 ∧ (overflowIx t q.array q.variant).isEmpty = false then .fail rLanternFull
    else .go

/-- The image of the slot a flight runs on, with the tile and whether the array is INT2. -/
def flightImage (s : State) (p : Nat) (f : Flight) : Image × Nat × Bool :=
  let n := (logTile s p).getD 0
  let i := getImage s (f.slot.getD 0)
  (i, n, int2Of i n f.req.array)

/-- The entries of an exact pass (R95, R131): class 1 from the Lantern when LIVE, else from OUTLIERS of the slot; and
class 2. Each is given as read and as its source holds it. -/
def exactPairs (s : State) (n : Nat) (t : Tile) (q : PassReq) (slot : Option Nat) : List (W64 × W64) :=
  let live := (liveSlots t q.array q.variant).map fun x => (x.entry, x.source)
  let ones := live.filter fun e => eClass e.2 == 1
  let ones := if ones.isEmpty then (match slot with
      | some k => (imageOutliers s (getImage s k) n q.array).map fun (_, e) => (e, e)
      | none => []) else ones
  ones ++ live.filter fun e => eClass e.2 == 2

/-- The same entries as their sources hold them. -/
def exactEntries (s : State) (n : Nat) (t : Tile) (q : PassReq) (slot : Option Nat) : List W64 :=
  (exactPairs s n t q slot).map Prod.snd

/-- The entries that a pass applies: where one as read fails its residue, those of the sources (R94). -/
def usedEntries (f : Flight) : List W64 := if f.entries.all residueOk then f.entries else f.sources

/-- A pass takes its place in its block, and its scale is recorded (R89). -/
def takeBlock (t : Tile) (q : PassReq) (w : PassWork) (sc : W32) : Tile :=
  let k := getBlock t q.blk
  let x := (findFill k q.op).getD { op := some q.op, group := q.vec / w.vb }
  setBlock t q.blk (putFill k q.op { x with scales := tabPut x.scales q.slotV sc })

/-- The flight of a pass that is admitted, with the failure of its overflow entries (R94, R95, R105). -/
def newFlight (s : State) (p : Nat) (q : PassReq) (phys : Option Nat) : Flight × Option Byte :=
  let t := getTile s p
  let n := (logTile s p).getD 0
  let slot := curSlotOf t q.array
  let i := getImage s (slot.getD 0)
  let (ov, bad) := readOverflow s t (int2Of i n q.array) q.array q.variant
  let pos : Position := tabGet {} t.positions q.pos
  let es := if phys.isSome then (liveSlots t q.array q.variant).map fun x => (x.entry, x.source) else exactPairs s n t q slot
  ({ req := q, phys := phys, slot := slot, data := pos.data, scale := pos.scale, entries := es.map Prod.fst, sources := es.map Prod.snd
     scales := scalesOf t q.array, overflow := ov, bad := bad.isSome }, bad)

/-- The entries that a pass counts for in A(b) (R95, R98, R105): those that apply to it, and its overflow entries from
their ranges. -/
def entryCount (t : Tile) (f : Flight) : Nat :=
  f.entries.length + 8 * (overflowIx t f.req.array f.req.variant).length

/-- A RESIDUE record (R376, R94, R484). -/
def emitResidue (s : State) (u : UnitId) (action : Byte) (inst : Option Inst) (stage outcome handle ix : Nat) : State :=
  emit s evResidue action inst u (toBytes stage 1 ++ toBytes outcome 1 ++ toBytes handle 6 ++ toBytes ix 4)

/-- Overflow entries whose first read for a pass met an error in transit: the second read of each is recorded where it
passes (R94). -/
def rereadOverflow (s : State) (p : Nat) (q : PassReq) : State :=
  let t := getTile s p
  let hit := (overflowIx t q.array q.variant).filter fun i => t.upset.contains i
  let int2 := int2Of (getImage s ((curSlotOf t q.array).getD 0)) ((logTile s p).getD 0) q.array
  let passed := hit.filter fun i => (overflowEntry s t int2 q.array q.variant i).2.isNone
  passed.foldl (fun s i => emitResidue s (unitTile p) actRetried (some q.inst) 9 3 (q.op + q.seq.toNat * 2 ^ 12) i)
    (setTile s p { t with upset := t.upset.filter fun i => !hit.contains i })

/-- The use of a position goes down by one; a pass sampled for recompute keeps one (R81, R380). -/
def usePosition (t : Tile) (pos : Nat) (keep : Bool) : Tile :=
  let x : Position := tabGet {} t.positions pos
  { t with positions := tabPut t.positions pos { x with uses := x.uses - 1, held := x.held + b2n keep } }

/-- A kept use is given back (R380). -/
def releasePosition (t : Tile) (pos : Nat) : Tile :=
  if tabHas t.positions pos then
    let x : Position := tabGet {} t.positions pos
    { t with positions := tabPut t.positions pos { x with held := x.held - 1 } }
  else t

/-- A pass that needs the exact unit (R68, R75, R114). -/
def queueExact (s : State) (p : Nat) (why : ExactFor) (f : Flight) : State :=
  let t := getTile s p
  setTile s p { t with exactQ := t.exactQ ++ [{ for_ := why, flight := f, prio := 0, age := s.now }] }

/-- A pass counts as substituted in its operation's status (R227). -/
def noteSubst (s : State) (e : Nat) : State := let s := opCounts s e 0 1; setOp s e { getOp s e with subst := true }

/-- The failure of a pass's overflow entries ends its operation (R94). -/
def overflowFail (s : State) (p e : Nat) (bad : Option Byte) : State :=
  match bad with
  | some r => failPass s e r ((logTile s p).getD 0xFFFF)
  | none => s

/-- Whether the physical array of a logical array takes passes now (R75, R133). -/
def servingArr (t : Tile) (l : Nat) : Option Nat :=
  let a := physArr t l
  if (getArr t a).st = .active ∧ t.substituted.contains l = false ∧ (rewriteOf t l).any (·.substitute) = false then some a else none

/-- The recomputes that a tile has queued or is bound to queue (R380). (DESIGN CHOICE, log entry 54) -/
def recomputeLoad (t : Tile) : Nat := t.recompQ.length + (t.flight.filter (·.sampled)).length

/-- Whether a pass is sampled, by the generator (R380); the image's plaintext must be there (R391). (DESIGN CHOICE, log entry 8) -/
def sampleNow (s : State) (p : Nat) (slot : Option Nat) : Bool :=
  let r := sampleRate s p
  r != 0 && !(getImage s (slot.getD 0)).lost && Config.sampled r s.free

/-- A pass is admitted at a boundary (R64, R75, R90, R95, R380): on its array, or by substitution. The repeats of an
averaged pass lower the use count of its position once, and read the data captured here. (DESIGN CHOICE, log entry 54) -/
def admitPass (s : State) (p : Nat) (q : PassReq) (w : PassWork) : State :=
  let t := getTile s p
  let phys := servingArr t q.array
  let (f, bad) := newFlight s p q phys
  let sampled := phys.isSome && sampleNow s p f.slot
  let s := rereadOverflow { bumpFree s with free := s.free + 1 } p q
  let t := stampVar (takeBlock (usePosition (getTile s p) q.pos sampled) q w f.scale) q.variant
  let t := { t with todo := dropFirst (fun x => x == q) t.todo, applied := t.applied + entryCount t f }
  let s := opCounts (setTile s p t) q.op 1 0
  let s := match phys with
    | some a => let s := notePass s p a; setTile s p { getTile s p with flight := (getTile s p).flight ++ [{ f with sampled := sampled }] }
    | none =>
      let why := if (rewriteOf t q.array).any (fun r => r.kind != .sparing) || t.replacing then ExactFor.rewrite else .substitution
      noteSubst (queueExact s p why f) q.op
  overflowFail s p q.op bad

/-! ## The exact unit (R113, R114, R237) -/

/-- The priority of a request (R114, R237). (DESIGN CHOICE, log entry 56) -/
def exactPrio (s : State) (x : ExactReq) : Nat :=
  match x.for_ with
  | .substitution => 7 | .rewrite => 6 | .recompute => 5 | .passx => min 4 (instArbPrio s x.flight.req.inst)

/-- The fixed index of a requester (R114, R342). -/
def exactIndex : ExactFor → Nat
  | .substitution => 0 | .rewrite => 1 | .recompute => 2 | .passx => 3

/-- The next PASS.X pass of a tile raises its request once it can run: one at a time (R237). -/
def raiseExact (s : State) (p : Nat) : State :=
  let t := getTile s p
  if t.exactQ.any (fun x => x.for_ == .passx) || t.exactBusy.any (fun x => x.for_ == .passx) || !tileOpen s p then s
  else match firstOf (fun q : PassReq => q.exact) t.todo with
    | none => s
    | some q =>
      match admitTest s p q, passOf s q.op with
      | .go, some w =>
        let (f, bad) := newFlight s p q none
        let s := rereadOverflow s p q
        let t := { stampVar (takeBlock (getTile s p) q w f.scale) q.variant with todo := dropFirst (fun x => x == q) t.todo }
        let s := queueExact (opCounts (setTile (bumpFree s) p t) q.op 1 0) p .passx f
        overflowFail s p q.op bad
      | .fail r, _ => failPass s q.op r ((logTile s p).getD 0xFFFF)
      | _, _ => s

/-- The other tiles of a field. -/
def fieldMates (p : Nat) : List Nat := (upFrom (p / 66 * 66) 66).filter fun q => q != p

/-- The passes of a tile under replacement, which the exact units of its field share (R390 step 3). -/
def sharedPasses (s : State) (p : Nat) : List ExactReq :=
  if tileOpen s p then
    (fieldMates p).flatMap fun q =>
      let t := getTile s q
      if t.replacing then (t.exactQ.filter fun x => x.for_ == .rewrite).map fun x => { x with home := some q } else []
  else []

/-- What asks for the exact unit of a tile: its own work, then the passes that it shares. -/
def exactOffers (s : State) (p : Nat) : List ExactReq :=
  let t := getTile s p
  t.exactQ ++ t.recompQ.take 1 ++ sharedPasses s p

/-- The requests to the exact unit. -/
def exactRequests (s : State) (p : Nat) : List ArbReq :=
  (exactOffers s p).map fun x => ⟨exactPrio s x, x.age, exactIndex x.for_⟩

/-- A request leaves the queue that holds it. -/
def leaveQueue (s : State) (p : Nat) (x : ExactReq) : State :=
  let h := x.home.getD p
  let t := getTile s h
  setTile s h (if x.for_ = .recompute then { t with recompQ := t.recompQ.drop 1 }
    else { t with exactQ := dropFirst (fun y => y == { x with home := none }) t.exactQ })

/-- A request is put back at the head of its queue. -/
def rejoinQueue (s : State) (p : Nat) (x : ExactReq) : State :=
  let h := x.home.getD p
  let t := getTile s h
  let x := { x with home := none, reserved := false }
  setTile s h (if x.for_ = .recompute then { t with recompQ := x :: t.recompQ } else { t with exactQ := x :: t.exactQ })

/-- The segments of 128 rows that an exact pass has begun in the present grant: each takes 1,024 cycles (R113, R348). -/
def segsBegun (now : Nat) (x : ExactReq) : Nat := (now - x.since + 32767) / 32768

/-- Whether the segments that an exact pass still had to do at its grant are done (R113, R346). -/
def exactOver (now : Nat) (x : ExactReq) : Bool := decide (x.since + (4 - x.segs) * 32768 ≤ now)

/-- The holder gives way to a request of strictly higher priority at its next preemption point, the end of a segment,
unless its grant was reserved (R346): it keeps its age and the segments it has done. The answer gives the time from which the unit
is free. (DESIGN CHOICE, log entry 56) -/
def preemptExact (s : State) (p : Nat) : State × Nat :=
  let t := getTile s p
  match t.exactBusy with
  | none => (s, s.now)
  | some x =>
    let k := segsBegun s.now x
    let t := if k = 0 ∧ x.segs = 0 then { t with exactNext := x.since } else t
    if regFld s (tileBlk p) 0x03C 9 1 = 1 ∧ x.reserved = false ∧ x.segs + k < 4 ∧
        (exactRequests s p).any (fun r => exactPrio s x < r.prio) = true then
      (rejoinQueue (setTile s p { t with exactBusy := none }) p { x with segs := x.segs + k }, max s.now (x.since + k * 32768))
    else (s, s.now)

/-- The least time from the start of one exact pass of a tile to the start of its next (R415). -/
def exactGap (s : State) (p : Nat) : Nat :=
  let r := max 1 (spireFactor s (p / 264))
  (4160 * 4096 + r - 1) / r * 32

/-- A pass takes the exact unit, from a time on: one that starts keeps the gap to the start of the next (R415). -/
def takeExact (s : State) (p from_ : Nat) (x : ExactReq) (reserved : Bool) : State :=
  let t := getTile s p
  let at_ := if x.segs = 0 then max from_ t.exactNext else from_
  setTile s p { t with
    exactBusy := some { x with reserved := reserved, since := at_ }
    exactNext := if x.segs = 0 then at_ + exactGap s p else t.exactNext }

/-- The exact unit is granted when it is free, from a time on (R114, R343). -/
def grantExact (s : State) (p from_ : Nat) : State :=
  let t := getTile s p
  if t.exactBusy.isSome then s
  else match arbPick s (arbExact p) (regFld s (tileBlk p) 0x03C 0 8) (exactRequests s p) with
    | none => s
    | some (r, reserved) =>
      match firstOf (fun x : ExactReq => x.age == r.age && exactIndex x.for_ == r.index) (exactOffers s p) with
      | none => s
      | some x =>
        let s := leaveQueue s p x
        arbCount (takeExact s p from_ x reserved) (arbExact p) reserved

/-- The exact units of a field whose tile is under replacement take what it shares (R390 step 3). -/
def kickMates (s : State) (p : Nat) : State :=
  if (getTile s p).replacing && !(getTile s p).exactQ.isEmpty then (fieldMates p).foldl (fun s q => grantExact s q s.now) s else s

/-- What may use the exact unit is looked at again. -/
def kickExact (s : State) (p : Nat) : State :=
  let (s, from_) := preemptExact (raiseExact s p) p
  kickMates (grantExact s p from_) p

/-- The result of an exact pass or substitution (R51, R113). -/
def exactResult (s : State) (p : Nat) (f : Flight) : List Fv :=
  let (i, n, int2) := flightImage s p f
  exactPass f.scales (imageWts s i n f.req.array) int2 f.req.unsigned f.data (usedEntries f ++ f.overflow)

/-- Slots whose entries fail their residue are rewritten from their source, with one record each (R94). -/
def rewriteBad (s : State) (p : Nat) (inst : Inst) (es : List W64) : State :=
  let bad := (getTile s p).ltn.filter fun (_, x) => es.contains x.entry && !residueOk x.entry
  bad.foldl
    (fun s (k, x) =>
      let s := portWrite s p (.keep (eArray x.source)) 1
      let t := getTile s p
      let s := setTile s p { t with ltn := tabPut t.ltn k { x with entry := x.source } }
      emitResidue s (unitTile p) actSubstituted (some inst) 8 2 0 k) s

/-- EXACT_PASS_DONE (R113, R81, R91): the result is delivered in its place, in the tile that the pass is of (R390); a slot
that cannot be read fails the operation (R391), and entries that fail their residue are taken from their sources (R94). -/
def execExactPassDone (t : TileId) (s : State) : Out :=
  let p := t.spire.val * 264 + t.tile.val
  match (getTile s p).exactBusy with
  | none => .next s
  | some x =>
    if x.for_ = .recompute ∨ exactOver s.now x = false then .next s
    else
      let f := x.flight
      let q := f.req
      let h := x.home.getD p
      let s := rewriteBad s h q.inst f.entries
      let tl := { getTile s p with exactBusy := none }
      let s := setTile s p (if x.for_ = .passx then usePosition tl q.pos false else tl)
      let (i, n, _) := flightImage s h f
      let s := if !imageReadable s i n q.array then failPass s q.op rMemErr n
        else if f.bad then s
        else
          let v := exactResult s h f
          deliver (opFlags s q.op (fvFlags v)) h q (fvVals v)
      .next (kickExact (collectSlots s) p)

/-! ## Results of analogue passes (R67, R68, R82, R485) -/

/-- A CHECK_FAIL record (R68, R484). -/
def emitCheck (s : State) (p a : Nat) (inst : Inst) (o : CheckOut) : State :=
  let d := (encodeInt (-32768) 32767 (num32 o.worst)).1
  emit s evCheckFail actSubstituted (some inst) (unitArray p a)
    (toBytes o.mask 8 ++ toBytes (b2n o.hi + 2 * b2n o.lo + 4 * b2n o.limit) 1 ++ [0] ++ toBytes (ofSigned 16 d) 2)

/-- The element-wise mean of `n` sums, by a factor of 0.5 or 0.25 (R82 stage 6, R90). -/
def meanRow (n : Nat) (l : List W32) : List Fv :=
  if n = 1 then l.map fun x => ⟨x, 0⟩
  else l.map fun x => f32mul x (if n = 2 then 0x3F000000#32 else 0x3E800000#32)

/-- The Lantern's terms are added to the column values (R82 stage 7). -/
def lanternRow (f : Flight) (int2 : Bool) (y : List Fv) : List Fv :=
  (y.zip (upFrom 0 y.length)).map fun (v, c) => addLantern f.scales int2 f.req.unsigned f.data (f.entries ++ f.overflow) c v

/-- What one repeat of a pass gives is gathered in its flight, with the trims that its conversions had and the scales of
the pass (R83, R90, R132, R381). -/
def gatherRepeat (s : State) (p : Nat) (f : Flight) (a : Nat) (codes : List (Nat × BitVec 12)) : Flight × CheckOut :=
  let x := arrOf s p a
  let (i, n, int2) := flightImage s p f
  let k : Conv := { arr := x, trims := f.trims.headD [], ws := arrWts x, codes := codes, uns := f.req.unsigned, d := f.data }
  let y := readoutY f.scales int2 k
  let sum := if f.got = 0 then y else addRows f.ysum (fvVals y)
  let f := { f with
    ysum := fvVals sum, got := f.got + 1, due := f.due.drop 1, trims := f.trims.drop 1, flags := f.flags ||| fvFlags y ||| fvFlags sum }
  let f := if f.sampled then
      let (c, m) := recompCounts k (imageWts s i n f.req.array) f.entries
      { f with counts := if f.counts.1 < c.1 ∨ f.got = 1 then c else f.counts, mism := f.mism || m }
    else f
  (f, checkPass k f.entries)

/-- The last repeat of a pass has been read out: its result is delivered, or it is substituted (R68, R90), and
a sampled pass goes to the recompute queue (R380). -/
def finishPass (s : State) (p : Nat) (f : Flight) : State :=
  let q := f.req
  let (_, _, int2) := flightImage s p f
  let s := if f.sampled then
      let t := getTile s p
      setTile s p { t with recompQ := t.recompQ ++ [{ for_ := .recompute, flight := f, prio := 5, age := s.now }] }
    else s
  if f.bad then s
  else if f.fail then
    let n := (logTile s p).getD 0
    let t := getTile s p
    let es := (f.sources.filter fun e => eClass e == 2) ++ (exactEntries s n t q f.slot).filter fun e => eClass e == 1
    noteSubst (queueExact s p .substitution { f with phys := none, entries := es, sources := es, sampled := false }) q.op
  else
    let y := meanRow q.reps f.ysum
    let v := lanternRow f int2 y
    deliver (opFlags s q.op (f.flags ||| fvFlags y ||| fvFlags v)) p q (fvVals v)

/-- Whether a flight is the one whose result is due next for a logical array. (DESIGN CHOICE, log entry 13) (DESIGN CHOICE, log entry 55) -/
def dueFor (now l : Nat) (f : Flight) : Bool :=
  f.phys.isSome && f.req.array == l && match f.due with
    | d :: _ => decide (d ≤ now)
    | [] => false

/-- PASS_RESULT (R67 to R69, R82, R90, R94, R485): the codes of the conversions of the oldest pass of a logical
array whose result is due. The one CHECK_FAIL record of an averaged pass names what its first failing repeat found. (DESIGN
CHOICE, log entry 55) -/
def execPassResult (t : TileId) (a : Fin 64) (codes : List (Nat × BitVec 12)) (s : State) : Out :=
  let p := t.spire.val * 264 + t.tile.val
  match firstOf (dueFor s.now a) (getTile s p).flight with
  | none => .next s
  | some f0 =>
    let phys := f0.phys.getD 0
    let (f, chk) := gatherRepeat s p f0 phys codes
    let badRes := f.entries.any fun e => !residueOk e
    let s := rewriteBad s p f.req.inst f.entries
    let s := if chk.mask ≠ 0 ∧ f.chk = false then
        let s := emitCheck s p phys f.req.inst chk
        (countFail s p phys 1).1
      else s
    let f := { f with fail := f.fail || chk.mask != 0 || badRes, chk := f.chk || chk.mask != 0 }
    let tl := getTile s p
    if f.got < f.req.reps then
      .next (setTile s p { tl with flight := tl.flight.map fun x => if x == f0 then f else x })
    else
      let s := setTile s p { tl with flight := dropFirst (fun x => x == f0) tl.flight }
      .next (kickExact (collectSlots (finishPass s p f)) p)

/-! ## The boundary (R64, R98, R133, R380) -/

/-- What the scan of a boundary has met: the state, the logical arrays in use, the passes of an operation that
an earlier one of the same array holds back. (DESIGN CHOICE, log entry 54) -/
structure Scan where
  st : State
  busy : List Nat
  stuck : List (Nat × Nat)

/-- One waiting pass is looked at: at most one pass of each array is admitted, and those of one operation on
one array stay in order. (DESIGN CHOICE, log entry 54) -/
def scanPass (p : Nat) (x : Scan) (q : PassReq) : Scan :=
  if q.exact || x.busy.contains q.array || x.stuck.contains (q.op, q.array) || 8 ≤ recomputeLoad (getTile x.st p) then x
  else match admitTest x.st p q, passOf x.st q.op with
    | .go, some w => { x with st := admitPass x.st p q w, busy := q.array :: x.busy }
    | .fail r, _ => { x with st := failPass x.st q.op r ((logTile x.st p).getD 0xFFFF) }
    | _, _ => { x with stuck := (q.op, q.array) :: x.stuck }

/-- Whether a flight still has repeats to start (R90). -/
def moreRepeats (f : Flight) : Bool := f.phys.isSome && f.got + f.due.length < f.req.reps

/-- The new class 1 entries of a rewrite are staged when they fit; failing that, with no other swing of the
tile to wait for, the old ones retire, and then variants are evicted (R133). -/
def stageStep (n p : Nat) (s : State) (r : Rewrite) : State :=
  match r.newSlot with
  | none => s
  | some k =>
    let es := imageOutliers s (getImage s k) n r.logical
    let t := getTile s p
    let staged (t : Tile) : State :=
      portWrite (setTile s p (setRewrite t { r with c1 := true })) p (.keep r.logical) es.length
    match stageClass1 t es with
    | some t => staged t
    | none =>
      if t.rewrites.any fun x => x.logical != r.logical && x.c1 then s
      else if !r.substitute then setTile s p (setRewrite (retireEntries t r.logical true) { r with substitute := true })
      else
        let t := evictFor 0 es.length 64 t
        match stageClass1 t es with
        | some t => staged t
        | none => newFailed n p (setTile s p t) r 8

/-- The rewrites of a tile whose new array has been verified and whose class 1 entries are not staged yet. -/
def unstaged (t : Tile) : List Rewrite :=
  t.rewrites.filter fun r => !r.c1 && (getArr t (if r.inPlace then r.old else r.spare.getD r.old)).st == .calibrating

/-- The passes of a boundary are given the times of their results and the trims of their conversions, and the next
boundary its time (R83, R98, R485). (DESIGN CHOICE, log entry 55) -/
def setTimes (s : State) (p tb : Nat) (again : List Flight) : State :=
  let t := getTile s p
  let fresh := t.flight.filter fun f => f.phys.isSome && f.due.isEmpty && f.got == 0
  let a := (t.applied + 15) / 16
  let due := tb + max 11200 (a * 32 + 320)
  setTile s p { t with
    nextB := tb + max (intervalOf s p) a * 32
    flight := t.flight.map fun f => if fresh.contains f || again.contains f then
      { f with due := f.due ++ [due], trims := f.trims ++ [(getArr t (f.phys.getD 0)).trims] } else f }

/-- Whether a boundary may come at a time: the interval is over, and after one at which the recompute queue was full
it has been extended by whole intervals of 320 cycles until an entry was free (R64, R380). -/
def boundaryDue (t : Tile) (tb : Nat) : Bool :=
  decide (t.nextB ≤ tb) && (!t.fullQ || (decide (recomputeLoad t < 8) && (tb - t.nextB) % 10240 == 0))

/-- PASS_BOUNDARY (R64): PASS-class values apply, retired slots and used positions become free, swings take
place, and passes are admitted. The later repeats of an averaged pass start whatever has become of their array. (DESIGN
CHOICE, log entry 55) -/
def execPassBoundary (t : TileId) (s : State) : Out :=
  let p := t.spire.val * 264 + t.tile.val
  let tb := s.now / 32 * 32
  if tilePowered s p && boundaryDue (getTile s p) tb then
    let s := servePort (applyBlock .pass (tileBlk p) s) p
    let tl := freeRetiring (getTile s p)
    let tl := { tl with
      arrs := tabMap (fun _ a => { a with trims := a.newTrims.getD a.trims, newTrims := none }) tl.arrs
      boundary := tl.boundary + 1
      applied := 0
      fullQ := decide (8 ≤ recomputeLoad tl)
      positions := tl.positions.filter fun (_, x) => x.uses != 0 || x.held != 0 }
    let s := setTile s p tl
    let s := (unstaged tl).foldl (stageStep ((logTile s p).getD 0) p) s
    let s := doSwings s p
    let again := (getTile s p).flight.filter moreRepeats
    let s := again.foldl (fun s f => notePass s p (f.phys.getD 0)) s
    let x : Scan := { st := s, busy := again.map fun f => f.req.array, stuck := [] }
    let s := if tileOpen s p then ((getTile s p).todo.foldl (scanPass p) x).st else s
    .next (kickExact (setTimes s p tb again) p)
  else .next s

end Sys2Proof.Machine
end

