-- ==== Sys2Proof/Machine/XferEngines.lean ====
section
/-! DEFINITION. The transfer engines and the reads that they issue (R254, R310, R338, R340, R341): to peers, and to
host memory. -/

namespace Sys2Proof.Machine

open Sys2Proof

/-! ## Engines (R338) -/

def getXfer (s : State) (x : Nat) : Xfer := tabGet {} s.op.xfers x
def setXfer (s : State) (x : Nat) (v : Xfer) : State := { s with op.xfers := tabPut s.op.xfers x v }

/-- The transfers that are assigned to an engine and have not ended. -/
def assignedTo (s : State) (x : Nat) : List (Nat × Op) :=
  s.op.table.filter fun (_, o) => o.result.isNone && match o.work with
    | .xfer w => w.asg == some x
    | _ => false

/-- The least loaded engine in service among some. -/
def leastXfer (s : State) (xs : List Nat) : Option Nat :=
  leastBy (fun a b => (assignedTo s a).length < (assignedTo s b).length) (xs.filter fun x => !(getXfer s x).fenced)

/-- The engines of a station (R338). -/
def stationXfers (k : Nat) : List Nat := upFrom (4 * k) 4

/-- The tag of a read request that an engine issues (R338). -/
def readTag (s : State) (x burst : Nat) : ReadTag := ⟨x, (getXfer s x).gen, burst⟩

/-- Whether a tag carries its engine's generation (R340). -/
def tagLive (s : State) (t : ReadTag) : Bool := (getXfer s t.engine).gen == t.gen

/-! ## Reads from peers (R310) -/

/-- ADDR of an access to a page frame of a peer (R255, R310): bit 62, and bit 61 for a host frame. (DESIGN CHOICE, log entry 62) -/
def pageAddr (host : Bool) (frame : Nat) : Nat := 2 ^ 62 + b2n host * 2 ^ 61 + frame * 0x8000

/-- The key under which data read from a peer is kept. -/
def gotKey (d a : Nat) : Nat := d * 2 ^ 64 + a

/-- READs of at most 1,024 bytes each (R310), for an operation. (DESIGN CHOICE, log entry 61) (DESIGN CHOICE, log entry 67) -/
def sendReads (e : Nat) (inst : Inst) (d : Nat) : Nat → Nat → Nat → State → State
  | 0, _, _, s => s
  | fuel + 1, a, n, s =>
    if n = 0 then s
    else sendReads e inst d fuel (a + 1024) (n - 1024) (sendReliable s (some e) inst cReq 0x02 d a (toBytes (min 1024 n) 4))

/-- The READs of an operation that carry no tag yet carry this one (R338). -/
def tagReads (s : State) (e : Nat) (t : ReadTag) : State :=
  { s with fab.unacked := s.fab.unacked.map fun c =>
      if c.op == some e && c.frame.typ == 0x02 && c.tag.isNone then { c with tag := some t } else c }

/-- The bytes of a piece that a peer holds, once every READ of it has been answered. -/
def gotBytes (got : Tab (List Byte)) (d : Nat) : Nat → Nat → Nat → Option (List Byte)
  | 0, _, n => if n = 0 then some [] else none
  | fuel + 1, a, n =>
    if n = 0 then some []
    else if !tabHas got (gotKey d a) then none
    else (gotBytes got d fuel (a + 1024) (n - 1024)).map fun r => padTo (min 1024 n) (tabGet [] got (gotKey d a)) ++ r

/-- Whether a READ of an operation for an address of a peer has not been answered. -/
def readOut (s : State) (e d a : Nat) : Bool :=
  (unackedOf s e).any fun c => c.frame.typ == 0x02 && c.dst.toNat == d && c.frame.addr.toNat == a

/-- The reads in flight of an operation are abandoned: what answers them is discarded (R340). -/
def dropReads (s : State) (e : Nat) : State :=
  { s with
    fab.unacked := s.fab.unacked.map fun c => if c.op == some e && c.frame.typ == 0x02 then { c with op := none } else c
    host.reqs := s.host.reqs.map fun (k, r) => (k, if r.reader.any (·.op == e) then { r with reader := none } else r) }

/-! ## Reads of host memory (R338, R341, R350) -/

/-- The request in progress of an operation for host memory: its PCIe tag. (DESIGN CHOICE, log entry 67) -/
def hostReadOf (s : State) (e row : Nat) : Option Nat :=
  (firstOf (fun (_, r) => r.reader.any fun x => x.op == e && x.row == row && tagLive s x.tag) s.host.reqs).map Prod.fst

/-- A read request of an operation for host memory; without a free tag it is not sent yet (R350). -/
def askHost (s : State) (e row : Nat) (inst : Inst) (t : ReadTag) : State :=
  match freeTag s with
  | none => s
  | some tag =>
    { s with host.reqs := tabPut s.host.reqs tag { inst := inst, gen := (getInst s inst).gen, tid := none, reader := some ⟨e, row, t⟩ } }

/-- A tag is free again (R341). -/
def freeReq (s : State) (tag : Nat) : State := { s with host.reqs := tabDel s.host.reqs tag }

end Sys2Proof.Machine
end

