-- ==== Sys2Proof/Machine/Attn.lean ====
section
/-! DEFINITION. Attention (R242, R253 to R260, R264 to R272, R296): the checks at its start, the choice of
blocks and of engines, the staging of pages, and the combination of blocks. -/

namespace Sys2Proof.Machine

open Sys2Proof

/-! ## Start (R242, R260) -/

/-- The parameters of R242 that only the start needs. -/
structure AttnParm where
  seqs : Nat
  rows : Nat
  window : Nat
  sinks : Nat
  topp : Nat
  qlen : Nat
  digest : Bool
  deriving DecidableEq, Repr

def attnParm (l : List Byte) : AttnParm :=
  { seqs := at_ l 0x38 8, rows := at_ l 0x40 2, window := at_ l 0x4D 1, sinks := at_ l 0x4E 1 % 16, topp := at_ l 0x50 4
    qlen := at_ l 0x54 4, digest := bit (at_ l 0x4C 1) 1 }

def attnWork (l : List Byte) : AttnWork :=
  let m := at_ l 0x4C 1
  { q := BitVec.ofNat 64 (at_ l 0x28 8), out := BitVec.ofNat 64 (at_ l 0x30 8), layer := at_ l 0x42 1, qheads := at_ l 0x43 1
    kvheads := at_ l 0x44 1, hdim := at_ l 0x45 1 * 16, fmt := at_ l 0x46 1 % 16, engines := BitVec.ofNat 8 (at_ l 0x47 1)
    qscale := BitVec.ofNat 32 (at_ l 0x48 4), causal := bit m 0
    tree := if bit m 2 then some (BitVec.ofNat 64 (at_ l 0x58 8)) else none }

/-- Whether the fields of the descriptor keep R242. -/
def attnFieldsOk (l : List Byte) : Bool :=
  let w := attnWork l
  let p := attnParm l
  1 ≤ p.rows && p.rows ≤ 1024 && 1 ≤ w.kvheads && w.kvheads ≤ 64 && 1 ≤ w.qheads && w.qheads ≤ 128 && w.qheads % w.kvheads == 0 &&
    (w.hdim == 64 || w.hdim == 128 || w.hdim == 256) && w.kvheads * w.hdim ≤ 16384 && (at_ l 0x46 1 == 0xA || at_ l 0x46 1 == 0xE) &&
    at_ l 0x4C 1 < 8 && at_ l 0x4E 1 < 16 && at_ l 0x4F 1 == 0 && 1 ≤ p.topp && p.topp ≤ 65535 &&
    1 ≤ p.qlen && p.qlen ≤ 65536 && (w.tree.isSome || at_ l 0x58 8 == 0) && at_ l 0x58 8 % 64 == 0 && at_ l 0x60 32 == 0

/-- The bytes of an element of Q and OUT. -/
def qBytes (w : AttnWork) : Nat := if w.fmt = 0xE then 2 else 1

/-- Where element 0 of query token `i` and head `h` lies in Q or OUT (R259). -/
def qAddr (w : AttnWork) (base i h : Nat) : Nat := base + (i * w.qheads + h) * w.hdim * qBytes w

/-- Tokens per page (R256). -/
def attnT (w : AttnWork) : Nat := 16384 / max 1 (w.kvheads * w.hdim)

/-- The rows of the length table (R259): sequence record, QTOK and QOFF. -/
def lengthRow (s : State) (p : AttnParm) (r : Nat) : Nat × Nat × Nat :=
  (rdNat s (p.seqs + 16 * r) 8, rdNat s (p.seqs + 16 * r + 8) 4, rdNat s (p.seqs + 16 * r + 12) 4)

/-- Whether a tree-mask record of `n` nodes is valid (R296). -/
def treeOk (masks : List Nat) (n : Nat) : Bool :=
  nth 0 masks 0 == 1 && (upFrom 0 32).all fun j =>
    let m := nth 0 masks j
    if n ≤ j then m == 0
    else if j = 0 then true
    else
      let low := m % 2 ^ j
      match firstOf (fun k => bit low k) ((upFrom 0 j).reverse) with
      | none => false
      | some p => m == nth 0 masks p + 2 ^ j && ((upFrom 0 32).filter fun i => bit m i).length ≤ 9

/-- The masks of a tree-mask record. -/
def treeMasks (s : State) (a : Nat) : List Nat := (upFrom 0 32).map fun j => rdNat s (a + 4 * j) 4

/-- The checks of one page-list entry of a row. -/
def entryFault (s : State) (inst : Inst) (r : SeqRec) (i : Nat) : Option Byte :=
  if r.plistLen ≤ i then some rMalformed
  else if !inInst s inst (entAddr r i) 8 then some rUnitAccess
  else if rangeBad s (entAddr r i) 8 then some rMemErr
  else
    let e := rdEnt s (entAddr r i)
    if !e.valid || e.reserved then some rMalformed else placeFault s inst e

/-- The bytes of the digest of block `b` of a row: its address and length (R265). -/
def digestSpan (w : AttnWork) (r : SeqRec) (b : Nat) : Nat × Nat :=
  (r.digest + (b * r.layers + w.layer) * (r.kvheads * 64), r.kvheads * 64)

/-- The blocks of a row that are candidates for selection, out of its `n` blocks (R267). -/
def candidates (s : State) (w : AttnWork) (p : AttnParm) (r : SeqRec) (qt n : Nat) : List Nat :=
  let t := attnT w
  (upFrom 0 n).filter fun b =>
    !(b + 1 == n || b < min p.sinks n || (n ≤ b + 1 + p.window) || (r.len - qt) / t ≤ b ||
      !(rdEnt s (entAddr r (b * r.layers + w.layer))).dvalid)

/-- The query bytes of token `i` of Q, over its heads. -/
def qSpan (w : AttnWork) (i : Nat) : Nat × Nat := (qAddr w w.q.toNat i 0, w.qheads * w.hdim * qBytes w)

/-- Whether the digests or the query that selection reads hold an uncorrectable error (R335). -/
def selectBad (s : State) (w : AttnWork) (p : AttnParm) (r : SeqRec) (qt qo n : Nat) : Bool :=
  let c := candidates s w p r qt n
  p.digest && r.digest != 0 && p.topp < c.length &&
    (rangeBad s (qSpan w (qo + qt - 1)).1 (qSpan w (qo + qt - 1)).2 ||
      c.any fun b => rangeBad s (digestSpan w r b).1 (digestSpan w r b).2)

/-- The failures that a row gives the operation at its start (R260, R296). A row without query tokens has no
record. (DESIGN CHOICE, log entry 51) -/
def rowFaults (s : State) (inst : Inst) (w : AttnWork) (p : AttnParm) (i : Nat) : List (Option Byte) :=
  let (a, qt, qo) := lengthRow s p i
  if qt = 0 then []
  else if a % 64 ≠ 0 then [some rMalformed]
  else if !inInst s inst a 64 then [some rUnitAccess]
  else if rangeBad s a 64 then [some rMemErr]
  else
    let r := seqRec s a
    if !seqRecOk r || r.kvheads != w.kvheads || r.hdim * 16 != w.hdim || r.layers ≤ w.layer || r.len < qt || p.qlen < qt ||
        p.rows * p.qlen < qo + qt then [some rMalformed]
    else
      let t := match w.tree with
        | none => none
        | some ta =>
          let m := ta.toNat + i * 128
          if !inInst s inst m 128 then some rUnitAccess
          else if rangeBad s m 128 then some rMemErr
          else if 32 < qt ∨ treeOk (treeMasks s m) qt = false then some rMalformed else none
      let n := (r.len + attnT w - 1) / attnT w
      let d := if p.digest && r.digest != 0 && !(upFrom 0 n).all (fun b => inInst s inst (digestSpan w r b).1 (digestSpan w r b).2)
        then some rUnitAccess else if selectBad s w p r qt qo n then some rMemErr else none
      t :: d :: (upFrom 0 n).map fun b => entryFault s inst r (b * r.layers + w.layer)

/-- Whether the query ranges of two rows overlap. -/
def rangesOverlap (s : State) (p : AttnParm) : Bool :=
  let rs := ((upFrom 0 p.rows).map (lengthRow s p)).filter fun (_, qt, _) => qt != 0
  let pairs := (upFrom 0 rs.length).zip rs
  pairs.any fun (i, _, q, o) => pairs.any fun (j, _, q', o') => i < j && o < o' + q' && o' < o + q

/-- The failure of an ATTN at its start, if any (R260). (DESIGN CHOICE, log entry 51) -/
def attnFault (s : State) (inst : Inst) (l : List Byte) : Option Byte :=
  let w := attnWork l
  let p := attnParm l
  let bytes := p.rows * p.qlen * w.qheads * w.hdim * qBytes w
  if !attnFieldsOk l then some rMalformed
  else if !inInst s inst p.seqs (16 * p.rows) then some rUnitAccess
  else if rangeBad s p.seqs (16 * p.rows) then some rMemErr
  else
    let reach := if inInst s inst w.q.toNat bytes && inInst s inst w.out.toNat bytes then none else some rUnitAccess
    worstOf [rMalformed, rUnitAccess, rPeerRefused, rMemErr]
      ((if rangesOverlap s p then some rMalformed else none) :: reach :: (upFrom 0 p.rows).flatMap (rowFaults s inst w p))

/-! ## The choice of blocks (R265 to R267) -/

/-- An element of Q as FP32. -/
def qElem (s : State) (w : AttnWork) (i h d : Nat) : Fv := toF32 w.fmt (rdNat s (qAddr w w.q.toNat i h + d * qBytes w) (qBytes w))

/-- The score of a candidate block (R266), for query token `i` of Q. -/
def blockScore (s : State) (w : AttnWork) (dig i : Nat) : Fv :=
  let g := w.hdim / 64
  (upFrom 0 w.qheads).foldl
    (fun (score : Fv) h =>
      let k := h / (w.qheads / max 1 w.kvheads)
      score.add ((upFrom 0 64).foldl
        (fun (acc : Fv) j =>
          let f := (upFrom 0 g).foldl (fun (f : Fv) x => f.add (qElem s w i h (j * g + x))) Fv.zero
          acc.add (f.mul (toF32 0xA (rdNat s (dig + k * 64 + j) 1)))) Fv.zero)) Fv.zero

/-- Whether candidate `a` ranks above `b` (R267 step 5). -/
def ranksAbove (a b : Nat × W32) : Bool :=
  let na := isNan32 a.2
  let nb := isNan32 b.2
  if na ≠ nb then nb
  else if !na && f32lt b.2 a.2 then true
  else if !na && f32lt a.2 b.2 then false
  else a.1 < b.1

/-- A candidate put in its place in a ranking. -/
def rankIn (x : Nat × W32) : List (Nat × W32) → List (Nat × W32)
  | [] => [x]
  | y :: r => if ranksAbove x y then x :: y :: r else y :: rankIn x r

/-- The blocks that a row attends, in ascending order, and the flags that selection raises (R267). -/
def attendedBlocks (s : State) (w : AttnWork) (p : AttnParm) (r : SeqRec) (qt qo : Nat) : List Nat × BitVec 4 :=
  let t := attnT w
  let n := (r.len + t - 1) / t
  let cand := candidates s w p r qt n
  if !p.digest || r.digest == 0 || cand.length ≤ p.topp then (upFrom 0 n, 0)
  else
    let scored := cand.map fun b => (b, blockScore s w (digestSpan w r b).1 (qo + qt - 1))
    let top := ((scored.map fun (b, v) => (b, v.v)).foldr rankIn []).take p.topp
    ((upFrom 0 n).filter fun b => !cand.contains b || top.any fun (x, _) => x == b, scored.foldl (fun f (_, v) => f ||| v.f) 0)

/-- What a row keeps while it runs (R264). -/
def attnRow (s : State) (w : AttnWork) (p : AttnParm) (i : Nat) : AttnRow × BitVec 4 :=
  let (a, qt, qo) := lengthRow s p i
  if qt = 0 then ({}, 0)
  else
    let r := seqRec s a
    let (bs, f) := attendedBlocks s w p r qt qo
    ({ plist := BitVec.ofNat 64 r.plist, layers := r.layers, len := r.len, qtok := qt, qoff := qo, left := bs, done := false }, f)

/-- The rows of an ATTN that have failed, with their reasons. -/
def lostRows (w : AttnWork) : List (Nat × Byte) :=
  ((upFrom 0 w.rows.length).zip w.rows).filterMap fun (i, r) => r.lost.map fun x => (i, x)

/-- The work of an ATTN changed: its counts follow (R227), and its result is set once every row is done (R272). -/
def putAttn (s : State) (e : Nat) (w : AttnWork) : State :=
  let s := setOp s e { getOp s e with work := .attn w, countA := w.attended, countB := (lostRows w).length }
  if w.rows.all (·.done) then
    match lostRows w with
    | [] => setResult s e rOk 0xFFFF
    | (i, x) :: _ => setResult s e x i
  else s

/-- An ATTN starts (R226, R260, R264). -/
def startAttn (s : State) (e : Nat) : State :=
  let o := getOp s e
  let l := opBody s e
  match attnFault s o.inst l with
  | some r => failStart s e r 0xFFFF
  | none =>
    if s.op.attnFenced = 0xFF then failStart s e rFenced 0xFFFF
    else
      let w := attnWork l
      let p := attnParm l
      let rows := (upFrom 0 p.rows).map (attnRow s w p)
      let s := opFlags s e (rows.foldl (fun f (_, g) => f ||| g) 0)
      putAttn s e { w with rows := rows.map Prod.fst }

/-! ## Blocks (R268, R269, R272) -/

/-- Whether query token `j` admits position `t` (R268, R296). -/
def admits (s : State) (w : AttnWork) (i : Nat) (r : AttnRow) (j t : Nat) : Bool :=
  let first := r.len - r.qtok
  t < r.len && match w.tree with
    | none => !w.causal || t ≤ first + j
    | some a => if t < first then true else bit (rdNat s (a.toNat + i * 128 + 4 * j) 4) (t - first)

/-- The keys and the values of a page that an engine has read. -/
structure PageData where
  keys : List Byte
  vals : List Byte
  deriving DecidableEq, Repr

/-- Element `d` of slot `t` and head `k` of the keys or the values of a page as FP32 (R256). -/
def kvElem (w : AttnWork) (l : List Byte) (t k d : Nat) : Fv := toF32 0xA (nth 0 l ((t * w.kvheads + k) * w.hdim + d)).toNat

/-- The running softmax of a query token and head. -/
structure Soft where
  m : Fv
  l : Fv
  o : List Fv

/-- One block for one query token and head (R269): the tokens `ts` are slots of the page. (DESIGN CHOICE, log entry 51) -/
def blockSoft (s : State) (w : AttnWork) (pg : PageData) (qi h : Nat) (ts : List Nat) (a : Soft) : Soft :=
  if ts.isEmpty then a
  else
    let k := h / (w.qheads / max 1 w.kvheads)
    let ds := upFrom 0 w.hdim
    let score (t : Nat) : Fv :=
      (⟨w.qscale, 0⟩ : Fv).mul (ds.foldl (fun (acc : Fv) d => acc.add ((qElem s w qi h d).mul (kvElem w pg.keys t k d))) Fv.zero)
    let ss := ts.map fun t => (t, score t)
    let mb : Fv := ss.foldl (fun (m : Fv) (_, x) => ⟨f32max m.v x.v, m.f ||| x.f⟩) ⟨0xFF800000#32, 0⟩
    let es := ss.map fun (t, x) => (t, (x.sub mb).exp)
    let lb := es.foldl (fun (l : Fv) (_, e) => l.add e) Fv.zero
    let ob := ds.map fun d => es.foldl (fun (acc : Fv) (t, e) => acc.add (e.mul (kvElem w pg.vals t k d))) Fv.zero
    let mn : Fv := ⟨f32max a.m.v mb.v, a.m.f ||| mb.f⟩
    let x := (a.m.sub mn).exp
    let y := (mb.sub mn).exp
    { m := mn, l := (a.l.mul x).add (lb.mul y), o := (a.o.zip ob).map fun (p, q) => (p.mul x).add (q.mul y) }

/-- The sums that a row keeps for a query token and head. -/
def accOf (w : AttnWork) (r : AttnRow) (j h : Nat) : AttnAcc :=
  match firstOf (fun x => x.tok == j && x.head == h) r.accs with
  | some x => x
  | none => ⟨j, h, 0xFF800000#32, 0, List.replicate w.hdim 0⟩

/-- The query tokens and heads of a row. -/
def rowHeads (w : AttnWork) (r : AttnRow) : List (Nat × Nat) :=
  (upFrom 0 r.qtok).flatMap fun j => (upFrom 0 w.qheads).map fun h => (j, h)

/-- The flags of a running softmax. -/
def Soft.flags (a : Soft) : BitVec 4 := a.o.foldl (fun f x => f ||| x.f) (a.m.f ||| a.l.f)

/-- A block combined into the sums of a row, with the flags raised (R269). -/
def attendBlock (s : State) (w : AttnWork) (i : Nat) (r : AttnRow) (pg : PageData) (b : Nat) : AttnRow × BitVec 4 :=
  let t := attnT w
  let res := (rowHeads w r).map fun (j, h) =>
    let x := accOf w r j h
    let ts := (upFrom 0 t).filter fun k => admits s w i r j (b * t + k)
    let a := blockSoft s w pg (r.qoff + j) h ts { m := ⟨x.m, 0⟩, l := ⟨x.l, 0⟩, o := x.o.map fun v => ⟨v, 0⟩ }
    (({ tok := j, head := h, m := a.m.v, l := a.l.v, o := a.o.map (·.v) } : AttnAcc), a.flags)
  ({ r with accs := res.map Prod.fst }, res.foldl (fun f (_, g) => f ||| g) 0)

/-- The outputs of a row, with the flags raised (R269). -/
def writeRow (s : State) (e : Nat) (w : AttnWork) (r : AttnRow) : State :=
  (rowHeads w r).foldl
    (fun s (j, h) =>
      let x := accOf w r j h
      let out := x.o.map fun v => let q := f32div v x.l; let c := fromF32 w.fmt q.v; (c.1, q.f ||| c.2)
      let s := opFlags s e (out.foldl (fun f (_, g) => f ||| g) 0)
      wrBytes s (getOp s e).inst (qAddr w w.out.toNat (r.qoff + j) h) (elemBytes (qBytes w) (out.map Prod.fst))) s

/-- The canonical NaN in every element of a lost row (R272). -/
def writeLost (s : State) (e : Nat) (w : AttnWork) (r : AttnRow) : State :=
  (rowHeads w r).foldl
    (fun s (j, h) => wrBytes s (getOp s e).inst (qAddr w w.out.toNat (r.qoff + j) h)
      (elemBytes (qBytes w) (List.replicate w.hdim (fromF32 w.fmt nan32).1))) s

/-! ## Engines and staging (R254, R338) -/

/-- The engines that an ATTN may use (R254): those of its mask in service, or else every one in service. -/
def attnMask (s : State) (w : AttnWork) : List Nat :=
  let up := (upFrom 0 8).filter fun n => !s.op.attnFenced.getLsbD n
  let m := up.filter fun n => w.engines.getLsbD n
  if m.isEmpty then up else m

/-- The engine that attends block `b`, whose page lies at `pl`, if any is in service (R254). -/
def blockEngine (s : State) (w : AttnWork) (pl : PagePlace) (b : Nat) : Option Nat :=
  let m := attnMask s w
  let other := (firstOf (fun n => m.contains (n % 8)) (upFrom (b % 8) 8)).map (· % 8)
  match pl with
  | .local_ a => if m.contains (stackOf a) then some (stackOf a) else other
  | _ => other

/-- Whether an engine has a page fetched into its staging buffer: one that is not of its own stack (R254). -/
def mustFetch (pl : PagePlace) (n : Nat) : Bool :=
  match pl with
  | .local_ a => stackOf a != n
  | _ => true

/-- The place of a row's next page. -/
def pageOf (s : State) (e : Nat) (w : AttnWork) (r : AttnRow) (b : Nat) : PagePlace :=
  placeOfEnt s (getOp s e).inst (rdEnt s (r.plist.toNat + 8 * (b * r.layers + w.layer)))

/-- What reading a page comes to: nothing yet, a loss (R272), or its data. -/
inductive PageRead where
  | wait (s : State)
  | lost (r : Byte) (s : State)
  | data (pg : PageData) (s : State)

/-- The READs for `n` bytes of a peer at an address that have neither been answered nor are under way. -/
def askPeer (s : State) (e : Nat) (inst : Inst) (got : Tab (List Byte)) (d a n : Nat) : State :=
  (upFrom 0 ((n + 1023) / 1024)).foldl
    (fun s i =>
      if tabHas got (gotKey d (a + 1024 * i)) || readOut s e d (a + 1024 * i) then s
      else sendReads e inst d 1 (a + 1024 * i) (min 1024 (n - 1024 * i)) s) s

/-- The next page of a row, of which `n` bytes of each half are attended: from memory, or fetched by transfer engine
`x` from the host or from a peer (R254, R272). (DESIGN CHOICE, log entry 51) -/
def readPage (s : State) (e row : Nat) (w : AttnWork) (pl : PagePlace) (x b n : Nat) (d : BurstIn) : PageRead :=
  let inst := (getOp s e).inst
  match pl with
  | .local_ a =>
    if rangeBad s a n || rangeBad s (a + 0x4000) n then .lost rKvLost s
    else .data ⟨rdBytes s a n, rdBytes s (a + 0x4000) n⟩ s
  | .host _ =>
    match hostReadOf s e row with
    | none => .wait (askHost s e row inst (readTag s x b))
    | some tag =>
      match d with
      | .hostError => .lost rHostErr (freeReq s tag)
      | .data l => if l.length < 2 * n then .wait s else .data ⟨l.take n, (l.drop n).take n⟩ (freeReq s tag)
  | .peer dev f =>
    let a := pageAddr false f
    match gotBytes w.got dev (n / 1024 + 1) a n, gotBytes w.got dev (n / 1024 + 1) (a + 0x4000) n with
    | some k, some v => .data ⟨k, v⟩ s
    | _, _ => .wait (tagReads (askPeer (askPeer s e inst w.got dev a n) e inst w.got dev (a + 0x4000) n) e (readTag s x b))

/-- A row that has lost a page (R272). -/
def rowLost (s : State) (e row : Nat) (why : Byte) : State :=
  match (getOp s e).work with
  | .attn w =>
    match w.rows[row]? with
    | none => s
    | some r =>
      if r.done ∨ (getOp s e).result.isSome then s
      else putAttn (bumpFree (writeLost s e w r)) e
        { w with rows := setNth w.rows row { r with left := [], accs := [], lost := some why, done := true } }
  | _ => s

/-- A page attended: its block joins the sums of its row, whose outputs follow the last block (R268, R269). -/
def attendPage (s : State) (e row : Nat) (w : AttnWork) (r : AttnRow) (b : Nat) (rest : List Nat) (pg : PageData) : State :=
  let (r', f) := attendBlock s w row r pg b
  let s := bumpFree (opFlags s e f)
  let w' := { w with attended := w.attended + min (attnT w) (r.len - b * attnT w) }
  let w' := match pageOf s e w r b with
    | .peer d n => { w' with got := w'.got.filter fun (k, _) => !(gotKey d (pageAddr false n) ≤ k && k < gotKey d (pageAddr false n) + 0x8000) }
    | _ => w'
  if rest.isEmpty then putAttn (writeRow s e w r') e { w' with rows := setNth w.rows row { r' with left := [], accs := [], done := true } }
  else putAttn s e { w' with rows := setNth w.rows row { r' with left := rest } }

/-- Whether the list entry, the queries or the tree mask that a block reads hold an uncorrectable error (R335). -/
def blockBad (s : State) (w : AttnWork) (row : Nat) (r : AttnRow) (b : Nat) : Bool :=
  rangeBad s (r.plist.toNat + 8 * (b * r.layers + w.layer)) 8 ||
    (upFrom r.qoff r.qtok).any (fun i => rangeBad s (qSpan w i).1 (qSpan w i).2) ||
    (match w.tree with
      | some a => rangeBad s (a.toNat + row * 128) 128
      | none => false)

/-- The next block of a row (R254, R268 to R272); with no transfer engine in service at the station of its engine, a page
cannot be fetched. (DEDUCED, log entry 51) -/
def attendNext (s : State) (e row : Nat) (w : AttnWork) (r : AttnRow) (b : Nat) (rest : List Nat) (d : BurstIn) : State :=
  if blockBad s w row r b then setResult s e rMemErr 0xFFFF
  else
    let pl := pageOf s e w r b
    match blockEngine s w pl b with
    | none => setResult s e rFenced 0xFFFF
    | some n =>
      let x := leastXfer s (stationXfers n)
      if mustFetch pl n && x.isNone then setResult s e rMemErr 0xFFFF
      else match readPage s e row w pl (x.getD 0) b (min (attnT w) (r.len - b * attnT w) * w.kvheads * w.hdim) d with
        | .wait s => s
        | .lost why s => rowLost s e row why
        | .data pg s => attendPage s e row w r b rest pg

/-- ATTN_BLOCK (R254, R268 to R272): the next block of a row is attended; after the last, its outputs are
written. -/
def execAttnBlock (e : OpIx) (row : RowBlock) (s : State) : Out :=
  match (getOp s e).work with
  | .attn w =>
    match w.rows.drop row.row.val with
    | [] => .next s
    | r :: _ =>
      if r.done ∨ (getOp s e).result.isSome then .next s
      else match r.left with
        | [] => .next s
        | b :: rest => .next (attendNext s e row.row w r b rest row.data)
  | _ => .next s

/-- READ_DATA for an ATTN (R254). -/
def attnData (s : State) (e d a : Nat) (l : List Byte) : State :=
  match (getOp s e).work with
  | .attn w => setOp s e { getOp s e with work := .attn { w with got := tabPut w.got (gotKey d a) l } }
  | _ => s

/-- The rows of an ATTN that still need a page of a peer that is lost (R272, R313). -/
def rowsOn (s : State) (e d : Nat) (w : AttnWork) : List Nat :=
  (upFrom 0 w.rows.length).filter fun i => w.rows[i]?.any fun r => !r.done && r.left.any fun b =>
    match pageOf s e w r b with
    | .peer x _ => x == d
    | _ => false

/-- A peer is lost for an ATTN. -/
def attnPeerLost (s : State) (e d : Nat) : State :=
  match (getOp s e).work with
  | .attn w => (rowsOn s e d w).foldl (fun s i => rowLost s e i rPeerLost) s
  | _ => s

/-- The block that engine `n` attends next, of the operations under way: the operation, and the block. -/
def attnHolder (s : State) (n : Nat) : Option (Nat × Nat) :=
  (s.op.table.filterMap fun (e, o) =>
    match o.work with
    | .attn w =>
      if o.result.isSome then none
      else (firstOf (fun b => b.2) (w.rows.filterMap fun r =>
        if r.done then none else r.left.head?.map fun b => (b, blockEngine s w (pageOf s e w r b) b == some n))).map fun b => (e, b.1)
    | _ => none).head?

end Sys2Proof.Machine
end

