-- ==== Sys2Proof/Machine/Sampler.lean ====
section
/-! DEFINITION. The sampler unit (R243, R280 to R298): request records, count tables, the pipeline, the
generator, drafts, verification of drafts and compaction. -/

namespace Sys2Proof.Machine

open Sys2Proof

/-! ## Request records (R282, R283) -/

/-- A request record (R282). -/
structure SampleReq where
  addr : Nat
  seed : Nat
  ctr : Nat
  counts : Nat
  temp : W32
  topP : W32
  minP : W32
  rep : W32
  pres : W32
  freq : W32
  topK : Nat
  kind : Nat
  update : Bool
  width : Nat
  nodes : Nat
  tree : Nat
  draft : Nat
  seq : Nat
  /-- A reserved bit is set. -/
  reserved : Bool
  deriving DecidableEq, Repr

def sampleReq (s : State) (a : Nat) : SampleReq :=
  let l := rdBytes s a 128
  let w (o : Nat) : W32 := BitVec.ofNat 32 (at_ l o 4)
  let m := at_ l 0x34 1
  { addr := a, seed := at_ l 0 8, ctr := at_ l 8 8, counts := at_ l 0x10 8, temp := w 0x18, topP := w 0x1C, minP := w 0x20
    rep := w 0x24, pres := w 0x28, freq := w 0x2C, topK := at_ l 0x30 4, kind := m % 4, update := bit m 2, width := at_ l 0x35 1
    nodes := at_ l 0x37 1, tree := at_ l 0x40 8, draft := at_ l 0x48 8, seq := at_ l 0x50 8
    reserved := 8 ≤ m || 64 ≤ at_ l 0x36 1 || at_ l 0x3C 4 != 0 || at_ l 0x58 40 != 0 }

def one32 : W32 := 0x3F800000#32

/-- Whether the fields of a record lie in their ranges (R282, R283). (DESIGN CHOICE, log entry 52) -/
def sampleReqOk (vocab : Nat) (r : SampleReq) : Bool :=
  let v := r.kind == 2
  !r.reserved && r.counts % 64 == 0 && r.kind != 3 && f32le 0 r.temp &&
    f32lt 0 r.topP && f32le r.topP one32 && f32le 0 r.minP && f32le r.minP one32 && f32lt 0 r.rep &&
    isFinite32 r.pres && isFinite32 r.freq && r.topK ≤ vocab &&
    (if r.kind = 1 then 1 ≤ r.width && r.width ≤ 8 else r.width == 0) &&
    (if v then 1 ≤ r.nodes && r.nodes ≤ 32 && r.tree % 64 == 0 && r.seq % 64 == 0
     else r.nodes == 0 && r.tree == 0 && r.draft == 0)

/-- The bytes of a count table that hold entries for tokens below `vocab` (R286). -/
def countBytes (vocab : Nat) : Nat := 8 * min vocab 4096

/-- Whether an instance may read a range (R283), and can (R335). -/
def readFault (s : State) (inst : Inst) (a n : Nat) : Option Byte :=
  if !inInst s inst a n then some rUnitAccess else if rangeBad s a n then some rMemErr else none

/-- The failures of the pages that a VERIFY group may compact (R298). (DESIGN CHOICE, log entry 52) -/
def compactFaults (s : State) (inst : Inst) (r : SampleReq) : List (Option Byte) :=
  if r.seq = 0 then []
  else match readFault s inst r.seq 64 with
  | some x => [some x]
  | none =>
    let q := seqRec s r.seq
    if !seqRecOk q || 16384 < tokenBytes q.kvheads q.hdim || q.len < r.nodes then [some rMalformed]
    else
      let t := pageTokens q.kvheads q.hdim
      let b0 := (q.len - r.nodes) / t
      (upFrom b0 ((q.len - 1) / t + 1 - b0)).flatMap fun b => (upFrom 0 q.layers).map fun l =>
        let i := b * q.layers + l
        if q.plistLen ≤ i then some rMalformed
        else match readFault s inst (entAddr q i) 8 with
        | some x => some x
        | none =>
          let e := rdEnt s (entAddr q i)
          if !e.valid || e.shared || e.reserved then some rMalformed
          else match placeOfEnt s inst e with
            | .local_ _ => if frameOwned s inst e.frame then none else some rUnitAccess
            | _ => some rMalformed

/-- The failures that a request record gives its operation at the start (R283). -/
def reqFaults (s : State) (inst : Inst) (vocab a : Nat) : List (Option Byte) :=
  if a % 64 ≠ 0 then [some rMalformed]
  else if !inInstStacked s inst a 128 then [some rUnitAccess]
  else if rangeBad s a 128 then [some rMemErr]
  else
    let r := sampleReq s a
    if !sampleReqOk vocab r then [some rMalformed]
    else
      (if r.counts = 0 then none else if !inInstStacked s inst r.counts 32768 then some rUnitAccess
        else if rangeBad s r.counts (countBytes vocab) then some rMemErr else none) ::
      (if r.kind = 2 then
        (match readFault s inst r.tree 128 with
          | some x => some x
          | none => if treeOk (treeMasks s r.tree) r.nodes then none else some rMalformed) ::
        readFault s inst r.draft (4 * r.nodes) :: compactFaults s inst r else [])

/-- The rows of an operation as units (R280, R281), from row `r` on; none when a record is named against R281. -/
def sampleUnits (s : State) (recs : List Nat) : Nat → Nat → List SampleUnit → Option (List SampleUnit)
  | 0, _, acc => some acc.reverse
  | fuel + 1, r, acc =>
    if recs.length ≤ r then some acc.reverse
    else
      let a := nth 0 recs r
      let q := sampleReq s a
      let n := if q.kind = 2 then max 1 q.nodes else 1
      if acc.any (fun u => u.recAddr.toNat == a) || recs.length < r + n || ((recs.drop r).take n).any (fun x => x != a) then none
      else sampleUnits s recs fuel (r + n) ({ row := r, rows := n, lane := r % 4, recAddr := BitVec.ofNat 64 a } :: acc)

def sampleWork (l : List Byte) : SampleWork :=
  { logits := BitVec.ofNat 64 (at_ l 0x28 8), out := BitVec.ofNat 64 (at_ l 0x38 8), vocab := at_ l 0x40 4, fmt := at_ l 0x46 1 % 16
    lstride := at_ l 0x48 4 }

/-- The bytes of a logit. -/
def logitBytes (fmt : Nat) : Nat := if fmt = 0xF then 4 else 2

/-- The failure of a SAMPLE at its start, if any (R243, R283). -/
def sampleFault (s : State) (inst : Inst) (l : List Byte) : Option Byte :=
  let w := sampleWork l
  let rows := at_ l 0x44 2
  let reqs := at_ l 0x30 8
  let fieldsOk := 2 ≤ w.vocab && w.vocab ≤ 262144 && 1 ≤ rows && rows ≤ 1024 && at_ l 0x46 1 < 16 && 0xD ≤ w.fmt &&
    at_ l 0x47 1 == 0 && at_ l 0x4C 52 == 0
  if !fieldsOk then some rMalformed
  else if !inInst s inst reqs (8 * rows) then some rUnitAccess
  else if rangeBad s reqs (8 * rows) then some rMemErr
  else
    let recs := (upFrom 0 rows).map fun r => rdNat s (reqs + 8 * r) 8
    let reach := (upFrom 0 rows).all (fun r => inInst s inst (w.logits.toNat + r * w.lstride) (w.vocab * logitBytes w.fmt)) &&
      inInst s inst w.out.toNat (64 * rows)
    worstOf [rMalformed, rUnitAccess, rMemErr]
      ((if reach then none else some rUnitAccess) :: (if (sampleUnits s recs rows 0 []).isNone then some rMalformed else none) ::
        (recs.eraseDups.flatMap (reqFaults s inst w.vocab)))

/-- A SAMPLE starts (R226, R283). -/
def startSample (s : State) (e : Nat) : State :=
  let o := getOp s e
  let l := opBody s e
  match sampleFault s o.inst l with
  | some r => failStart s e r 0xFFFF
  | none =>
    if s.op.samplerFenced then failStart s e rFenced 0xFFFF
    else
      let rows := at_ l 0x44 2
      let recs := (upFrom 0 rows).map fun r => rdNat s (at_ l 0x30 8 + 8 * r) 8
      startWork s e (.sample { sampleWork l with left := (sampleUnits s recs rows 0 []).getD [] })

/-! ## Count tables (R286, R287) -/

/-- The slots of a count table that token `t` may use, in order (R286). -/
def countSlots (vocab t : Nat) : List Nat :=
  if vocab ≤ 4096 then [t] else (upFrom (t * 0x9E3779B1 % 2 ^ 32 / 2 ^ 20) 16).map fun k => k % 4096

/-- Whether an entry in use counts token `t`: with at most 4,096 tokens entry t belongs to token t, whatever its TOKEN
(R286). -/
def countsToken (vocab e t : Nat) : Bool := bit e 31 && (vocab ≤ 4096 || e % 2 ^ 18 == t)

/-- The slot of token `t`, or the first empty one before it: its number, and the entry found there. -/
def findCount (s : State) (vocab tab t : Nat) : List Nat → Option (Nat × Nat)
  | [] => none
  | k :: r =>
    let e := rdNat s (tab + 8 * k) 8
    if !bit e 31 || countsToken vocab e t then some (k, e) else findCount s vocab tab t r

/-- n_t (R284, R286). -/
def countOf (s : State) (vocab tab t : Nat) : Nat :=
  if tab = 0 then 0
  else match findCount s vocab tab t (countSlots vocab t) with
    | some (_, e) => if countsToken vocab e t then bits e 32 16 else 0
    | none => 0

/-- An occurrence of token `t` is counted; true when it spills (R287). -/
def addCount (s : State) (inst : Inst) (vocab tab t : Nat) : State × Bool :=
  match findCount s vocab tab t (countSlots vocab t) with
  | some (k, e) =>
    let n := if countsToken vocab e t then min 65535 (bits e 32 16 + 1) else 1
    (wrNat s inst (tab + 8 * k) 8 (t + 2 ^ 31 + n * 2 ^ 32), false)
  | none => (s, true)

/-! ## The generator (R288) -/

/-- One round of Philox4x32. -/
def philoxRound (c : Nat × Nat × Nat × Nat) (k0 k1 : Nat) : Nat × Nat × Nat × Nat :=
  let (c0, c1, c2, c3) := c
  let p0 := 0xD2511F53 * c0
  let p1 := 0xCD9E8D57 * c2
  ((p1 / 2 ^ 32) ^^^ c1 ^^^ k0, p1 % 2 ^ 32, (p0 / 2 ^ 32) ^^^ c3 ^^^ k1, p0 % 2 ^ 32)

/-- `n` rounds, the key stepping between them. -/
def philox : Nat → Nat × Nat × Nat × Nat → Nat → Nat → Nat × Nat × Nat × Nat
  | 0, c, _, _ => c
  | n + 1, c, k0, k1 => philox n (philoxRound c k0 k1) ((k0 + 0x9E3779B9) % 2 ^ 32) ((k1 + 0xBB67AE85) % 2 ^ 32)

/-- Output word x0 for a seed and counter. -/
def philoxWord (seed ctr : Nat) : Nat :=
  (philox 10 (ctr % 2 ^ 32, ctr / 2 ^ 32 % 2 ^ 32, 0, 0) (seed % 2 ^ 32) (seed / 2 ^ 32 % 2 ^ 32)).1

/-- The uniform value u (R288). -/
def uniform (seed ctr : Nat) : Fv := round32 (.fin false (philoxWord seed ctr / 2 ^ 8) (-24))

/-! ## The pipeline (R284, R285, R289, R295) -/

/-- A logit as FP32. -/
def logit (s : State) (w : SampleWork) (row t : Nat) : Fv :=
  toF32 w.fmt (rdNat s (w.logits.toNat + row * w.lstride + t * logitBytes w.fmt) (logitBytes w.fmt))

/-- Stages 1 to 4 for one token; `warm` says that stage 1 applies. -/
def zOf (s : State) (w : SampleWork) (r : SampleReq) (row : Nat) (warm : Bool) (t : Nat) : Fv :=
  let z := logit s w row t
  let z := if warm then z.div ⟨r.temp, 0⟩ else z
  let n := countOf s w.vocab r.counts t
  if n = 0 then z
  else
    let z := if f32lt 0 z.v then z.div ⟨r.rep, 0⟩ else z.mul ⟨r.rep, 0⟩
    (z.sub ⟨r.pres, 0⟩).sub ((⟨r.freq, 0⟩ : Fv).mul (f32ofInt n))

/-- Rank order (R284): descending value, the lower token first among equals. -/
def ranksBefore (a b : Nat × W32) : Bool := f32lt b.2 a.2 || (f32eq a.2 b.2 && a.1 < b.1)

/-- A token put in its place in rank order. -/
def rankToken (x : Nat × W32) : List (Nat × W32) → List (Nat × W32)
  | [] => [x]
  | y :: r => if ranksBefore x y then x :: y :: r else y :: rankToken x r

def ranked (l : List (Nat × W32)) : List (Nat × W32) := l.foldr rankToken []

/-- The sum of values in the order given. -/
def sumInOrder (l : List (Nat × W32)) : Fv := l.foldl (fun (a : Fv) (_, e) => a.add ⟨e, 0⟩) Fv.zero

/-- Stage 7: the kept tokens in rank order, cut where the sum reaches the target. -/
def topP (target : W32) : W32 → List (Nat × W32) → List (Nat × W32)
  | _, [] => []
  | c, x :: r => if f32lt c target then x :: topP target (f32add c x.2).v r else []

/-- The draw (R289): the first token at which the running sum passes the target, or the last. -/
def drawFrom (target : W32) : W32 → Nat → List (Nat × W32) → Nat
  | _, last, [] => last
  | c, _, x :: r => let c := (f32add c x.2).v; if f32lt target c then x.1 else drawFrom target c x.1 r

/-- Tokens of a list in ascending token order, as a subset of the values of all tokens. -/
def inTokenOrder (all kept : List (Nat × W32)) : List (Nat × W32) := all.filter fun (t, _) => kept.any fun (x, _) => x == t

/-- Stages 5 to 9 (R284, R289), with the flags raised. -/
def drawToken (r : SampleReq) (zs : List (Nat × Fv)) : Nat × BitVec 4 :=
  let m := zs.foldl (fun (m : W32) (_, z) => f32max m z.v) 0xFF800000#32
  let ef := zs.map fun (t, z) => (t, (z.sub ⟨m, 0⟩).exp)
  let es := ef.map fun (t, e) => (t, e.v)
  let kept := ranked es
  let kept := if r.topK = 0 then kept else kept.take r.topK
  let sk := sumInOrder (inTokenOrder es kept)
  let target := (⟨r.topP, 0⟩ : Fv).mul sk
  let kept := if f32lt r.topP one32 then topP target.v 0 kept else kept
  let kept := if f32lt 0 r.minP then kept.filter fun (_, e) => f32le r.minP e else kept
  let final := inTokenOrder es kept
  let sum := sumInOrder final
  let goal := (uniform r.seed r.ctr).mul sum
  (drawFrom goal.v 0 0 final, ef.foldl (fun f (_, e) => f ||| e.f) (target.f ||| goal.f))

/-- The case of NaN of R285. -/
def zInvalid (zs : List (Nat × Fv)) : Bool := zs.any (fun (_, z) => isNan32 z.v) || zs.all fun (_, z) => z.v == 0xFF800000#32

/-- One sample of a row (R284, R285): the token, the output FLAGS and the arithmetic flags. -/
def sampleToken (s : State) (w : SampleWork) (r : SampleReq) (row : Nat) : Nat × Nat × BitVec 4 :=
  let greedy := f32eq r.temp 0
  let zs := (upFrom 0 w.vocab).map fun t => (t, zOf s w r row (!greedy) t)
  let f := zs.foldl (fun f (_, z) => f ||| z.f) 0
  if zInvalid zs then (0xFFFFFFFF, 1, f)
  else match firstOf (fun (_, z) => z.v == 0x7F800000#32) zs with
    | some (t, _) => (t, 8, f)
    | none =>
      if greedy then
        (match ranked (zs.map fun (t, z) => (t, z.v)) with | (t, _) :: _ => t | [] => 0, 4, f)
      else let (t, g) := drawToken r zs; (t, 0, f ||| g)

/-- A sample with what it leaves in memory (R285, R287, R289): CTR advances by 1, and the token is counted. The
answer holds the token and its FLAGS. -/
def produce (s : State) (e : Nat) (w : SampleWork) (a row : Nat) : State × Nat × Nat :=
  let inst := (getOp s e).inst
  let r := sampleReq s a
  let (t, fl, f) := sampleToken s w r row
  let s := bumpFree (opFlags s e f)
  let s := wrNat s inst (a + 8) 8 (r.ctr + 1)
  if r.update && r.counts != 0 && t != 0xFFFFFFFF then
    let (s, spill) := addCount s inst w.vocab r.counts t
    if spill then
      (opCounts (wrNat s inst (a + 0x38) 4 (satN 32 (rdNat s (a + 0x38) 4 + 1))) e 0 1, t, fl + 2)
    else (s, t, fl)
  else (s, t, fl)

/-- An output record (R290). -/
def outRecord (token accept flags path : Nat) (cand : List Nat) (ctr : Nat) : List Byte :=
  toBytes token 4 ++ toBytes accept 1 ++ toBytes flags 1 ++ [0, 0] ++ toBytes path 8 ++
    ((cand ++ List.replicate 8 0xFFFFFFFF).take 8).flatMap (fun t => toBytes t 4) ++ toBytes ctr 8 ++ toBytes 0 8

/-- The output record of a row is written. -/
def putOut (s : State) (e : Nat) (w : SampleWork) (row : Nat) (l : List Byte) : State :=
  wrBytes s (getOp s e).inst (w.out.toNat + 64 * row) l

/-- CAND of a record of KIND SAMPLE or VERIFY, which the specification leaves open: free values. (DESIGN CHOICE, log entry 52) -/
def openCand (s : State) : List Nat :=
  (upFrom 0 8).map fun j => ofBytes ((upFrom (4 * j) 4).map fun k => Config.undefByte s.free k)

/-- A row of KIND SAMPLE. -/
def sampleOne (s : State) (e : Nat) (w : SampleWork) (u : SampleUnit) : State × SampleWork :=
  let a := u.recAddr.toNat
  let (s, t, fl) := produce s e w a u.row
  (bumpFree (putOut s e w u.row (outRecord t 0 fl 0 (openCand s) (rdNat s (a + 8) 8))), w)

/-- The token of a DRAFT row's record, which the specification leaves open: a free value. (DESIGN CHOICE, log entry 52) -/
def draftToken (s : State) : Nat := ofBytes ((upFrom 0 4).map fun k => Config.undefByte s.free k)

/-- A DRAFT row (R295). -/
def sampleDraft (s : State) (e : Nat) (w : SampleWork) (u : SampleUnit) : State × SampleWork :=
  let r := sampleReq s u.recAddr.toNat
  let zs := (upFrom 0 w.vocab).map fun t => (t, zOf s w r u.row false t)
  let bad := zInvalid zs
  let cand := if bad then [] else ((ranked (zs.map fun (t, z) => (t, z.v))).take r.width).map Prod.fst
  let s := opFlags s e (zs.foldl (fun f (_, z) => f ||| z.f) 0)
  (bumpFree (putOut s e w u.row (outRecord (draftToken s) 0 (b2n bad) 0 cand r.ctr)), w)

/-- The lowest child of node `n` whose draft token is `t` (R296, R297). -/
def childOf (s : State) (r : SampleReq) (n t : Nat) : Option Nat :=
  let masks := treeMasks s r.tree
  if t = 0xFFFFFFFF then none else
  firstOf (fun c => n < c && c < r.nodes && nth 0 masks c == nth 0 masks n + 2 ^ c && rdNat s (r.draft + 4 * c) 4 == t) (upFrom 1 31)

/-- What the walk of a draft tree has gathered: the state, the path, the correction token, its FLAGS, and the rows
it has processed. -/
structure Walk where
  st : State
  path : List Nat
  token : Nat
  flags : Nat
  rows : Nat

/-- The acceptance of a VERIFY group (R297), from node `n` on. -/
def verifyWalk (e : Nat) (w : SampleWork) (u : SampleUnit) : Nat → Nat → Walk → Walk
  | 0, _, x => x
  | fuel + 1, n, x =>
    let r := sampleReq x.st u.recAddr.toNat
    let (s, t, fl) := produce x.st e w u.recAddr.toNat (u.row + n)
    let x := { x with st := s, token := t, flags := x.flags ||| fl, rows := x.rows + 1 }
    match childOf s r n t with
    | none => x
    | some c => verifyWalk e w u fuel c { x with path := x.path ++ [c] }

/-- A VERIFY group (R297, R298). -/
def sampleVerify (s : State) (e : Nat) (w : SampleWork) (u : SampleUnit) : State × SampleWork :=
  let a := u.recAddr.toNat
  let r := sampleReq s a
  let x := verifyWalk e w u 32 0 { st := s, path := [], token := 0, flags := 0, rows := 0 }
  let n := x.path.length
  let s := putOut x.st e w u.row
    (outRecord x.token n x.flags (ofBytes (x.path.map (BitVec.ofNat 8))) (openCand x.st) (rdNat x.st (a + 8) 8))
  let s := opCounts (bumpFree s) e (x.rows - 1) 0
  let copies := if r.seq = 0 then w.copies else w.copies ++ [{ seq := BitVec.ofNat 64 r.seq, base := (seqRec s r.seq).len - r.nodes, path := x.path }]
  (s, { w with copies := copies })

/-- The work of a SAMPLE changed; its result stands once every row and compaction is done (R291). -/
def putSample (s : State) (e : Nat) (w : SampleWork) : State :=
  let s := setOp s e { getOp s e with work := .sample w }
  if w.left.isEmpty && w.copies.isEmpty then setResult s e rOk 0xFFFF else s

/-- Whether an operation that started earlier still has rows for a lane (R280). -/
def laneTaken (s : State) (e lane : Nat) : Bool :=
  s.op.table.any fun (k, o) => k != e && o.started && o.startNo < (getOp s e).startNo && o.result.isNone && match o.work with
    | .sample w => w.left.any fun u => u.lane == lane
    | _ => false

/-- Whether what a unit's rows read holds an uncorrectable error (R335): its logits, record and count table, and the tree
and tokens of a VERIFY group. -/
def unitBad (s : State) (w : SampleWork) (u : SampleUnit) : Bool :=
  let r := sampleReq s u.recAddr.toNat
  (upFrom u.row u.rows).any (fun i => rangeBad s (w.logits.toNat + i * w.lstride) (w.vocab * logitBytes w.fmt)) ||
    rangeBad s u.recAddr.toNat 128 || (r.counts != 0 && rangeBad s r.counts (countBytes w.vocab)) ||
    (r.kind == 2 && (rangeBad s r.tree 128 || rangeBad s r.draft (4 * r.nodes)))

/-- The row that a lane processes next, of the operations under way: the operation, and the row. -/
def laneHolder (s : State) (lane : Nat) : Option (Nat × Nat) :=
  (s.op.table.filterMap fun (e, o) =>
    match o.work with
    | .sample w =>
      if o.result.isSome || laneTaken s e lane then none
      else (firstOf (fun u : SampleUnit => u.lane == lane) w.left).map fun u => (e, u.row)
    | _ => none).head?

/-- SAMPLE_ROW (R280, R284 to R290, R295, R297): a lane takes its next row, or its next VERIFY group. -/
def execSampleRow (e : OpIx) (lane : Fin 4) (s : State) : Out :=
  match (getOp s e).work with
  | .sample w =>
    match firstOf (fun u : SampleUnit => u.lane == lane.val) w.left with
    | none => .next s
    | some u =>
      if (getOp s e).result.isSome ∨ laneTaken s e lane = true then .next s
      else if s.op.samplerFenced then .next (setResult s e rFenced 0xFFFF)
      else if unitBad s w u then
        .next (setResult s e rMemErr 0xFFFF)
      else
        let w := { w with left := dropFirst (fun x => x == u) w.left }
        let s := opCounts s e 1 0
        let r := sampleReq s u.recAddr.toNat
        let (s, w) := if r.kind = 1 then sampleDraft s e w u else if r.kind = 2 then sampleVerify s e w u else sampleOne s e w u
        .next (putSample s e w)
  | _ => .next s

/-! ## Compaction (R298) -/

/-- The keys and values of one position of a layer copied to another (R298), as an append (R261, R263). -/
def copyToken (e : Nat) (q : SeqRec) (seqA src dst : Nat) (s : State) (layer : Nat) : State :=
  let inst := (getOp s e).inst
  let t := pageTokens q.kvheads q.hdim
  let n := tokenBytes q.kvheads q.hdim
  let es := rdEnt s (entAddr q (kvIndex q layer src))
  let da := entAddr q (kvIndex q layer dst)
  let ed := rdEnt s da
  let half (s : State) (h : Nat) : State :=
    wrBytes s inst (ed.frame * 0x8000 + h * 0x4000 + dst % t * n) (rdBytes s (es.frame * 0x8000 + h * 0x4000 + src % t * n) n)
  let s := half (half (setDvalid s inst da false) 0) 1
  let due : SealDue := ⟨e, BitVec.ofNat 64 seqA, kvIndex q layer dst⟩
  if dst % t = t - 1 ∧ q.digest ≠ 0 ∧ s.op.seals.contains due = false then { s with op.seals := s.op.seals ++ [due] } else s

/-- The moves of an accepted path (R298): depths whose node stands elsewhere. -/
def pathMoves (c : Compaction) : List (Nat × Nat) := ((upFrom 1 c.path.length).zip c.path).filter fun (d, n) => d != n

/-- Whether what a compaction reads holds an uncorrectable error (R335). -/
def compactBad (s : State) (c : Compaction) : Bool :=
  let q := seqRec s c.seq.toNat
  let t := pageTokens q.kvheads q.hdim
  let n := tokenBytes q.kvheads q.hdim
  rangeBad s c.seq.toNat 64 || (pathMoves c).any fun (_, x) => (upFrom 0 q.layers).any fun l =>
    let p := c.base + x
    rangeBad s (entAddr q (kvIndex q l p)) 8 ||
      (let a := (rdEnt s (entAddr q (kvIndex q l p))).frame * 0x8000 + p % t * n
       rangeBad s a n || rangeBad s (a + 0x4000) n)

/-- The copies of an accepted path, and LEN (R298). -/
def compact (s : State) (e : Nat) (c : Compaction) : State :=
  let q := seqRec s c.seq.toNat
  let s := (pathMoves c).foldl
    (fun s (d, n) => (upFrom 0 q.layers).foldl (copyToken e q c.seq.toNat (c.base + n) (c.base + d)) s) s
  wrNat s (getOp s e).inst (c.seq.toNat + 0x10) 8 (c.base + c.path.length + 1)

/-- COMPACTION_COPY (R298). -/
def execCompactionCopy (e : OpIx) (s : State) : Out :=
  match (getOp s e).work with
  | .sample w =>
    match w.copies with
    | [] => .next s
    | c :: rest =>
      if (getOp s e).result.isSome then .next s
      else if compactBad s c then .next (setResult s e rMemErr 0xFFFF)
      else .next (putSample (compact s e c) e { w with copies := rest })
  | _ => .next s

end Sys2Proof.Machine
end

