-- ==== Sys2Proof/Machine/Xfer.lean ====
section
/-! DEFINITION. Transfers (R240, R241, R275, R276, R338 to R340): their checks at the start, the engines and their
arbiters, and the bursts. -/

namespace Sys2Proof.Machine

open Sys2Proof

/-! ## Places -/

/-- Where bytes of a transfer lie: at an address of this device, or of a peer. -/
inductive XPlace where
  | own (a : Nat)
  | peer (d a : Nat)
  deriving DecidableEq, Repr

def XPlace.plus : XPlace → Nat → XPlace
  | .own a, n => .own (a + n)
  | .peer d a, n => .peer d (a + n)

def placeAt (s : State) (d a : Nat) : XPlace := if d = ownDev s then .own a else .peer d a

/-- The place of the frame that an entry names, for the device that holds its list; 0xFFFF stands for host memory
(R257, R275, R276). -/
def entryPlace (s : State) (inst : Inst) (holder : Nat) (e : PageEnt) : XPlace :=
  let own := ownDev s
  let here := holder == own || holder == 0xFFFF
  let hostBase (f : Nat) : XPlace := .own ((regAct s (.inst inst) 0x080).toNat + f * 0x8000)
  if !e.global then
    if holder = 0xFFFF then hostBase e.frame else if holder = own then .own (e.frame * 0x8000) else .peer holder (pageAddr false e.frame)
  else if e.dev = 0xFFFF then (if here then hostBase e.frame else .peer holder (pageAddr true e.frame))
  else if e.dev = own then .own (e.frame * 0x8000)
  else .peer e.dev (pageAddr false e.frame)

/-- Whether the frame of an entry is one that the instance may reach (R228, R260, R317). -/
def entryReach (s : State) (inst : Inst) (e : PageEnt) : XPlace → Option Byte
  | .own a => if (if isHost a then hostFrameOwned s inst e.frame else frameOwned s inst e.frame) then none else some rUnitAccess
  | .peer d _ => if reaches s (instSlice s inst) d then none else some rPeerRefused

/-! ## Shape of a transfer -/

/-- The bytes of one vector of a FILL in each of its sources (R30, R241). -/
def fillBytes (w : XferWork) : Nat := w.len * fmtBits w.fmt / 8

/-- The bytes that a FILL reads for one vector. -/
def fillRead (w : XferWork) : Nat := if w.gated then 2 * fillBytes w else fillBytes w

/-- The pieces of the source from offset `rd` on. -/
def gatherPieces (w : XferWork) : Nat → Nat → Nat → List (XPlace × Nat)
  | 0, _, _ => []
  | fuel + 1, rd, n =>
    if n = 0 then []
    else
      let m := min n (w.rowBytes - rd % w.rowBytes)
      (.own (w.src.toNat + nth 0 w.idx (rd / w.rowBytes) * w.rowBytes + rd % w.rowBytes), m) :: gatherPieces w fuel (rd + m) (n - m)

def srcPieces (s : State) (inst : Inst) (w : XferWork) (rd n : Nat) : List (XPlace × Nat) :=
  match w.kind with
  | .copy => [(placeAt s w.srcDev.toNat (w.src.toNat + rd), n)]
  | .gather => gatherPieces w n rd n
  | .pages => [((entryPlace s inst w.srcDev.toNat (pageEnt (nth 0 w.srcEnts (rd / 0x8000)).toNat)).plus (rd % 0x8000), n)]
  | .fill =>
    let v := rd / max 1 (fillRead w)
    let o := rd % max 1 (fillRead w)
    if o < fillBytes w then [(.own (w.src.toNat + v * w.rowBytes + o), n)]
    else [(.own (w.src2.toNat + v * w.rowBytes + (o - fillBytes w)), n)]

/-- The place of the destination at offset `rd`. -/
def dstPlace (s : State) (inst : Inst) (w : XferWork) (rd : Nat) : XPlace :=
  match w.kind with
  | .pages => (entryPlace s inst w.dstDev.toNat (pageEnt (nth 0 w.dstEnts (rd / 0x8000)).toNat)).plus (rd % 0x8000)
  | _ => placeAt s w.dstDev.toNat (w.dst.toNat + rd)

/-- The bytes that all bursts of a transfer read. -/
def xferEnd (w : XferWork) : Nat := if w.kind = .fill then w.vectors * fillRead w else w.total

/-- The length of the burst at `rd` (R338): at most 4 KiB, and up to a destination aligned to 4 KiB. (DESIGN CHOICE, log entry 67) -/
def burstLen (w : XferWork) : Nat :=
  match w.kind with
  | .copy => min (w.total - w.rd) (4096 - (w.dst.toNat + w.rd) % 4096)
  | .gather => min (w.total - w.rd) (4096 - (w.dst.toNat + w.rd) % 4096)
  | .pages => 4096 - w.rd % 4096
  | .fill =>
    let o := w.rd % max 1 (fillRead w)
    min 4096 (if o < fillBytes w then fillBytes w - o else fillRead w - o)

/-- Whether a page has landed whose digest and entry are still to be written (R276). -/
def pageClosing (w : XferWork) : Bool := w.kind == .pages && w.ents * 0x8000 + 0x8000 == w.rd

/-- Addresses of the list entries and digests of page `i` (R275, R276). -/
def srcEntAddr (w : XferWork) (i : Nat) : Nat := w.slist.toNat + 8 * (w.sfirst + i * w.stride)
def dstEntAddr (w : XferWork) (i : Nat) : Nat := w.dst.toNat + 8 * (w.dfirst + i * w.stride)
def digBytes (w : XferWork) : Nat := w.kvheads * 64

/-- The device on which a list or a digest of the source lies: host memory is reached through this device. -/
def srcHolder (s : State) (w : XferWork) : Nat := if w.srcDev = 0xFFFF then ownDev s else w.srcDev.toNat

def srcDigPlace (s : State) (w : XferWork) (i : Nat) : XPlace :=
  placeAt s (srcHolder s w) (w.sdigest.toNat + (w.sfirst + i * w.stride) * digBytes w)
def dstDigPlace (s : State) (w : XferWork) (i : Nat) : XPlace :=
  placeAt s w.dstDev.toNat (w.ddigest.toNat + (w.dfirst + i * w.stride) * digBytes w)

/-! ## Peers -/

def putXfer (s : State) (e : Nat) (w : XferWork) : State := setOp s e { getOp s e with work := .xfer w }

def xferOf (s : State) (e : Nat) : Option XferWork :=
  match (getOp s e).work with
  | .xfer w => if (getOp s e).result.isNone then some w else none
  | _ => none

/-- Bytes written to a peer, with the offset that each frame stands for until it is acknowledged (R339). (DESIGN CHOICE, log entry 67) -/
def writePeer (e : Nat) (inst : Inst) (d : Nat) : Nat → Nat → Nat → List Byte → State → State
  | 0, _, _, _, s => s
  | fuel + 1, a, off, l, s =>
    if l.isEmpty then s
    else
      let seq := tabGet 0 s.fab.txSeq (d * 4 + cReq.toNat) + 1
      let s := sendReliable s (some e) inst cReq 0x01 d a (l.take 1024)
      let s := match xferOf s e with
        | some w => putXfer s e { w with out := tabPut w.out seq.toNat off }
        | none => s
      writePeer e inst d fuel (a + 1024) (off + 1024) (l.drop 1024) s

/-- PROG (R339): everything read has landed, but for what a peer has not acknowledged. (DESIGN CHOICE, log entry 67) -/
def progOf (s : State) (e : Nat) (w : XferWork) : Nat :=
  let open_ := (unackedOf s e).map fun c => c.frame.seq.toNat
  ((w.out.filter fun (q, _) => open_.contains q).map Prod.snd).foldl min w.rd

/-- PROG of a FILL (R339): 512 bytes for each position written, over the vectors whose writes have all been
accepted. (DESIGN CHOICE, log entry 67) -/
def fillProg (s : State) (e : Nat) (w : XferWork) : Nat :=
  let v := ((s.op.posQueue.filter fun x => x.op == e).map (·.vec)).foldl min (w.rd / max 1 (fillRead w))
  v * w.posItems.length * 512

def xferProg (s : State) (e : Nat) (w : XferWork) : Nat :=
  max w.prog (if w.kind = .fill then fillProg s e w else progOf s e w)

/-! ## Engines (R241, R338, R346, R348) -/

/-- The priority of a transfer (R165, R348). -/
def xferPrio (s : State) (o : Op) : Nat := if o.launch.isSome then 7 else min 5 (instArbPrio s o.inst)

/-- The engine for a transfer (R241): the one it names, one of the station that holds the source, or the least
loaded one. One that is fenced gives way to its station. (DESIGN CHOICE, log entry 67) -/
def pickXfer (s : State) (w : XferWork) : Option Nat :=
  if w.wantEngine < 32 then
    if (getXfer s w.wantEngine).fenced then leastXfer s (stationXfers (w.wantEngine / 4)) else some w.wantEngine
  else
    let near := if w.srcDev.toNat = ownDev s ∧ isStacked w.src.toNat = true then leastXfer s (stationXfers (stackOf w.src.toNat)) else none
    match near with
    | some x => some x
    | none => leastXfer s (upFrom 0 32)

/-- What the next burst reads. -/
def nextPieces (s : State) (inst : Inst) (w : XferWork) : List (XPlace × Nat) :=
  if pageClosing w then (if w.dig && !w.digDone then [(srcDigPlace s w w.ents, digBytes w)] else [])
  else if w.rd < xferEnd w then srcPieces s inst w w.rd (burstLen w)
  else []

/-- Whether a burst reads host memory. -/
def usesHost (ps : List (XPlace × Nat)) : Bool := ps.any fun (p, n) => n != 0 && match p with
  | .own a => isHost a
  | .peer _ _ => false

/-- The READs of a burst to peers are sent, with the engine's tag (R338). -/
def askPieces (s : State) (e : Nat) (inst : Inst) (t : ReadTag) (ps : List (XPlace × Nat)) : State :=
  tagReads (ps.foldl (fun s (p, n) => match p with
    | .peer d a => sendReads e inst d (n / 1024 + 1) a n s
    | .own _ => s) s) e t

/-- Sends the read requests that the next burst needs: READs to peers, and one request to the host, which waits for a free
tag (R350). (DESIGN CHOICE, log entry 67) -/
def askNext (s : State) (e : Nat) : State :=
  match xferOf s e with
  | some w =>
    match w.engine with
    | none => s
    | some x =>
      let inst := (getOp s e).inst
      let ps := nextPieces s inst w
      let t := readTag s x (w.rd / 4096)
      let s := if w.asked then s else askPieces (putXfer s e { w with asked := true }) e inst t ps
      if usesHost ps && (hostReadOf s e 0).isNone then askHost s e 0 inst t else s
  | none => s

/-- When a transfer raised its request at its engine: its age (R342). -/
def raisedAt (o : Op) : Nat :=
  match o.work with
  | .xfer w => w.raisedAt
  | _ => 0

/-- A free engine is granted to one of its requesters (R343, R348): work that a fenced engine of the station
handed on has been moved (R393). -/
def grantXfer (s : State) (x : Nat) : State :=
  let k := getXfer s x
  if k.op.isSome || k.fenced then s
  else
    let rs := (assignedTo s x).map fun (e, o) => (⟨xferPrio s o, raisedAt o, e⟩ : ArbReq)
    match arbPick s (arbXfer x) (regFld s .xfer (0x104 + 8 * x) 0 8) rs with
    | none => s
    | some (r, reserved) =>
      let s := arbCount s (arbXfer x) reserved
      let s := setXfer s x { k with op := some r.index, reserved := reserved }
      let s := { s with flt.windows := s.flt.windows.filter fun v => !(v.unit.kind == 6 && v.unit.num.toNat / 4 == x / 4) }
      match xferOf s r.index with
      | some w => askNext (putXfer s r.index { w with engine := some x, asked := false }) r.index
      | none => s

/-- An operation leaves its engine, which is granted again. -/
def releaseXfer (s : State) (e : Nat) : State :=
  match (getOp s e).work with
  | .xfer w =>
    let s := putXfer s e { w with asg := none, engine := none }
    match w.asg with
    | some x => if (getXfer s x).op = some e then grantXfer (setXfer s x { getXfer s x with op := none, reserved := false }) x else s
    | none => s
  | _ => s

/-- A transfer ends with a result: COUNT_A holds PROG (R339). -/
def endXfer (s : State) (e : Nat) (r : Byte) (detail : Nat) : State :=
  match xferOf s e with
  | some w =>
    let p := xferProg s e w
    let s := setOp s e { getOp s e with work := .xfer { w with prog := p }, countA := p }
    releaseXfer (setResult (dropReads s e) e r detail) e
  | none => s

/-- A burst boundary (R346): the holder gives way to a requester of strictly higher priority. -/
def preemptXfer (s : State) (x : Nat) : State :=
  let k := getXfer s x
  match k.op with
  | some e =>
    let p := xferPrio s (getOp s e)
    if regFld s .xfer (0x104 + 8 * x) 9 1 = 1 ∧ k.reserved = false ∧ (assignedTo s x).any (fun (_, o) => decide (p < xferPrio s o)) = true then
      match xferOf s e with
      | some w => grantXfer (putXfer (setXfer s x { k with op := none }) e { w with engine := none }) x
      | none => s
    else s
  | none => s

/-! ## Progress -/

/-- The end of a transfer, once everything is globally visible (R276 step 4, R314, R339). -/
def xferAdvance (s : State) (e : Nat) : State :=
  match xferOf s e with
  | some w =>
    let p := xferProg s e w
    let s := setOp s e { getOp s e with work := .xfer { w with prog := p } }
    let w := { w with prog := p }
    let pagesOk := w.kind != .pages || w.ents == w.len
    if w.asg.isSome && w.rd == xferEnd w && pagesOk && (unackedOf s e).isEmpty && w.posLeft == 0 then
      match w.notify with
      | some c =>
        if w.notifySent then endXfer s e rOk 0xFFFF
        else
          let s := putXfer s e { w with notifySent := true }
          if w.dstDev.toNat = ownDev s then endXfer (counterAdd s c.toNat 1) e rOk 0xFFFF
          else sendReliable s (some e) (getOp s e).inst cReq 0x03 w.dstDev.toNat c.toNat ([0x00, 0x01] ++ toBytes 0 6 ++ toBytes 1 8)
      | none => endXfer s e rOk 0xFFFF
    else s
  | none => s

/-- A transfer that has passed its checks is raised at its engine (R348). -/
def raiseXfer (s : State) (e : Nat) : State :=
  match xferOf s e with
  | some w =>
    match pickXfer s w with
    | none => setResult s e rMemErr 0xFFFF
    | some x => xferAdvance (grantXfer (putXfer s e { w with asg := some x, raisedAt := s.now }) x) e
  | none => s

/-! ## Start (R240, R241, R275, R276) -/

def xferKindOf (k : Nat) : XferKind := if k = 0xD0 then .copy else if k = 0xD1 then .gather else if k = 0xD2 then .pages else .fill

def xferWork (l : List Byte) (k : Nat) : XferWork :=
  let m := at_ l 0x46 1
  { kind := xferKindOf k, src := BitVec.ofNat 64 (at_ l 0x28 8), dst := BitVec.ofNat 64 (at_ l 0x30 8), len := at_ l 0x38 8
    srcDev := BitVec.ofNat 16 (at_ l 0x40 2), dstDev := BitVec.ofNat 16 (at_ l 0x42 2), wantEngine := at_ l 0x44 1
    fmt := at_ l 0x45 1 % 16, rms := bit m 0, static := bit m 1, gated := bit m 2, vectors := at_ l 0x47 1
    rowBytes := at_ l 0x48 4, eps := BitVec.ofNat 32 (at_ l 0x4C 4), scale := BitVec.ofNat 64 (at_ l 0x60 8)
    src2 := BitVec.ofNat 64 (at_ l 0x68 8) }

/-- The float formats, which a FILL without STATIC may read (R241). -/
def isFloatFmt (f : Nat) : Bool := (8 ≤ f && f ≤ 0xB) || (0xD ≤ f && f ≤ 0xF)

/-- Whether the fields of a descriptor keep R240 and R241 for its kind. (DESIGN CHOICE, log entry 67) -/
def xferFieldsOk (s : State) (l : List Byte) (w : XferWork) : Bool :=
  let own := ownDev s
  let here := w.srcDev.toNat == own && w.dstDev.toNat == own
  at_ l 0x5A 6 == 0 && at_ l 0x70 16 == 0 && (w.wantEngine < 32 || w.wantEngine == 0xFF) &&
    match w.kind with
    | .copy => at_ l 0x45 21 == 0 && at_ l 0x5A 22 == 0
    | .gather => here && at_ l 0x45 3 == 0 && at_ l 0x4C 4 == 0 && at_ l 0x58 24 == 0
    | .pages => at_ l 0x45 21 == 0 && at_ l 0x5A 22 == 0 && w.src.toNat % 64 == 0 && w.dst.toNat % 8 == 0
    | .fill => here && w.dst == 0 && at_ l 0x45 1 < 16 && at_ l 0x46 1 < 8 && 1 ≤ w.vectors && w.vectors ≤ 32 && 1 ≤ at_ l 0x58 2 &&
        at_ l 0x58 2 ≤ 4096 && w.len % 512 == 0 && w.len != 0 && at_ l 0x50 8 % 8 == 0 && (w.static || w.scale == 0) && (w.gated || w.src2 == 0) &&
        if w.static then (w.fmt == 4 || w.fmt == 5) && !w.rms && !w.gated else isFloatFmt w.fmt

/-- A failed check of a start, with DETAIL. -/
abbrev XFault := Option (Byte × Nat)

/-- Whether a COPY may reach its ends (R228, R315). -/
def copyFault (s : State) (inst : Inst) (w : XferWork) : XFault :=
  let own := ownDev s
  let refused (d : Nat) : Bool := d != own && !reaches s (instSlice s inst) d
  if (w.srcDev.toNat = own ∧ inInst s inst w.src.toNat w.len = false) ∨ (w.dstDev.toNat = own ∧ inInst s inst w.dst.toNat w.len = false) then
    some (rUnitAccess, 0xFFFF)
  else if refused w.dstDev.toNat then some (rPeerRefused, w.dstDev.toNat)
  else if refused w.srcDev.toNat then some (rPeerRefused, w.srcDev.toNat)
  else none

/-- The row indices of a GATHER, or the failure of its start. -/
def gatherStart (s : State) (inst : Inst) (w : XferWork) (index : Nat) : XFault × XferWork :=
  if !inInst s inst index (4 * w.len) || !inInst s inst w.dst.toNat (w.len * w.rowBytes) then (some (rUnitAccess, 0xFFFF), w)
  else if rangeBad s index (4 * w.len) then (some (rMemErr, 0xFFFF), w)
  else
    let idx := (upFrom 0 w.len).map fun i => rdNat s (index + 4 * i) 4
    if idx.all fun i => inInst s inst (w.src.toNat + i * w.rowBytes) w.rowBytes then (none, { w with idx := idx, total := w.len * w.rowBytes })
    else (some (rUnitAccess, 0xFFFF), w)

/-- The position items of a FILL, or the failure of its start (R234, R241). -/
def fillStart (s : State) (inst : Inst) (w : XferWork) (map n : Nat) : XFault × XferWork :=
  let vb := fillBytes w
  let vs := upFrom 0 w.vectors
  if !inInst s inst map (8 * n) || (w.static && !inInst s inst w.scale.toNat (4 * w.vectors)) ||
      vs.any (fun v => !inInst s inst (w.src.toNat + v * w.rowBytes) vb || (w.gated && !inInst s inst (w.src2.toNat + v * w.rowBytes) vb)) then
    (some (rUnitAccess, 0xFFFF), w)
  else if rangeBad s map (8 * n) || (w.static && rangeBad s w.scale.toNat (4 * w.vectors)) then (some (rMemErr, 0xFFFF), w)
  else
    let words := rdWords s map n
    let items := words.map posItem
    if words.any (fun v => v / 2 ^ 40 != 0) || items.any (fun p => p.uses == 0 || w.len / 512 ≤ p.kblock) then (some (rMalformed, 0xFFFF), w)
    else match firstOf (fun p : PosItem => !ownsTile s inst p.tile) items, firstOf (fun p : PosItem => tileFenced s p.tile) items with
      | some p, _ => (some (rUnitAccess, p.tile), w)
      | none, some p => (some (rFenced, p.tile), w)
      | none, none => (none, { w with posItems := items, posLeft := n * w.vectors, total := n * w.vectors * 512 })

/-- The walk record of a PAGES, or the failure of its start (R275). -/
def pagesStart (s : State) (inst : Inst) (w : XferWork) : XFault × XferWork :=
  let a := w.src.toNat
  if !inInst s inst a 64 then (some (rUnitAccess, 0xFFFF), w)
  else if rangeBad s a 64 then (some (rMemErr, 0xFFFF), w)
  else
    let h := rdBytes s a 64
    let fl := at_ h 0x1C 1
    let dig := bit fl 0
    let heads := at_ h 0x1D 1
    let own := ownDev s
    let refused (d : Nat) : Bool := d != own && !reaches s (instSlice s inst) d
    if 4 ≤ fl ∨ at_ h 0x1E 2 ≠ 0 ∨ at_ h 0x38 8 ≠ 0 ∨ at_ h 0x18 4 = 0 ∨ 65535 < at_ h 0x18 4 ∨ at_ h 0 8 % 8 ≠ 0 ∨
        (dig = true ∧ (heads = 0 ∨ 64 < heads)) ∨ (dig = false ∧ heads ≠ 0) then (some (rMalformed, 0xFFFF), w)
    else if refused w.dstDev.toNat then (some (rPeerRefused, w.dstDev.toNat), w)
    else if w.srcDev ≠ 0xFFFF ∧ refused w.srcDev.toNat = true then (some (rPeerRefused, w.srcDev.toNat), w)
    else
      let cnt := at_ h 0x30 8
      if bit fl 1 && w.dstDev.toNat == own && !(cnt % 8 == 0 && inInstStacked s inst cnt 8) then (some (rUnitAccess, 0xFFFF), w)
      else (none, { w with
        slist := BitVec.ofNat 64 (at_ h 0 8), sfirst := at_ h 8 8, dfirst := at_ h 0x10 8, stride := at_ h 0x18 4
        dig := dig, notify := if bit fl 1 then some (BitVec.ofNat 64 cnt) else none, kvheads := heads
        sdigest := BitVec.ofNat 64 (at_ h 0x20 8), ddigest := BitVec.ofNat 64 (at_ h 0x28 8), total := w.len * 0x8000 })

/-- A list entry as the walk finds it: to be asked of a peer, unreadable, or its 8 bytes. -/
inductive WalkEnt where
  | ask (d a : Nat)
  | bad (r : Byte)
  | val (v : Nat)
  deriving DecidableEq, Repr

/-- A list entry on a device. -/
def walkEnt (s : State) (inst : Inst) (w : XferWork) (d a : Nat) : WalkEnt :=
  if d = ownDev s then
    if !inInst s inst a 8 then .bad rUnitAccess
    else if rangeBad s a 8 then .bad rMemErr
    else .val (rdNat s a 8)
  else if tabHas w.got (gotKey d a) then .val (at_ (tabGet [] w.got (gotKey d a)) 0 8)
  else .ask d a

/-- The failure that the entries of a page give (R276 step 3). -/
def pageFault (s : State) (inst : Inst) (w : XferWork) (i a b : Nat) : XFault :=
  let x := pageEnt a
  let y := pageEnt b
  if !x.valid || x.reserved || !y.valid || y.reserved || y.shared then some (rMalformed, 0xFFFF)
  else
    let px := entryPlace s inst w.srcDev.toNat x
    let py := entryPlace s inst w.dstDev.toNat y
    let dev : XPlace → Nat := fun p => match p with
      | .peer d _ => d
      | .own _ => 0xFFFF
    let digOk (p : XPlace) : Bool := match p with
      | .own q => inInst s inst q (digBytes w)
      | .peer _ _ => true
    match entryReach s inst x px, entryReach s inst y py with
    | some r, _ => some (r, dev px)
    | none, some r => some (r, dev py)
    | none, none => if w.dig && !(digOk (srcDigPlace s w i) && digOk (dstDigPlace s w i)) then some (rUnitAccess, 0xFFFF) else none

/-- The walk of the page lists (R276 step 3): entries on this device at once, those of a peer by READs, each
checked as it comes. -/
def walkPages (e : Nat) : Nat → State → State
  | 0, s => s
  | fuel + 1, s =>
    match xferOf s e with
    | none => s
    | some w =>
      let inst := (getOp s e).inst
      let i := w.walked
      if w.len ≤ i then raiseXfer s e
      else match walkEnt s inst w (srcHolder s w) (srcEntAddr w i), walkEnt s inst w w.dstDev.toNat (dstEntAddr w i) with
        | .bad r, _ => endXfer s e r 0xFFFF
        | _, .bad r => endXfer s e r 0xFFFF
        | .ask d a, _ => if w.asked then s else sendReads e inst d 1 a 8 (putXfer s e { w with asked := true })
        | _, .ask d a => if w.asked then s else sendReads e inst d 1 a 8 (putXfer s e { w with asked := true })
        | .val a, .val b =>
          match pageFault s inst w i a b with
          | some (r, d) => endXfer s e r d
          | none => walkPages e fuel (putXfer s e { w with
              walked := i + 1, asked := false, got := []
              srcEnts := w.srcEnts ++ [BitVec.ofNat 64 a], dstEnts := w.dstEnts ++ [BitVec.ofNat 64 b] })

/-- The rounds of a walk that can follow one another at once. -/
def walkFuel (s : State) (e : Nat) : Nat :=
  match xferOf s e with
  | some w => w.len - w.walked + 1
  | none => 0

/-- A transfer starts (R226, R241, R276). -/
def startXfer (s : State) (e : Nat) : State :=
  let o := getOp s e
  let l := opBody s e
  let w := xferWork l o.kind.toNat
  if !xferFieldsOk s l w then failStart s e rMalformed 0xFFFF
  else
    let (f, w) : XFault × XferWork := match w.kind with
      | .copy => (copyFault s o.inst w, { w with total := w.len })
      | .gather => gatherStart s o.inst w (at_ l 0x50 8)
      | .pages => pagesStart s o.inst w
      | .fill => fillStart s o.inst w (at_ l 0x50 8) (at_ l 0x58 2)
    match f with
    | some (r, d) => failStart s e r d
    | none =>
      let s := startWork s e (.xfer w)
      if w.kind = .pages then walkPages e (w.len + 1) s else raiseXfer s e

/-! ## Bursts (R338, R339) -/

/-- What reading a burst gives: not there yet, a failure, or the bytes. -/
inductive BurstRead where
  | wait
  | fail (r : Byte)
  | ok (d : List Byte)
  deriving DecidableEq, Repr

/-- The source bytes of a burst, piece by piece; `host` holds what the host's completions brought. -/
def readPieces (s : State) (inst : Inst) (w : XferWork) : List (XPlace × Nat) → List Byte → BurstRead
  | [], host => if host.isEmpty then .ok [] else .wait
  | (.own a, n) :: r, host =>
    if !inInst s inst a n then .fail rUnitAccess
    else if isHost a then
      if host.length < n then .wait
      else match readPieces s inst w r (host.drop n) with
        | .ok d => .ok (host.take n ++ d)
        | x => x
    else if rangeBad s a n then .fail (if w.kind = .pages then rKvLost else rMemErr)
    else match readPieces s inst w r host with
      | .ok d => .ok (rdBytes s a n ++ d)
      | x => x
  | (.peer d a, n) :: r, host =>
    match gotBytes w.got d (n / 1024 + 1) a n with
    | none => .wait
    | some b => match readPieces s inst w r host with
      | .ok d => .ok (b ++ d)
      | x => x

/-- The source of a burst with what the host brought to the request in progress: an error completion fails it (R241,
R276). -/
def readBurst (s : State) (e : Nat) (inst : Inst) (w : XferWork) (ps : List (XPlace × Nat)) (d : BurstIn) : BurstRead :=
  if usesHost ps then
    if (hostReadOf s e 0).isNone then .wait
    else match d with
      | .hostError => .fail rHostErr
      | .data l => readPieces s inst w ps l
  else readPieces s inst w ps []

/-- The host's request of a burst has been answered: its tag is free again (R341). -/
def hostAnswered (s : State) (e : Nat) : State :=
  match hostReadOf s e 0 with
  | some tag => freeReq s tag
  | none => s

/-- Bytes written at a place: handed to a memory controller or the host interface, or sent to a peer. -/
def writeBurst (s : State) (e : Nat) (inst : Inst) (p : XPlace) (off : Nat) (l : List Byte) : State :=
  match p with
  | .own a => wrBytes s inst a l
  | .peer d a => writePeer e inst d (l.length / 1024 + 1) a off l s

/-- Element `i` of packed elements of a format (R30). -/
def packedElem (fmt : Nat) (l : List Byte) (i : Nat) : Nat := bits (ofBytes ((l.drop (i * fmtBits fmt / 8)).take 5)) (i * fmtBits fmt % 8) (fmtBits fmt)

/-- The rows of 512 elements of a vector as FP32. -/
def fillRows (w : XferWork) (l : List Byte) : List (List Fv) :=
  (upFrom 0 (w.len / 512)).map fun n => (upFrom 0 512).map fun c => toF32 w.fmt (packedElem w.fmt l (n * 512 + c))

/-- The rows before quantise: `a`, or silu(a) × b with GATED (R233, R241). -/
def gateRows (w : XferWork) (a b : List Byte) : List (List Fv) :=
  if w.gated then ((fillRows w a).zip (fillRows w b)).map fun (x, y) => (x.zip y).map fun (p, q) => (silu p).mul q
  else fillRows w a

/-- A vector of a FILL goes to its positions (R241). -/
def fillVector (s : State) (e v : Nat) (w : XferWork) (l : List Byte) : State :=
  let a := l.take (fillBytes w)
  let (codes, sc, fl) : List (List Byte) × W32 × BitVec 4 :=
    if w.static then
      ((upFrom 0 (w.len / 512)).map (fun n => (a.drop (n * 512)).take 512), BitVec.ofNat 32 (rdNat s (w.scale.toNat + 4 * v) 4), 0)
    else
      let rows := gateRows w a (l.drop (fillBytes w))
      let q := quantise (rows.map fvVals) w.rms w.eps
      (q.1, q.2.2.1, rows.foldl (fun f r => f ||| fvFlags r) q.2.2.2)
  let s := opFlags s e fl
  { s with op.posQueue := s.op.posQueue ++ posWrites e v w.posItems (fun n => nth [] codes n) sc }

/-- A burst of a FILL has been read; the last of a vector makes its position writes. -/
def fillBurst (s : State) (e : Nat) (w : XferWork) (n : Nat) (l : List Byte) : State :=
  let v := w.rd / max 1 (fillRead w)
  let got := tabPut w.got w.rd l
  if (w.rd + n) % max 1 (fillRead w) = 0 then
    let s := putXfer s e { w with rd := w.rd + n, got := [], asked := false }
    fillVector s e v w (got.flatMap Prod.snd)
  else putXfer s e { w with rd := w.rd + n, got := got, asked := false }

/-- The destination entry of page `i` as it is written (R276 step 2). -/
def newEntry (w : XferWork) (i : Nat) : Nat :=
  setBits (nth 0 w.dstEnts i).toNat 50 1 (if w.dig then b2n (bit (nth 0 w.srcEnts i).toNat 50) else 0)

/-- The digest of a page, and then its entry, follow the page once it is visible (R276 step 2); none while nothing lands.
(DESIGN CHOICE, log entry 67) -/
def closePage (s : State) (e : Nat) (w : XferWork) (d : BurstIn) : Option State :=
  let inst := (getOp s e).inst
  if w.prog < w.rd ∨ (unackedOf s e).any (fun c => c.frame.typ == 0x01) = true then none
  else if w.dig && !w.digDone then
    match readBurst s e inst w [(srcDigPlace s w w.ents, digBytes w)] d with
    | .wait => none
    | .fail r => some (endXfer (hostAnswered s e) e r 0xFFFF)
    | .ok l => some <| bumpFree (writeBurst (putXfer (hostAnswered s e) e { w with digDone := true, got := [], asked := false }) e inst (dstDigPlace s w w.ents) w.rd l)
  else
    let s := putXfer s e { w with ents := w.ents + 1, digDone := false, asked := false }
    some <| writeBurst s e inst (placeAt s w.dstDev.toNat (dstEntAddr w w.ents)) w.rd (toBytes (newEntry w w.ents) 8)

/-- One burst of data lands (R338, R339); none while its source is not there. -/
def landBurst (s : State) (e : Nat) (w : XferWork) (d : BurstIn) : Option State :=
  let inst := (getOp s e).inst
  let n := burstLen w
  if n = 0 ∨ xferEnd w < w.rd + n ∨ (w.kind ≠ .fill ∧ w.prog + 0x40000 < w.rd + n) then none
  else match readBurst s e inst w (srcPieces s inst w w.rd n) d with
    | .wait => none
    | .fail r => some (endXfer (hostAnswered s e) e r 0xFFFF)
    | .ok l => some <|
      let s := bumpFree (hostAnswered s e)
      if w.kind = .fill then fillBurst s e w n l
      else
        let p := dstPlace s inst w w.rd
        let reach : Bool := match p with
          | .own a => inInst s inst a n
          | .peer _ _ => true
        if !reach then endXfer s e rUnitAccess 0xFFFF
        else writeBurst (putXfer s e { w with rd := w.rd + n, got := [], asked := false }) e inst p w.rd l

/-- BURST_DONE (R338, R339, R346): a burst that has landed is a boundary at which its engine may be granted anew. -/
def execBurstDone (x : Fin 32) (d : BurstIn) (s : State) : Out :=
  match (getXfer s x).op with
  | none => .next s
  | some e =>
    match xferOf s e with
    | none => .next s
    | some w =>
      match if pageClosing w then closePage s e w d else landBurst s e w d with
      | none => .next (askNext (xferAdvance s e) e)
      | some s => .next (askNext (preemptXfer (xferAdvance s e) x) e)

/-! ## Data from peers (R310) -/

/-- READ_DATA for a transfer: an entry of a walk, or a part of the next burst. -/
def xferData (s : State) (e d a : Nat) (l : List Byte) : State :=
  match xferOf s e with
  | none => s
  | some w =>
    let s := putXfer s e { w with got := tabPut w.got (gotKey d a) l }
    if w.kind = .pages ∧ w.walked < w.len then walkPages e (walkFuel s e) s else s

/-- A read of host memory fails, by an error completion or a timeout (R241, R272, R276). -/
def readerFailed (s : State) (x : HostReader) : State :=
  match (getOp s x.op).work with
  | .xfer _ => endXfer s x.op rHostErr 0xFFFF
  | _ => rowLost s x.op x.row rHostErr

/-! ## Stops (R340) -/

/-- A byte of a peer's memory, for granules in doubt. -/
def pieceByte (s : State) (p : XPlace) (k : Nat) : Byte :=
  match p with
  | .own a => rdByte s (a + k)
  | .peer d a => Config.hostByte s.free (2 ^ 80 + d * 2 ^ 64 + a + k)

/-- The source byte at an offset of a COPY, GATHER or PAGES. -/
def sourceByte (s : State) (inst : Inst) (w : XferWork) (o : Nat) : Byte :=
  match srcPieces s inst w o 1 with
  | (p, _) :: _ => pieceByte s p 0
  | [] => 0

/-- The bytes of a write TLP from offset `o` of a transfer on, whose destination is host address `a` (R350): up to the next
multiple of 512. (DESIGN CHOICE, log entry 67) -/
def tlpBytes (s : State) (inst : Inst) (w : XferWork) (o a : Nat) : List Byte :=
  (upFrom o (min (512 - a % 512) (w.total - o))).map (sourceByte s inst w)

/-- What offset `o` of the bytes in doubt, which begin at `p`, leaves: a byte of a stacked granule that took the new data,
or the write TLP of host memory that begins there and was sent. -/
def doubtAt (s : State) (inst : Inst) (w : XferWork) (p : Nat) (t : State) (o : Nat) : State :=
  match dstPlace s inst w o with
  | .own a =>
    if !inInst s inst a 1 then t
    else if isHost a then
      if (o == p || a % 512 == 0) && Config.granuleNew s.free (2 ^ 60 + a / 512) then wrBytes t inst a (tlpBytes s inst w o a) else t
    else if Config.granuleNew s.free (a / 64) then wrBytes t inst a [sourceByte s inst w o]
    else t
  | .peer _ _ => t

/-- The bytes in doubt of a transfer that stops in the middle of a burst (R340 item 2): from PROG on, each aligned granule
of 64 bytes of this device's memory holds wholly old or wholly new data, and each write TLP to the host is sent whole or
not at all. -/
def doubt (s : State) (e : Nat) : State :=
  match xferOf s e with
  | some w =>
    if w.kind = .fill ∨ (w.kind = .pages ∧ w.srcEnts.length < w.len) then s
    else
      let inst := (getOp s e).inst
      let p := xferProg s e w
      bumpFree ((upFrom p (min 0x40000 (w.total - p))).foldl (doubtAt s inst w p) s)
  | none => s

/-- A transfer is stopped, whatever it was doing (R340): bytes in doubt, the engine's next generation, and its
result. -/
def stopXfer (s : State) (e : Nat) (r : Byte) (detail : Nat) : State :=
  match xferOf s e with
  | some w =>
    match w.engine with
    | some x =>
      let s := doubt s e
      let k := getXfer s x
      endXfer (setXfer s x { k with gen := k.gen + 1 }) e r detail
    | none => endXfer s e r detail
  | none => s

/-- A transfer resumes from PROG on another engine of its station, or ends with MEM_ERR (R340). Its reads in flight
are abandoned; what a FILL has handed to its positions stays handed over. -/
def moveXfer (station : Nat) (s : State) (e : Nat) : State :=
  match xferOf s e with
  | some w =>
    match leastXfer s (stationXfers station) with
    | none => endXfer s e rMemErr 0xFFFF
    | some x =>
      let back := if w.kind = .fill then w.rd / max 1 (fillRead w) * fillRead w else xferProg s e w
      grantXfer (putXfer (dropReads s e) e { w with asg := some x, raisedAt := s.now, engine := none, rd := back, got := [], asked := false, digDone := false }) x
  | none => s

/-- A transfer engine is fenced (R340, R389): its operations move. -/
def fenceXfer (s : State) (x : Nat) : State :=
  let k := getXfer s x
  let es := (assignedTo s x).map Prod.fst
  let s := match k.op with
    | some e => doubt s e
    | none => s
  let s := setXfer s x { k with op := none, fenced := true, reserved := false, gen := k.gen + 1 }
  es.foldl (moveXfer (x / 4)) s

end Sys2Proof.Machine
end

