-- ==== Sys2Proof/Machine/Coll.lean ====
section
/-! DEFINITION. Collectives (R244, R245, R323 to R326): group records, the four engines, pulls and folds, barriers, and
the loss of a member. -/

namespace Sys2Proof.Machine

open Sys2Proof

/-! ## Groups (R323) -/

/-- A group record with its member list. -/
structure GroupRec where
  members : List W16
  rank : Nat
  coord : Nat
  crc : W32
  deriving DecidableEq, Repr

/-- The record of group `g` of an instance, if it is valid and lists this device at MY_RANK. -/
def groupRec (s : State) (inst : Inst) (g : Nat) : Option GroupRec :=
  let a := (regAct s (.inst inst) 0x090).toNat + g * 64
  if g = 0 ∨ (regAct s (.inst inst) 0x098).toNat ≤ g ∨ inInstStacked s inst a 64 = false ∨ rangeBad s a 64 = true then none
  else
    let l := rdBytes s a 64
    let n := at_ l 2 2
    let lst := at_ l 0x10 8
    if at_ l 0 2 ≠ g ∨ n = 0 ∨ 16384 < n ∨ n ≤ at_ l 4 2 ∨ n ≤ at_ l 6 2 ∨ at_ l 0xC 4 ≠ 0 ∨ at_ l 0x18 40 ≠ 0 ∨
        inInstStacked s inst lst (2 * n) = false ∨ rangeBad s lst (2 * n) = true then none
    else
      let ms := (upFrom 0 n).map fun i => (BitVec.ofNat 16 (rdNat s (lst + 2 * i) 2) : W16)
      if (nth 0xFFFF ms (at_ l 4 2)).toNat = ownDev s then some ⟨ms, at_ l 4 2, at_ l 6 2, BitVec.ofNat 32 (at_ l 8 4)⟩ else none

/-! ## Shape of a collective (R244, R324) -/

def collOf (s : State) (e : Nat) : Option CollWork :=
  match (getOp s e).work with
  | .coll w => if (getOp s e).result.isNone then some w else none
  | _ => none

def putColl (s : State) (e : Nat) (w : CollWork) : State := setOp s e { getOp s e with work := .coll w }

/-- The bytes of an element (R29, R244). -/
def collEs (w : CollWork) : Nat := fmtBits w.fmt / 8

def collN (w : CollWork) : Nat := w.members.length

/-- The elements of block `r` of the data that a kind divides: where it begins, and how many. COLL.AR divides COUNT
evenly among the ranks. (DESIGN CHOICE, log entry 68) -/
def collBlock (w : CollWork) (r : Nat) : Nat × Nat :=
  match w.kind with
  | .ar => (r * w.count / collN w, (r + 1) * w.count / collN w - r * w.count / collN w)
  | .rs => (r * w.count, w.count)
  | .a2a => (r * w.count, w.count)
  | .bar => (0, 0)
  | _ => (0, w.count)

/-- Whether the phase folds what it pulls. -/
def collFolds (w : CollWork) : Bool := (w.kind == .ar && w.phase == 0) || w.kind == .rs

/-- Chunks of at most 1,024 bytes in the longest block. -/
def collChunks (w : CollWork) : Nat :=
  let n := if w.kind = .ar then (w.count + collN w - 1) / collN w else (collBlock w 0).2
  (n * collEs w + 1023) / 1024

/-- A pull: the rank it goes to, the block, and the bytes of the block that it asks for. -/
structure PullSpec where
  rank : Nat
  block : Nat
  off : Nat
  len : Nat
  deriving DecidableEq, Repr

/-- The `j`-th other rank. -/
def otherRank (w : CollWork) (j : Nat) : Nat := if j < w.rank then j else j + 1

/-- The pulls of the phase, those that ask for nothing among them. (DESIGN CHOICE, log entry 68) -/
def collPulls (w : CollWork) : Nat :=
  match w.kind with
  | .bar => 0
  | .bc => if w.rank = w.root then 0 else collChunks w
  | _ => (collN w - 1) * collChunks w

/-- Pull `i` of the phase (R324). -/
def pullAt (w : CollWork) (i : Nat) : PullSpec :=
  let nc := collChunks w
  let spec (q b c : Nat) : PullSpec := ⟨q, b, c * 1024, min 1024 ((collBlock w b).2 * collEs w - c * 1024)⟩
  if collFolds w then spec (otherRank w (i % (collN w - 1))) w.rank (i / (collN w - 1))
  else match w.kind with
    | .bc => spec w.root 0 i
    | .a2a => spec (otherRank w (i / nc)) w.rank (i % nc)
    | _ => spec (otherRank w (i / nc)) (otherRank w (i / nc)) (i % nc)

/-- Where the bytes that a pull asks of this member lie, for a pull of phase `phase` (R324). -/
def serveAddr (w : CollWork) (phase block off : Nat) : Nat :=
  if phase = 1 then w.dst.toNat + (collBlock w block).1 * collEs w + off
  else match w.kind with
    | .ag => w.src.toNat + off
    | .bc => w.src.toNat + off
    | _ => w.src.toNat + (collBlock w block).1 * collEs w + off

/-- Where pulled or folded bytes go. -/
def landAddr (w : CollWork) (rank off : Nat) : Nat :=
  match w.kind with
  | .ar => w.dst.toNat + (collBlock w (if w.phase = 0 then w.rank else rank)).1 * collEs w + off
  | .ag => w.dst.toNat + rank * w.count * collEs w + off
  | .a2a => w.dst.toNat + rank * w.count * collEs w + off
  | _ => w.dst.toNat + off

/-- The pulls that ask for something among those that rank `q` makes of this member in a phase. (DESIGN CHOICE, log entry 68) -/
def chunksOf (w : CollWork) (b : Nat) : Nat := ((collBlock w b).2 * collEs w + 1023) / 1024

/-- How many pulls the other members make of this one. A member stays in its collective until it has answered them. -/
def collServes (w : CollWork) : Nat :=
  let others := (upFrom 0 (collN w)).filter fun q => q != w.rank
  let own := (others.map (chunksOf w)).foldl (· + ·) 0
  match w.kind with
  | .ar => own + (collN w - 1) * chunksOf w w.rank
  | .rs => own
  | .a2a => own
  | .ag => (collN w - 1) * chunksOf w 0
  | .bc => if w.rank = w.root then (collN w - 1) * chunksOf w 0 else 0
  | .bar => 0

/-! ## Messages -/

/-- The payload of COLL_PULL, and of COLL_CTRL with its kind (R310). (DESIGN CHOICE, log entry 61) -/
def collPayload (w : CollWork) (kind block phase missing : Nat) : List Byte :=
  toBytes w.group.toNat 2 ++ toBytes w.cseq.toNat 4 ++ toBytes w.rank 2 ++ toBytes block 2 ++ toBytes phase 1 ++
    toBytes kind 1 ++ toBytes w.listCrc.toNat 4 ++ toBytes missing 2

def memberDev (w : CollWork) (r : Nat) : Nat := (nth 0xFFFF w.members r).toNat

/-- A COLL_CTRL frame to a rank: 0 ARRIVE, 1 RELEASE, 2 ABORT. (DESIGN CHOICE, log entry 64) -/
def sendCtrl (s : State) (op : Option Nat) (inst : Inst) (w : CollWork) (kind r missing : Nat) : State :=
  sendReliable s op inst cColl 0x12 (memberDev w r) 0 (collPayload w kind 0 0 missing)

/-! ## Engines -/

def getColl (s : State) (x : Nat) : CollEngine := tabGet {} s.op.collEngines x
def setColl (s : State) (x : Nat) (v : CollEngine) : State := { s with op.collEngines := tabPut s.op.collEngines x v }

/-- A collective engine that is in service and free. -/
def freeColl (s : State) : Option Nat := firstOf (fun x => (getColl s x).op.isNone && !(getColl s x).fenced) (upFrom 0 4)

/-! ## Folding (R245) -/

/-- An element of a member's chunk. -/
def chunkElem (w : CollWork) (l : List Byte) (i : Nat) : Nat := at_ l (i * collEs w) (collEs w)

/-- One element folded over the members' chunks in rank order. -/
def foldElem (w : CollWork) (ls : List (List Byte)) (i : Nat) : Nat × BitVec 4 :=
  if w.fmt = 7 then
    let xs := ls.map fun l => toSigned 32 (chunkElem w l i)
    let pick (a b : Int) : Int := if w.redop = 0 then a + b else if w.redop = 1 then max a b else min a b
    match xs with
    | [] => (0, 0)
    | x :: r => encodeNum 7 (ofInt (r.foldl pick x))
  else
    let xs := ls.map fun l => toF32 w.fmt (chunkElem w l i)
    let pick (a b : Fv) : Fv :=
      if w.redop = 0 then a.add b
      else if w.redop = 1 then ⟨f32max a.v b.v, a.f ||| b.f⟩ else ⟨f32min a.v b.v, a.f ||| b.f⟩
    match xs with
    | [] => (0, 0)
    | x :: r => let v := r.foldl pick x; let c := fromF32 w.fmt v.v; (c.1, v.f ||| c.2)

/-- The chunk `c` of this rank's block is folded and written. -/
def foldChunk (s : State) (e : Nat) (w : CollWork) (c : Nat) : State :=
  let n := min 1024 ((collBlock w w.rank).2 * collEs w - c * 1024)
  let own := rdBytes s (serveAddr w 0 w.rank (c * 1024)) n
  let ls := (upFrom 0 (collN w)).map fun q => if q = w.rank then own else tabGet [] w.got (c * 65536 + q)
  let res := (upFrom 0 (n / max 1 (collEs w))).map (foldElem w ls)
  let s := opFlags s e (res.foldl (fun f (_, g) => f ||| g) 0)
  let s := opCounts s e res.length 0
  bumpFree (wrBytes s (getOp s e).inst (landAddr w w.rank (c * 1024)) (elemBytes (collEs w) (res.map Prod.fst)))

/-! ## Ends -/

/-- Elements of input and output of this member (R244). -/
def collSizes (w : CollWork) : Nat × Nat :=
  match w.kind with
  | .ar => (w.count, w.count)
  | .rs => (w.count * collN w, w.count)
  | .ag => (w.count, w.count * collN w)
  | .a2a => (w.count * collN w, w.count * collN w)
  | .bc => (if w.rank = w.root then w.count else 0, w.count)
  | .bar => (0, 0)

/-- DST of a collective that ends with MEMBER_LOST is undefined (R326): each of its bytes in stacked memory is free. -/
def undefDst (s : State) (e : Nat) (w : CollWork) : State :=
  let n := (collSizes w).2 * collEs w
  if n = 0 || isHost w.dst.toNat then s
  else bumpFree (wrBytes s (getOp s e).inst w.dst.toNat ((upFrom 0 n).map (Config.undefByte s.free)))

/-- A collective ends: its engine goes to the next one, by `grantColl` below. -/
def endColl (s : State) (e : Nat) (r : Byte) (missing : Nat) : State :=
  match collOf s e with
  | some w =>
    let s := putColl s e { w with engine := none }
    let s := match w.engine with
      | some x => if (getColl s x).op = some e then setColl s x { getColl s x with op := none } else s
      | none => s
    let s := if r = rMemberLost then undefDst s e w else s
    let s := setOp s e { getOp s e with countB := (getOp s e).countB + missing }
    setResult s e r 0xFFFF
  | none => s

/-- The pulls of a collective that have not been answered. -/
def pullsOut (s : State) (e : Nat) : List TxCopy := (unackedOf s e).filter fun c => c.frame.typ == 0x10

/-- The members that a collective finds missing: those with a pull unanswered, those that have not arrived, or the
coordinator that has not released. -/
def missingOf (s : State) (e : Nat) (w : CollWork) : Nat :=
  let pulled := ((pullsOut s e).map fun c => c.dst).eraseDups.length
  if w.kind = .bar then (if w.rank = w.coord then collN w - w.arrived.length else 1) else pulled

/-- A member leaves its collective with a result: ABORT goes to every other member. -/
def leaveColl (s : State) (e : Nat) (r : Byte) (missing : Nat) : State :=
  match collOf s e with
  | some w =>
    let inst := (getOp s e).inst
    let s := { s with fab.unacked := s.fab.unacked.filter fun c => c.op != some e }
    let s := ((upFrom 0 (collN w)).filter fun q => q != w.rank).foldl (fun s q => sendCtrl s none inst w 2 q missing) s
    endColl s e r missing
  | none => s

/-- A member finds a loss (R326): ABORT to every member, and MEMBER_LOST here. (DESIGN CHOICE, log entry 68) -/
def memberLost (s : State) (e missing : Nat) : State := leaveColl s e rMemberLost missing

/-! ## Pulls -/

/-- Bytes of the staging area that are reserved (R324): for the pulls that are outstanding, and for the data that waits
for its turn. -/
def stagedBytes (s : State) : Nat :=
  ((s.fab.unacked.filter fun c => c.frame.typ == 0x10).map fun c => ofBytes (c.frame.payload.drop 18)).foldl (· + ·) 0 +
    (s.op.table.map fun (_, o) => match o.work with
      | .coll w => (w.got.map fun (_, l) => l.length).foldl (· + ·) 0
      | _ => 0).foldl (· + ·) 0

/-- The next pulls of the phase go out, while fewer than 16 are outstanding towards a member and 512 in all, each once
space for its data in the staging area of 64 MiB is reserved. -/
def sendPulls (e : Nat) : Nat → State → State
  | 0, s => s
  | fuel + 1, s =>
    match collOf s e with
    | none => s
    | some w =>
      if w.engine.isNone ∨ collPulls w ≤ w.nextPull then s
      else
        let p := pullAt w w.nextPull
        let out := pullsOut s e
        let d := memberDev w p.rank
        if p.len = 0 then sendPulls e fuel (putColl s e { w with nextPull := w.nextPull + 1 })
        else if 512 ≤ out.length ∨ 16 ≤ (out.filter fun c => c.dst.toNat == d).length ∨ 2 ^ 26 < stagedBytes s + p.len then s
        else
          let s := putColl s e { w with nextPull := w.nextPull + 1 }
          sendPulls e fuel (sendReliable s (some e) (getOp s e).inst cColl 0x10 d p.off
            (collPayload w 0 p.block w.phase 0 ++ toBytes p.len 2))

/-- A pull is answered (R324): COLL_DATA names the sequence number of the pull in its ADDR. (DESIGN CHOICE, log entry 61) -/
def servePull (s : State) (e : Nat) (w : CollWork) (m : CollMsg) (off : Nat) (q : W32) : State :=
  let len := min (min 1024 m.len) ((collBlock w m.block).2 * collEs w - off)
  let a := serveAddr w m.phase m.block off
  let inst := (getOp s e).inst
  if rangeBad s a len then endColl s e rMemErr 0
  else
    let s := putColl s e { w with served := w.served + 1 }
    bumpFree (sendReliable s (some e) inst cColl 0x11 (memberDev w m.rank) q.toNat (rdBytes s a len))

/-- Whether a pull can be answered now: the all-gather of COLL.AR needs this rank's block. -/
def canServe (w : CollWork) (m : CollMsg) : Bool := w.engine.isSome && m.phase ≤ w.phase

/-- The early messages of a collective. -/
def earlyFor (s : State) (inst : Inst) (w : CollWork) (x : EarlyColl) : Bool :=
  x.slice == instSlice s inst && x.msg.group == w.group && x.msg.seq == w.cseq

/-- A message that carries another member list fails the collective (R323). -/
def crcBad (w : CollWork) (m : CollMsg) : Bool := m.listCrc != w.listCrc

/-- A rank arrives at a barrier; the coordinator releases all once every rank has arrived (R324). -/
def arriveRank (s : State) (e r : Nat) : State :=
  match collOf s e with
  | some w =>
    let w := if w.arrived.contains r then w else { w with arrived := r :: w.arrived }
    let s := putColl s e w
    if w.arrived.length = collN w ∧ w.released = false then
      let s := putColl s e { w with released := true }
      ((upFrom 0 (collN w)).filter fun q => q != w.rank).foldl (fun s q => sendCtrl s (some e) (getOp s e).inst w 1 q 0) s
    else s
  | none => s

/-- The early messages that can be dealt with now are. -/
def takeEarly (s : State) (e : Nat) : State :=
  match collOf s e with
  | none => s
  | some w =>
    let inst := (getOp s e).inst
    let mine := s.op.earlyColl.filter fun x => earlyFor s inst w x && (x.kind != 0 || canServe w x.msg)
    let s := { s with op.earlyColl := s.op.earlyColl.filter fun x => !mine.contains x }
    mine.foldl
      (fun s x => match collOf s e with
        | none => s
        | some w =>
          if x.kind = 2 then endColl s e rMemberLost x.msg.missing
          else if crcBad w x.msg then endColl s e rMalformed 0
          else if x.kind = 1 then arriveRank s e x.msg.rank
          else servePull s e w x.msg x.addr x.seq) s

/-! ## Progress -/

/-- Whether the pulls of the phase have all been made and answered. -/
def phaseDone (s : State) (e : Nat) (w : CollWork) : Bool :=
  collPulls w ≤ w.nextPull && (pullsOut s e).isEmpty && w.got.isEmpty

/-- What a phase does without pulling: this rank's own block, and every fold of a group of one. -/
def ownPart (s : State) (e : Nat) : State :=
  match collOf s e with
  | none => s
  | some w =>
    let n := (collBlock w 0).2 * collEs w
    let copy (a b : Nat) : State := if rangeBad s a n then endColl s e rMemErr 0 else bumpFree (wrBytes s (getOp s e).inst b (rdBytes s a n))
    match w.kind with
    | .ag => copy w.src.toNat (landAddr w w.rank 0)
    | .a2a => copy (serveAddr w 0 w.rank 0) (landAddr w w.rank 0)
    | .bc => if w.rank = w.root then copy w.src.toNat w.dst.toNat else s
    | .bar => if w.rank = w.coord then arriveRank s e w.rank else sendCtrl s (some e) (getOp s e).inst w 0 w.coord 0
    | _ =>
      if collN w = 1 ∧ collFolds w = true then
        if rangeBad s w.src.toNat n then endColl s e rMemErr 0 else (upFrom 0 (collChunks w)).foldl (fun s c => foldChunk s e w c) s
      else s

/-- A collective goes on: the next phase, or its end once every pull of it and to it has been answered. -/
def collAdvance (s : State) (e : Nat) : State :=
  match collOf s e with
  | none => s
  | some w =>
    if w.engine.isNone then s
    else if w.kind = .bar then (if w.released ∧ (unackedOf s e).isEmpty = true then endColl s e rOk 0 else s)
    else if !phaseDone s e w then s
    else if w.kind = .ar ∧ w.phase = 0 then
      takeEarly (sendPulls e 1024 (putColl s e { w with phase := 1, nextPull := 0 })) e
    else if w.served = collServes w ∧ (unackedOf s e).isEmpty = true then endColl s e rOk 0
    else s

/-- `collAdvance` for the two phases that a collective may pass at once. -/
def collGoOn (s : State) (e : Nat) : State := collAdvance (collAdvance s e) e

/-- A collective that holds an engine begins its work. -/
def beginColl (s : State) (e : Nat) : State := collGoOn (takeEarly (sendPulls e 1024 (ownPart s e)) e) e

/-- The collectives that wait for an engine. -/
def waitingColls (s : State) : List (Nat × Op) :=
  s.op.table.filter fun (_, o) => o.result.isNone && match o.work with
    | .coll w => w.engine.isNone
    | _ => false

/-- Free engines go to waiting collectives in order of start (R324). -/
def grantColl : Nat → State → State
  | 0, s => s
  | fuel + 1, s =>
    match freeColl s, leastBy (fun a b : Nat × Op => a.2.startNo < b.2.startNo) (waitingColls s) with
    | some x, some (e, _) =>
      match collOf s e with
      | some w => grantColl fuel (beginColl (putColl (setColl s x { getColl s x with op := some e }) e { w with engine := some x }) e)
      | none => s
    | _, _ => s

/-- Once a collective has ended, its engine is free again and goes to the next. -/
def releaseColl (s : State) (e : Nat) : State :=
  if (collOf s e).isSome then s
  else
    let mine := (upFrom 0 4).filter fun x => (getColl s x).op == some e
    grantColl 4 (mine.foldl (fun s x => setColl s x { getColl s x with op := none }) s)

/-! ## Start (R244, R323) -/

def collKindOf (k : Nat) : CollKind :=
  match k with
  | 0xE0 => .ar | 0xE1 => .rs | 0xE2 => .ag | 0xE3 => .a2a | 0xE4 => .bc | _ => .bar

def collWork (l : List Byte) (k : Nat) : CollWork :=
  { kind := collKindOf k, src := BitVec.ofNat 64 (at_ l 0x28 8), dst := BitVec.ofNat 64 (at_ l 0x30 8), count := at_ l 0x38 8
    group := BitVec.ofNat 16 (at_ l 0x40 2), root := at_ l 0x42 2, fmt := at_ l 0x44 1 % 16, redop := at_ l 0x45 1 }

/-- Whether the fields of a descriptor keep R244. -/
def collFieldsOk (l : List Byte) (w : CollWork) : Bool :=
  let f := at_ l 0x44 1
  let reduces := w.kind == .ar || w.kind == .rs
  at_ l 0x46 58 == 0 && (f == 0x7 || f == 0xD || f == 0xE || f == 0xF || (w.kind == .bar && f == 0)) &&
    (if reduces then w.redop ≤ 2 else w.redop == 0) && (w.kind != .bar || w.count == 0)

/-- The failure of a collective at its start, if any. -/
def collFault (s : State) (inst : Inst) (l : List Byte) (w : CollWork) (g : Option GroupRec) : Option (Byte × Nat) :=
  if !collFieldsOk l w then some (rMalformed, 0xFFFF)
  else match g with
    | none => some (rMalformed, 0xFFFF)
    | some _ =>
      if w.kind = .bc ∧ collN w ≤ w.root then some (rMalformed, 0xFFFF)
      else
        let (i, o) := collSizes w
        if !inInst s inst w.src.toNat (i * collEs w) || !inInst s inst w.dst.toNat (o * collEs w) then some (rUnitAccess, 0xFFFF)
        else match firstOf (fun d : W16 => d.toNat != ownDev s && !reaches s (instSlice s inst) d.toNat) w.members with
          | some d => some (rPeerRefused, d.toNat)
          | none => if (upFrom 0 4).all fun x => (getColl s x).fenced then some (rFenced, 0xFFFF) else none

/-- A collective starts (R226, R244, R324); `reserved` is the engine that ARM reserved, with T. (DESIGN CHOICE, log entry 68) -/
def startColl (s : State) (e : Nat) (reserved : Option (Nat × Nat)) : State :=
  let o := getOp s e
  let l := opBody s e
  let w := collWork l o.kind.toNat
  let g := groupRec s o.inst w.group.toNat
  let w := match g with
    | some r => { w with members := r.members, rank := r.rank, coord := r.coord, listCrc := r.crc }
    | none => w
  match collFault s o.inst l w g with
  | some (r, d) => failStart s e r d
  | none =>
    let k := o.inst.val * 65536 + w.group.toNat
    let q := tabGet 0 s.op.collSeq k + 1
    let s := { s with op.collSeq := tabPut s.op.collSeq k q }
    let w := { w with cseq := q, startAt := s.now, timedAt := reserved.map Prod.snd }
    let s := startWork s e (.coll w)
    match reserved with
    | some (x, _) =>
      if (getColl s x).fenced then memberLost s e 0
      else beginColl (putColl (setColl s x { getColl s x with op := some e }) e { w with engine := some x }) e
    | none => grantColl 4 s

/-! ## What arrives -/

/-- The collective that a message belongs to. -/
def findColl (s : State) (slice : Nat) (m : CollMsg) : Option (Nat × CollWork) :=
  match firstOf (fun (e, o) => match collOf s e with
      | some w => w.group == m.group && w.cseq == m.seq && instSlice s o.inst == slice
      | none => false) s.op.table with
  | some (e, _) => (collOf s e).map fun w => (e, w)
  | none => none

/-- A message that came too early is kept, a pull while the table of early pulls has room (R324); arrivals and aborts
have tables of their own (R325). -/
def keepEarly (s : State) (x : EarlyColl) : State :=
  let full := x.kind == 0 && decide (65536 ≤ (s.op.earlyColl.filter fun y => y.kind == 0).length)
  if full || s.op.earlyColl.contains x then s else { s with op.earlyColl := s.op.earlyColl ++ [x] }

/-- Whether a collective of the group with that number has already been here. -/
def collOver (s : State) (slice : Nat) (m : CollMsg) : Bool :=
  (upFrom 0 32).any fun i => instSlice s i == slice && decide (m.seq.toNat ≤ (tabGet 0 s.op.collSeq (i * 65536 + m.group.toNat)).toNat)

/-- A pull arrives (R324). -/
def takePull (s : State) (x : EarlyColl) : State :=
  match findColl s x.slice x.msg with
  | some (e, w) =>
    if crcBad w x.msg then releaseColl (endColl s e rMalformed 0) e
    else if canServe w x.msg then releaseColl (collGoOn (servePull s e w x.msg x.addr x.seq) e) e else keepEarly s x
  | none => if collOver s x.slice x.msg then s else keepEarly s x

/-- The rank of a device in a group. -/
def rankOf (w : CollWork) (d : W16) : Nat := (w.members.takeWhile fun x => x != d).length

/-- Chunk `c` is folded once every rank's part of it is there. -/
def tryFold (s : State) (e c : Nat) : State :=
  match collOf s e with
  | none => s
  | some w =>
    if (upFrom 0 (collN w)).all fun q => q == w.rank || tabHas w.got (c * 65536 + q) then
      if rangeBad s (serveAddr w 0 w.rank (c * 1024)) (min 1024 ((collBlock w w.rank).2 * collEs w - c * 1024)) then endColl s e rMemErr 0
      else
        let s := foldChunk s e w c
        match collOf s e with
        | some w => putColl s e { w with got := w.got.filter fun (k, _) => k / 65536 != c }
        | none => s
    else s

/-- Every collective sends the pulls that the freed staging lets it send. -/
def sendAllPulls (s : State) : State :=
  (upFrom 0 4).foldl (fun s x => match (getColl s x).op with
    | some e => sendPulls e 1024 s
    | none => s) s

/-- The data of pull `q` of device `src` arrives (R324): it waits for its turn in the rank order, or goes to its
place. Data that no pull awaits is discarded. -/
def takeData (s : State) (src : W16) (q : Nat) (data : List Byte) : State :=
  let hit (c : TxCopy) : Bool := c.frame.typ == 0x10 && c.dst == src && c.frame.seq.toNat == q
  match firstOf hit s.fab.unacked with
  | none => s
  | some c =>
    let s := { s with fab.unacked := s.fab.unacked.filter fun c => !hit c }
    match c.op with
    | none => s
    | some e =>
      match collOf s e with
      | none => s
      | some w =>
        let off := c.frame.addr.toNat
        let s := if collFolds w then
            tryFold (putColl s e { w with got := tabPut w.got (off / 1024 * 65536 + rankOf w src) data }) e (off / 1024)
          else wrBytes s (getOp s e).inst (landAddr w (rankOf w src) off) data
        releaseColl (collGoOn (sendAllPulls s) e) e

/-- ARRIVE, RELEASE or ABORT arrives (R324, R326). -/
def takeArrive (s : State) (x : EarlyColl) : State :=
  match findColl s x.slice x.msg with
  | some (e, w) =>
    if crcBad w x.msg then releaseColl (endColl s e rMalformed 0) e
    else if w.engine.isNone then keepEarly s x else releaseColl (collGoOn (arriveRank s e x.msg.rank) e) e
  | none => if collOver s x.slice x.msg then s else keepEarly s x

def takeRelease (s : State) (slice : Nat) (m : CollMsg) : State :=
  match findColl s slice m with
  | some (e, w) => releaseColl (collGoOn (putColl s e { w with released := true }) e) e
  | none => s

def takeAbort (s : State) (x : EarlyColl) : State :=
  match findColl s x.slice x.msg with
  | some (e, _) =>
    let s := { s with fab.unacked := s.fab.unacked.filter fun c => c.op != some e }
    releaseColl (endColl s e rMemberLost x.msg.missing) e
  | none => if collOver s x.slice x.msg then s else keepEarly s x

/-- Whether a pull of a collective is unanswered (R326): one of this member's own, sent or still to be sent, or one that
another member is to make of it; a barrier waits for its release in the same way. (DEDUCED, log entry 68) -/
def pullUnanswered (s : State) (e : Nat) (w : CollWork) : Bool :=
  if w.kind = .bar then !w.released else !phaseDone s e w || (w.kind == .ar && w.phase == 0) || w.served != collServes w

/-- COLL_TIMEOUT (R326). -/
def execCollTimeout (e : OpIx) (s : State) : Out :=
  match collOf s e with
  | some w =>
    let late := match w.timedAt with
      | some t => decide (t + 50000 ≤ nsNow s)
      | none => decide (w.startAt + 2 ^ regFld s .fab 0x018 0 6 * 40 ≤ s.now)
    if late && pullUnanswered s e w then .next (releaseColl (memberLost s e (missingOf s e w)) e) else .next s
  | none => .next s

/-- A collective engine is fenced (R389): it loses the collective it held. -/
def fenceColl (s : State) (x : Nat) : State :=
  let k := getColl s x
  let s := setColl s x { k with fenced := true }
  match k.op with
  | some e => match collOf s e with
    | some w => setColl (memberLost s e (missingOf s e w)) x { op := none, fenced := true }
    | none => s
  | none => s

end Sys2Proof.Machine
end

