-- ==== Sys2Proof/Machine/Frames.lean ====
section
/-! DEFINITION. What arrives over the fabric (R309, R310, R312 to R318): the checks of a received frame, relaying,
acknowledgement, and the frames of operations and of time; retransmission and the loss of a destination. -/

namespace Sys2Proof.Machine

open Sys2Proof

/-! ## Checks (R309, R317, R318) -/

/-- Instances that hold a slice. (DESIGN CHOICE, log entry 63) -/
def sliceInsts (s : State) (slice : Nat) : List Nat := (upFrom 0 32).filter fun i => instSlice s i == slice

/-- A frame is discarded for its slice (R317): counted, with one record per source device in each epoch. (DESIGN CHOICE, log entry 63) -/
def dropSlice (s : State) (f : Frame) : State :=
  let s := { s with fab.sliceDrops := s.fab.sliceDrops + 1 }
  let src := f.src.toNat
  if tabGet 0 s.fab.dropEpoch src = epochNo s then s
  else
    let s := { s with fab.dropEpoch := tabPut s.fab.dropEpoch src (epochNo s) }
    emit s evFabric actNone none (unitOf 0 0) (toBytes src 2 ++ [3, 0] ++ toBytes 1 4 ++ toBytes 0 2 ++ toBytes f.slice.toNat 2)

/-- A frame for another device (R317, R318): it stands in its buffer until it leaves; what is discarded frees its buffer
at once (R312). -/
def relayFrame (s : State) (l : Link) (f : Frame) : State :=
  let sl := f.slice.toNat
  let e := routeOf s f.dst.toNat
  if !isPlane s l && !f.hop && reaches s sl f.src.toNat && reaches s sl f.dst.toNat && bit e 1 && !isPlane s (bits e 2 6) then
    offer s { link := none, frame := { f with hop := true, cred := 0, credPool := 0 }, num := f.seq.toNat, readyAt := s.now, buffered := some l }
  else dropSlice (returnCredit s l f) f

/-- CREDIT (R312): returned credits may release frames that wait; in CREDIT state they are the initial credits, and
the link is ACTIVE once those of every pool have come (R304). -/
def takeCredit (s : State) (l p n : Nat) : State :=
  let k := getLink s l
  let k := { k with credits := tabPut k.credits p (tabGet 0 k.credits p + n) }
  if k.st = .credit then
    let got := if k.gotPools.contains p then k.gotPools else p :: k.gotPools
    setLink s l (if got.length = 8 then { k with gotPools := got, st := .active, since := s.now, parkNoted := false } else { k with gotPools := got })
  else setLink s l k

/-- The credits that a received frame returns in CRED (R309, R312). -/
def takeCred (s : State) (l : Nat) (f : Frame) : State :=
  if isPlane s l || f.cred = 0 then s else retryWaiting (takeCredit s l f.credPool.toNat f.cred.toNat)

/-- A received frame of an operation: discarded, relayed, dropped for its slice, or taken by `k`. (DESIGN CHOICE, log entry 63) -/
def receive (s : State) (l : Link) (f : Frame) (k : State → State) : State :=
  if !linkActive s l then s
  else if !f.fcsOk || f.version != 1 || f.reservedSet then { s with fab.discards := s.fab.discards + 1 }
  else
    let s := takeCred s l f
    if f.dst.toNat ≠ ownDev s then relayFrame s l f
    else
      let s := returnCredit s l f
      if !reaches s f.slice.toNat f.src.toNat || (sliceInsts s f.slice.toNat).isEmpty then dropSlice s f
      else k s

/-! ## Acknowledgement (R313) -/

def getRx (s : State) (src : W16) (cls : BitVec 2) : RxWindow := tabGet {} s.fab.rx (src.toNat * 4 + cls.toNat)
def setRx (s : State) (src : W16) (cls : BitVec 2) (v : RxWindow) : State :=
  { s with fab.rx := tabPut s.fab.rx (src.toNat * 4 + cls.toNat) v }

/-- Where a sequence number stands. -/
inductive SeqPlace where
  | old | fresh | far
  deriving DecidableEq, Repr

def seqPlace (w : RxWindow) (n : W32) : SeqPlace :=
  let d := (n - w.highest).toNat
  if d = 0 ∨ 2 ^ 31 ≤ d then .old else if 256 < d then .far else if w.beyond.contains n then .old else .fresh

/-- The highest number delivered in order moves up over those marked beyond it. -/
def slideRx : Nat → RxWindow → RxWindow
  | 0, w => w
  | fuel + 1, w =>
    if w.beyond.contains (w.highest + 1) then slideRx fuel { highest := w.highest + 1, beyond := w.beyond.filter fun x => x != w.highest + 1 } else w

def markRx (w : RxWindow) (n : W32) : RxWindow := slideRx 257 { w with beyond := n :: w.beyond }

/-- An ACK frame of a class (R310): the cumulative number, and the window of 256 numbers beyond it; ADDR names the
class. (DESIGN CHOICE, log entry 60) -/
def sendAck (s : State) (f : Frame) : State :=
  let w := getRx s f.src f.cls
  let win := (upFrom 0 32).map fun b => (BitVec.ofNat 8 ((upFrom 0 8).foldl
    (fun acc i => acc + b2n (w.beyond.contains (w.highest + 1 + BitVec.ofNat 32 (8 * b + i))) * 2 ^ i) 0) : Byte)
  sendPlain s cRsp 0x08 f.src.toNat f.slice.toNat f.cls.toNat (toBytes w.highest.toNat 4 ++ win)

/-- A NAK frame (R310). -/
def sendNak (s : State) (f : Frame) (reason : Byte) : State :=
  sendPlain s cRsp 0x09 f.src.toNat f.slice.toNat f.cls.toNat (toBytes f.seq.toNat 4 ++ [reason])

/-- A reliable frame is refused (R313, R315): its number counts as delivered, and nothing is applied. -/
def refuse (s : State) (f : Frame) (reason : Byte) : State :=
  let w := getRx s f.src f.cls
  match seqPlace w f.seq with
  | .far => s
  | .old => sendNak s f reason
  | .fresh => sendNak (setRx s f.src f.cls (markRx w f.seq)) f reason

/-- A frame whose payload is not one of its type (R310) is discarded as one that R309 does not admit. 
(DESIGN CHOICE, log entry 61) -/
def malformed (s : State) : State := { s with fab.discards := s.fab.discards + 1 }

/-- A reliable frame (R313): applied once, and acknowledged; `again` answers a repeated one. -/
def reliably (s : State) (f : Frame) (apply again : State → State) : State :=
  let w := getRx s f.src f.cls
  match seqPlace w f.seq with
  | .far => s
  | .old => again (sendAck s f)
  | .fresh => sendAck (setRx (apply s) f.src f.cls (markRx w f.seq)) f

/-! ## WRITE, READ and ATOMIC (R310, R315) -/

/-- What an access from a peer reaches: an address for an instance, or the reason of a NAK. -/
inductive Reach where
  | at_ (inst : Inst) (a : Nat)
  | nak (r : Byte)
  deriving DecidableEq, Repr

/-- The ENABLED instances of a slice. (DESIGN CHOICE, log entry 63) -/
def openInsts (s : State) (slice : Nat) : List Nat := (sliceInsts s slice).filter fun i => (getInst s i).st == .enabled

/-- The end of an access of `n` bytes to ADDR (R255, R310, R315). (DESIGN CHOICE, log entry 62) -/
def reachOf (s : State) (slice addr n : Nat) : Reach :=
  if addr / 2 ^ 62 = 1 then
    let host := bit addr 61
    let o := addr % 2 ^ 61
    let fr := o / 0x8000
    let ok (i : Nat) : Bool := o % 0x8000 + n ≤ 0x8000 && if host then hostFrameOwned s (Fin.ofNat 32 i) fr else frameOwned s (Fin.ofNat 32 i) fr
    match firstOf ok (openInsts s slice) with
    | some i => .at_ (Fin.ofNat 32 i) (if host then (regAct s (.inst i) 0x080).toNat + o else o)
    | none => .nak (if (openInsts s slice).isEmpty then 1 else 2)
  else match firstOf (fun i => inInst s i addr n) (openInsts s slice) with
    | some i => .at_ (Fin.ofNat 32 i) addr
    | none => .nak 1

/-- WRITE (R310, R313). -/
def execWrite (l : Link) (f : Frame) (s : State) : Out :=
  .next (receive s l f fun s =>
    if f.payload.length = 0 then malformed s
    else match reachOf s f.slice.toNat f.addr.toNat f.payload.length with
      | .nak r => refuse s f r
      | .at_ i a => reliably s f (fun s => wrBytes s i a f.payload) fun s => s)

/-- The answer to a READ: its data under the same sequence number and address. Nothing is sent for bytes that cannot
be read. (DESIGN CHOICE, log entry 61) -/
def answerRead (s : State) (f : Frame) (a n : Nat) : State :=
  if rangeBad s a n then s
  else
    let d := mkFrame s cRsp 0x0A f.src.toNat f.slice.toNat f.seq f.addr.toNat (rdBytes s a n)
    bumpFree (sendFrame s d f.seq.toNat)

/-- READ (R310, R313): repeated, it is answered again. -/
def execRead (l : Link) (f : Frame) (s : State) : Out :=
  let n := ofBytes (f.payload.take 4)
  .next (receive s l f fun s =>
    if n = 0 ∨ 1024 < n then malformed s
    else match reachOf s f.slice.toNat f.addr.toNat n with
      | .nak r => refuse s f r
      | .at_ _ a => reliably s f (fun s => answerRead s f a n) (fun s => answerRead s f a n))

/-- The new word of an atomic (R208). -/
def atomicNew (aop : Nat) (old x cmp : W64) : W64 :=
  match aop with
  | 0 => old + x
  | 1 => x
  | 2 => if old = cmp then x else old
  | 3 => old &&& x
  | 4 => old ||| x
  | 5 => old ^^^ x
  | 6 => if x.slt old then x else old
  | 7 => if old.slt x then x else old
  | 8 => if x.ult old then x else old
  | 9 => if old.ult x then x else old
  | _ => old

/-- An atomic from a peer, and its answer. A word that cannot be read is not written (R208), and an add to it as a
counter fails its waiters (R335). (DESIGN CHOICE, log entry 61) -/
def applyAtomic (s : State) (f : Frame) (m : AtomicMsg) (a : Nat) : State :=
  if lineBad s a then (if m.aop = 0 then counterAdd s a m.operand else s)
  else
    let old := BitVec.ofNat 64 (rdNat s a 8)
    let new := atomicNew m.aop.toNat old m.operand m.compare
    let s := wrStacked s a (toBytes new.toNat 8)
    let s := if new = old then s else wakeCounter s a
    sendFrame s (mkFrame s cRsp 0x0B f.src.toNat f.slice.toNat f.seq f.addr.toNat (toBytes old.toNat 8)) f.seq.toNat

/-- ATOMIC (R310, R313): performed once; a word that is not aligned or not in stacked memory is refused as ACCESS. -/
def execAtomic (l : Link) (f : Frame) (m : AtomicMsg) (s : State) : Out :=
  .next (receive s l f fun s =>
    match reachOf s f.slice.toNat f.addr.toNat 8 with
    | .nak r => refuse s f r
    | .at_ _ a =>
      if a % 8 ≠ 0 ∨ isStacked a = false ∨ 9 < m.aop.toNat then refuse s f 1
      else reliably s f (fun s => applyAtomic s f m a) fun s => s)

/-! ## Answers (R310, R313, R315) -/

/-- An operation goes on after an answer of a peer. -/
def opGoesOn (s : State) (e : Nat) : State :=
  match (getOp s e).work with
  | .xfer _ => xferAdvance s e
  | .coll _ => releaseColl (collGoOn s e) e
  | _ => s

/-- An operation fails for a peer (R315, R326). -/
def opFailsFor (s : State) (e dst : Nat) (r : Byte) : State :=
  match (getOp s e).work with
  | .coll w =>
    if r = rPeerLost ∧ (getOp s e).result.isNone = true then releaseColl (memberLost (emitFabricOp s e dst rMemberLost) e (max 1 (missingOf s e w))) e
    else releaseColl (failPeer s e dst r) e
  | .xfer w =>
    if (getOp s e).result.isSome then s
    else
      let s := setOp s e { getOp s e with countA := xferProg s e w }
      releaseXfer (failPeer s e dst r) e
  | .attn _ => if r = rPeerLost then attnPeerLost (emitFabricOp s e dst r) e dst else failPeer s e dst r
  | _ => failPeer s e dst r

/-- Whether an ACK acknowledges a frame. -/
def ackNames (src : W16) (m : AckMsg) (c : TxCopy) : Bool :=
  c.dst == src && c.frame.cls == m.cls && !c.held &&
    (decide ((m.cumulative - c.frame.seq).toNat < 2 ^ 31) || m.window.contains c.frame.seq)

/-- Whether an ACK settles a frame. READs and pulls wait for their data instead. -/
def ackCovers (src : W16) (m : AckMsg) (c : TxCopy) : Bool :=
  ackNames src m c && c.frame.typ != 0x02 && c.frame.typ != 0x10

/-- ACK (R313, R314). -/
def execAck (l : Link) (f : Frame) (m : AckMsg) (s : State) : Out :=
  .next (receive s l f fun s =>
    let done := s.fab.unacked.filter (ackCovers f.src m)
    let note (c : TxCopy) : TxCopy := if ackNames f.src m c then { c with acked := true } else c
    let s := sendHeld { s with fab.unacked := (s.fab.unacked.filter fun c => !ackCovers f.src m c).map note }
    ((done.filterMap (·.op)).eraseDups).foldl opGoesOn s)

/-- NAK (R315): the operation of the frame fails with PEER_REFUSED. -/
def execNak (l : Link) (f : Frame) (m : NakMsg) (s : State) : Out :=
  .next (receive s l f fun s =>
    let hit (c : TxCopy) : Bool := c.dst == f.src && c.frame.cls == m.cls && c.frame.seq == m.seq
    match firstOf hit s.fab.unacked with
    | none => s
    | some c =>
      let s := { s with fab.unacked := s.fab.unacked.filter fun c => !hit c }
      match c.op with
      | some e => opFailsFor s e f.src.toNat rPeerRefused
      | none => s)

/-- The data of a READ reaches its operation: a transfer, or the staging buffer of an attention engine (R254). -/
def readArrived (s : State) (e d a : Nat) (l : List Byte) : State :=
  match (getOp s e).work with
  | .attn _ => attnData s e d a l
  | _ => xferData s e d a l

/-- READ_DATA (R310): the data of a READ; data received twice is discarded, and so is data whose tag carries an old
generation (R340). -/
def execReadData (l : Link) (f : Frame) (s : State) : Out :=
  .next (receive s l f fun s =>
    let hit (c : TxCopy) : Bool := c.dst == f.src && c.frame.typ == 0x02 && c.frame.seq == f.seq
    match firstOf hit s.fab.unacked with
    | none => s
    | some c =>
      let s := { s with fab.unacked := s.fab.unacked.filter fun c => !hit c }
      match c.op with
      | some e => if c.tag.all (tagLive s) then readArrived s e f.src.toNat c.frame.addr.toNat f.payload else s
      | none => s)

/-- ATOMIC_DATA (R310): the old value is not used, and the answer stands for the acknowledgement as well. -/
def execAtomicData (l : Link) (f : Frame) (s : State) : Out :=
  .next (receive s l f fun s =>
    let hit (c : TxCopy) : Bool := c.dst == f.src && c.frame.typ == 0x03 && c.frame.seq == f.seq
    match firstOf hit s.fab.unacked with
    | none => s
    | some c =>
      let s := { s with fab.unacked := s.fab.unacked.filter fun c => !hit c }
      match c.op with
      | some e => opGoesOn s e
      | none => s)

/-! ## Collectives (R324, R326) -/

/-- A collective message as it is kept when it comes early. -/
def earlyOf (kind : Nat) (f : Frame) (m : CollMsg) : EarlyColl := ⟨kind, f.src, f.slice.toNat, f.addr.toNat, f.seq, m⟩

/-- Whether an instance of the frame's slice may take part in collectives; a resetting one has its early pulls
cleared and takes no more (R367). -/
def collOpen (s : State) (f : Frame) : Bool := !(openInsts s f.slice.toNat).isEmpty

/-- COLL_PULL (R324): repeated while the collective runs, it is answered again without being counted. -/
def execCollPull (l : Link) (f : Frame) (m : CollMsg) (s : State) : Out :=
  let x := earlyOf 0 f m
  let again (s : State) : State :=
    match findColl s x.slice m with
    | some (e, w) => if canServe w m && !crcBad w m then
        (match collOf (servePull s e w m x.addr x.seq) e with
         | some w' => putColl (servePull s e w m x.addr x.seq) e { w' with served := w.served }
         | none => s)
      else takePull s x
    | none => takePull s x
  .next (receive s l f fun s => if collOpen s f then reliably s f (fun s => takePull s x) again else refuse s f 1)

/-- COLL_DATA (R324). -/
def execCollData (l : Link) (f : Frame) (s : State) : Out :=
  .next (receive s l f fun s =>
    if collOpen s f then reliably s f (fun s => takeData s f.src (f.addr.toNat % 2 ^ 32) f.payload) (fun s => s) else refuse s f 1)

/-- ARRIVE (R324). -/
def execArrive (l : Link) (f : Frame) (m : CollMsg) (s : State) : Out :=
  .next (receive s l f fun s => if collOpen s f then reliably s f (fun s => takeArrive s (earlyOf 1 f m)) (fun s => s) else refuse s f 1)

/-- RELEASE (R324). -/
def execRelease (l : Link) (f : Frame) (m : CollMsg) (s : State) : Out :=
  .next (receive s l f fun s => if collOpen s f then reliably s f (fun s => takeRelease s f.slice.toNat m) (fun s => s) else refuse s f 1)

/-- ABORT (R326). -/
def execAbort (l : Link) (f : Frame) (m : CollMsg) (s : State) : Out :=
  .next (receive s l f fun s => if collOpen s f then reliably s f (fun s => takeAbort s (earlyOf 2 f m)) (fun s => s) else refuse s f 1)

/-! ## Time (R149, R321) -/

/-- A received frame of a link itself, or of fabric time: it belongs to no instance, and no slice is checked. -/
def receiveLink (s : State) (l : Nat) (f : Frame) (k : State → State) : State :=
  if !linkActive s l then s
  else if !f.fcsOk || f.version != 1 || f.reservedSet then { s with fab.discards := s.fab.discards + 1 }
  else
    let s := takeCred s l f
    k (if f.cls = cTime ∧ (f.typ = 0x1C ∨ f.typ = 0x1D) then s else returnCredit s l f)

/-- The reference time of a TIME frame (R149), in 2^−8 ns. (DEDUCED, log entry 65) -/
def fabricTime (s : State) (l : Nat) (m : TimeMsg) : Int :=
  ((m.originNs.toNat * 65536 + m.originFrac.toNat : Nat) + m.correction.toInt + tabGet 0 s.time.belfry.linkDelay l) / 256

/-- A device locked to FABRIC relays a time message (R149). (DEDUCED, log entry 65) -/
def relayTime (s : State) (m : TimeMsg) : State :=
  (relayLinks s).foldl (fun s k => sendOnLink s k 0x18 (timePayload s m.gm m.seq (m.hops.toNat + 1))) s

/-- TIME (R147, R149, R321): on a plane link only a Sync message of PTP_DOMAIN is one. -/
def execTime (l : Link) (f : Frame) (m : TimeMsg) (s : State) : Out :=
  .next (receiveLink s l f fun s =>
    if l.val ≠ regFld s .belfry 0x01C 8 6 ∨ f.sync ≠ syncOn s l then s
    else
      let b := s.time.belfry
      let q := tabHas b.linkDelay l
      let s := trySelect (setBelfry s { b with
        hops := m.hops + 1, gm := m.gm
        fab := { b.fab with qualified := q, since := if q && !b.fab.qualified then s.now else b.fab.since, lastSeen := some s.now } })
      let s := if s.time.belfry.source = some .fabric then measure s (localTime s 0) (fabricTime s l m) else s
      if s.time.belfry.source = some .fabric ∧ s.time.belfry.state = .locked then relayTime s m else s)

/-- DELAY_REQ (R149): answered with the times of its arrival and of the answer. -/
def execDelayReq (l : Link) (f : Frame) (t1 : W64) (s : State) : Out :=
  .next (receiveLink s l f fun s => sendOnLink s l 0x1A (toBytes t1.toNat 8 ++ toBytes (timeFx s) 10 ++ toBytes (timeFx s) 10))

/-- DELAY_RESP (R149): half the round trip, in 2^−16 ns, is the link delay. -/
def execDelayResp (l : Link) (f : Frame) (roundTrip : W64) (s : State) : Out :=
  .next (receiveLink s l f fun s =>
    setBelfry s { s.time.belfry with linkDelay := tabPut s.time.belfry.linkDelay l (roundTrip.toNat / 2) })

/-! ## Flow control and retransmission (R312, R313) -/

/-- The destinations that wait for a path are looked at again. -/
def recheckPaths (s : State) : State := (s.fab.pathWait.map Prod.fst).foldl notePath s

def execCredit (l : Link) (pool : Fin 8) (credits : BitVec 12) (s : State) : Out :=
  if isPlane s l then .next s
  else if (getLink s l).st = .credit ∨ (getLink s l).st = .active then
    .next (retryWaiting (recheckPaths (takeCredit s l pool credits.toNat)))
  else .next s

/-- PFC_PAUSE (R312). -/
def execPfcPause (l : Link) (cls : Fin 4) (xoff : Bool) (s : State) : Out :=
  if isPlane s l && linkActive s l then
    let k := getLink s l
    let m := (1#4) <<< cls.val
    .next (retryWaiting (setLink s l { k with paused := if xoff then k.paused ||| m else k.paused &&& ~~~m }))
  else .next s

/-- A destination is lost for the operations that wait on it (R313, R315): one record for the destination, and one for
each operation. -/
def loseDest (s : State) (dst : Nat) (es : List Nat) : State :=
  let s := { s with fab.unacked := s.fab.unacked.filter fun c => !(c.dst.toNat == dst && match c.op with
    | some e => es.contains e
    | none => true) }
  let s := emit s evFabric actNone none (unitOf 0 0) (toBytes dst 2 ++ [2, 0])
  es.foldl (fun s e => opFailsFor s e dst rPeerLost) s

/-- A frame that the routing bank in force refuses when it is to be sent again (R319, R315): it is given up, and its
operation fails with PEER_REFUSED. -/
def refusedNow (s : State) (c : TxCopy) : State :=
  let s := { s with fab.unacked := s.fab.unacked.erase c }
  match c.op with
  | some e => opFailsFor s e c.dst.toNat rPeerRefused
  | none => s

/-- RETRANSMIT (R313) of the `i`-th frame that waits for its acknowledgement, by the same or another path. A READ or pull
that has been acknowledged is repeated for its data, which is no further try. (DEDUCED, log entry 61) -/
def execRetransmit (i : Nat) (s : State) : Out :=
  match s.fab.unacked.drop i with
  | [] => .next s
  | c :: _ =>
    if c.held ∨ tabHas s.fab.pathWait c.dst.toNat ∨ s.now < c.sentAt + regFld s .fab 0x014 0 16 * 40000 then .next s
    else if !reaches s c.frame.slice.toNat c.dst.toNat then .next (refusedNow s c)
    else if c.acked = false ∧ 8 ≤ c.tries then .next (loseDest s c.dst.toNat (match c.op with | some e => [e] | none => []))
    else
      let s := { s with
        fab.unacked := setNth s.fab.unacked i { c with tries := if c.acked then c.tries else c.tries + 1, sentAt := s.now }
        fab.tx := s.fab.tx.filter fun x => !(x.link.isNone && x.frame == c.frame) }
      .next (notePath (sendFrame s c.frame (c.frame.seq.toNat + c.tries + 1)) c.dst.toNat)

/-- PATH_WAIT_EXPIRY (R313): every operation with frames for the destination fails. -/
def execPathWaitExpiry (dst : W16) (s : State) : Out :=
  match tabGet none (s.fab.pathWait.map fun (k, v) => (k, some v)) dst.toNat with
  | none => .next s
  | some t =>
    if s.now < t then .next s
    else
      let s := { s with fab.pathWait := tabDel s.fab.pathWait dst.toNat }
      if (pathTo s dst.toNat 0).isSome then .next s
      else .next (loseDest s dst.toNat (((s.fab.unacked.filter fun c => c.dst == dst).filterMap (·.op)).eraseDups))

end Sys2Proof.Machine
end

