-- ==== Sys2Proof/Machine/LaunchTable.lean ====
section
/-! DEFINITION. The launch table (R163, R164): its entries, the LAUNCH frames (R310, R322), what a coordinator keeps
(R166, R167), and entries that end without a dispatch. -/

namespace Sys2Proof.Machine

open Sys2Proof

def getLaunch (s : State) (i : Nat) : Launch := tabGet {} s.time.launches i
def setLaunch (s : State) (i : Nat) (v : Launch) : State := { s with time.launches := tabPut s.time.launches i v }
def freeLaunch (s : State) (i : Nat) : State := { s with time.launches := tabDel s.time.launches i }

/-- The reasons for which a member is not armed (R163, R166, R323, R368). -/
def whyLate : Byte := 1
def whyFull : Byte := 2
def whyUnfit : Byte := 3
def whyDisarmed : Byte := 4
def whyReset : Byte := 5
def whyMalformed : Byte := 6
def whyNogo : Byte := 7
def whyNoVerdict : Byte := 8
def whyFenced : Byte := 9

/-! ## LAUNCH frames (R310, R322) -/

/-- Kinds of LAUNCH frames. -/
def kArmed : Nat := 0
def kNotArmed : Nat := 1
def kGo : Nat := 2
def kNogo : Nat := 3
def kNoVerdict : Nat := 4
def kOutcome : Nat := 5

/-- A LAUNCH frame to a device: one that the instance may not reach is not sent (R317), and the frames are spread over
the links (R322). (DESIGN CHOICE, log entry 64) -/
def sendLaunch (s : State) (inst : Inst) (dst kind : Nat) (m : LaunchMsg) : State :=
  if !reaches s (instSlice s inst) dst then s
  else sendPlain s cTime 0x1B dst (instSlice s inst) 0
    (toBytes m.tag.toNat 4 ++ toBytes m.group.toNat 2 ++ toBytes m.t.toNat 8 ++
      [BitVec.ofNat 8 kind, m.reason] ++ toBytes m.rank 2 ++ toBytes m.listCrc.toNat 4 ++
      toBytes m.outcome.toNat 1 ++ toBytes m.missing 2)

/-! ## The coordinator (R166, R167) -/

/-- The index of a group launch that a coordinator keeps. -/
def findGroup (s : State) (slice : Nat) (m : LaunchMsg) : Option Nat :=
  let n := (s.time.groups.takeWhile fun g => !(g.group == m.group && g.tag == m.tag && g.t == m.t && instSlice s g.inst == slice)).length
  if n < s.time.groups.length then some n else none

def setGroup (s : State) (n : Nat) (g : GroupLaunch) : State := { s with time.groups := setNth s.time.groups n g }

/-- The group launch of a message, which a coordinator begins with the first message of it. -/
def openGroup (s : State) (slice : Nat) (m : LaunchMsg) : State :=
  if (findGroup s slice m).isSome then s
  else
    let ok (i : Nat) : Bool := match groupRec s (Fin.ofNat 32 i) m.group.toNat with
      | some r => r.rank == r.coord
      | none => false
    match firstOf ok (openInsts s slice) with
    | none => s
    | some i => match groupRec s (Fin.ofNat 32 i) m.group.toNat with
      | some r => { s with time.groups := s.time.groups ++ [{ group := m.group, tag := m.tag, t := m.t, inst := Fin.ofNat 32 i, members := r.members, rank := r.rank }] }
      | none => s

/-- The coordinator hears from a member: ARMED, NOT_ARMED, or that it had no verdict. -/
def hearMember (s : State) (slice : Nat) (m : LaunchMsg) (f : GroupLaunch → GroupLaunch) : State :=
  let s := openGroup s slice m
  match findGroup s slice m with
  | some n => match s.time.groups.drop n with
    | g :: _ => setGroup s n (f g)
    | [] => s
  | none => s

def noteArmed (r : Nat) (g : GroupLaunch) : GroupLaunch := if g.armed.contains r then g else { g with armed := r :: g.armed }
def noteRefused (r : Nat) (why : Byte) (g : GroupLaunch) : GroupLaunch :=
  { g with refused := r :: g.refused, armed := g.armed.filter fun x => x != r, reason := why }
def noteMissing (r : Nat) (g : GroupLaunch) : GroupLaunch := if g.missing.contains r then g else { g with missing := r :: g.missing }

/-- A message from this member to its coordinator: sent, or heard at once where this device is the coordinator. -/
def tellCoord (s : State) (inst : Inst) (g : Nat) (kind : Nat) (tag : W32) (t : W64) (why : Byte) : State :=
  match groupRec s inst g with
  | none => s
  | some r =>
    let m : LaunchMsg := { tag := tag, group := BitVec.ofNat 16 g, t := t, reason := why, rank := r.rank, listCrc := r.crc, outcome := 0, missing := 0 }
    if r.rank = r.coord then
      hearMember s (instSlice s inst) m
        (if kind = kArmed then noteArmed r.rank else if kind = kNotArmed then noteRefused r.rank why else noteMissing r.rank)
    else sendLaunch s inst (nth 0xFFFF r.members r.coord).toNat kind m

/-! ## Ends of entries -/

/-- A collective engine that an entry reserved is free again. -/
def freeReserved (s : State) (l : Launch) : State :=
  match l.engine with
  | some x => grantColl 4 (if (getColl s x).op = some l.op then setColl s x { getColl s x with op := none } else s)
  | none => s

/-- The operation of a disarmed entry completes (R250): its status, its counter, and the entry is FREE. -/
def finishHeld (s : State) (i : Nat) : State :=
  let l := getLaunch s i
  match l.held with
  | none => freeLaunch s i
  | some o =>
    let o := { o with outcome := l.outcome }
    let s := emitOp s l.op o rDisarmed
    let s := if o.statusAddr = 0 then s else wrBytes s o.inst o.statusAddr.toNat (statusBytes o rDisarmed)
    let s := if o.doneCnt = 0 then s else counterAdd s o.doneCnt.toNat 1
    freeLaunch s i

/-- An entry becomes MISSED: its operation has a result, and completes at T or with the outcome (R164, R250). -/
def missEntry (s : State) (i : Nat) (why r : Byte) : State :=
  let l := getLaunch s i
  let s := freeReserved s l
  let s := setLaunch s i { l with st := .missed, reason := why, engine := none }
  if l.null_ then s else setResult s l.op r 0xFFFF

/-- An entry does not dispatch because the device fence came before T (R165). -/
def fenceEntry (s : State) (i : Nat) : State :=
  let l := getLaunch s i
  let s := missEntry s i whyFenced rFenced
  match l.group with
  | some g => tellCoord s l.inst g.toNat kNoVerdict l.tag l.t whyFenced
  | none => s

/-- The device fence is set: the entries whose T has not come do not dispatch (R165), even if it is lifted before T. -/
def fenceLaunches (s : State) : State :=
  let early := s.time.launches.filter fun (_, l) => (l.st == .armed || l.st == .committed) && decide (nsNow s < l.t.toNat)
  early.foldl (fun s (i, _) => fenceEntry s i) { s with flt.fenceNs := nsNow s }

end Sys2Proof.Machine
end

