-- ==== Sys2Proof/Machine/Fence.lean ====
section
/-! DEFINITION. Fences of tiles, Spires and the device, tile replacement, and escalation within recovery windows
(R19, R375, R389, R390, R392 to R394). -/

namespace Sys2Proof.Machine

open Sys2Proof

/-! ## Operations that end for a fence -/

/-- An operation that has started ends with a result, whatever it is. -/
def failOp (r : Byte) (detail : Nat) (s : State) (e : Nat) : State :=
  match (getOp s e).work with
  | .xfer _ => stopXfer s e r detail
  | .coll _ => if (getOp s e).result.isSome then s else grantColl 4 (leaveColl s e r 0)
  | _ => failPass s e r detail

/-- Whether the work of an operation names a logical tile. -/
def workNames (w : Work) (f : Nat → Bool) : Bool :=
  match w with
  | .pass w => w.items.any (fun x => f x.tile) || w.drain.posItems.any fun x => f x.tile
  | .ltn w => w.left.any f
  | .xfer w => w.posItems.any fun x => f x.tile
  | _ => false

/-- Operations that have started and not ended. -/
def runningOps (s : State) (f : Op → Bool) : List Nat :=
  (s.op.table.filter fun (_, o) => o.used && o.started && o.result.isNone && f o).map Prod.fst

/-- Every running operation that names a logical tile for which `f` holds fails with FENCED; position writes and
seeds to it are given up (R390 step 5, R392). -/
def failNaming (s : State) (f : Nat → Bool) : State :=
  let s := { s with
    op.posQueue := s.op.posQueue.filter fun w => !f w.tile
    op.seeds := s.op.seeds.filter fun m => !f m.tile }
  (runningOps s fun o => workNames o.work f).foldl
    (fun s e => failOp rFenced (match firstOf (fun n => f n && workNames (getOp s e).work (· == n)) (upFrom 0 1024) with
      | some n => n
      | none => 0xFFFF) s e) s

/-! ## Spires and the device (R392, R394) -/

/-- The tile of a tile or array unit, as Spire × 264 + physical tile (R385). -/
def unitPhys (u : UnitId) : Nat := bits u.num.toNat 25 2 * 264 + bits u.num.toNat 16 9

/-- The Spire in which a unit of Spire level or below lies. -/
def unitSpire (u : UnitId) : Option Nat :=
  match u.kind.toNat with
  | 1 => some (u.num.toNat % 4)
  | 2 | 3 => some (bits u.num.toNat 25 2)
  | 4 => some (u.num.toNat / 64 % 4)
  | _ => none

/-- The threads of a Spire that cannot stay there. -/
def spireThreads (s : State) (n : Nat) : List Nat :=
  (s.mbx.threads.filter fun (_, th) => live th && (match th.slot with
    | some k => k / 1024 == n
    | none => th.home.val == n)).map Prod.fst

/-- A Spire is fenced (R392): operations that name its tiles fail, and its threads move. -/
def fenceSpire (s : State) (n : Nat) (action : Byte) (cause src : Nat) : State :=
  if s.flt.spireFenced.getLsbD n then s
  else
    let s := emitFenced s (unitOf 1 n) action cause src
    let s := { s with
      flt.spireFenced := s.flt.spireFenced ||| BitVec.ofNat 4 (2 ^ n)
      flt.windows := s.flt.windows.filter fun w => unitSpire w.unit != some n }
    let s := failNaming s fun t => t / 256 == n
    (spireThreads s n).foldl (fun s t => if (getThr s t).slot.isSome then displace s t else rehome s t) s

/-- The device is fenced after a fault or an escalation (R375, R394): running operations fail with FENCED. (DEDUCED, log entry 43) -/
def fenceDevice (s : State) (action : Byte) (cause src : Nat) : State :=
  if bit s.flt.devFenceWhy 0 then s
  else
    let s := emitFenced s (unitOf 0 0) action cause src
    let s := { s with
      flt.devFence := true
      flt.devFenceWhy := s.flt.devFenceWhy ||| 1
      flt.windows := [] }
    let s := fenceLaunches s
    (runningOps s fun _ => true).foldl (failOp rFenced 0xFFFF) s

/-! ## Tile replacement (R390) -/

/-- The spare tile chosen for a tile: unmapped, open, in a field that is on; one of the same field if there is
one, then the lowest number. (DESIGN CHOICE, log entry 41) -/
def spareTile (s : State) (p : Nat) : Option Nat :=
  let n := p / 264
  let free := (upFrom (n * 264) 264).filter fun q =>
    (logTile s q).isNone && !(getTile s q).fenced && domUsable s (7 * n + q % 264 / 66)
  match firstOf (fun q => q / 66 == p / 66) free with
  | some q => some q
  | none => free.head?

/-- A tile without the work and the model it held: its arrays, array map, counters and fence stay (R17). -/
def emptyTile (t : Tile) (why : Nat) : Tile :=
  { fenced := true, fenceWhy := why, arrs := t.arrs, amap := t.amap, spills := t.spills, evicts := t.evicts
    boundary := t.boundary, nextB := t.nextB, exactCount := t.exactCount, lastResidue := t.lastResidue }

/-- The class 1 entries of a tile's current slots, LIVE in the lowest slots of an empty Lantern. -/
def loadClass1 (s : State) (old new : Tile) (n : Nat) : Tile :=
  match old.image with
  | none => new
  | some k =>
    (placedIn (getImage s k) n).foldl
      (fun t l => (imageOutliers s (getImage s ((curSlotOf old l).getD k)) n l).foldl (fun t (i, e) => ltnPlace t e i .live) t)
      new

/-- The scale bytes of a tile's current slots (R83). -/
def loadScales (s : State) (old : Tile) (n : Nat) : Tab Byte :=
  match old.image with
  | none => []
  | some k =>
    (placedIn (getImage s k) n).foldl
      (fun m l => (imageScales s (getImage s ((curSlotOf old l).getD k)) n l).foldl (fun m (x, b) => tabPut m (l * 2048 + x) b) m) []

/-- The variants of a replaced tile: PARTIAL and EVICTED ones stay EVICTED, RESIDENT ones become ABSENT. -/
def movedVariants (t : Tile) : Tab VarState :=
  (t.variants.filter fun (_, v) => v.res == 2 || v.res == 3).map fun (k, v) => (k, { v with res := 3 })

/-- A pass in flight of a replaced tile, completed by substitution. -/
def movedFlight (s : State) (n : Nat) (t : Tile) (f : Flight) : Flight :=
  let es := (f.sources.filter fun e => eClass e == 2) ++ (exactEntries s n t f.req f.slot).filter fun e => eClass e == 1
  { f with phys := none, entries := es, sources := es, sampled := false, due := [], trims := [], got := 0, ysum := [], fail := false, chk := false }

/-- The work of a replaced tile's exact unit and of its passes in flight, as the spare takes it over. (DESIGN CHOICE, log entry 41) -/
def movedExact (s : State) (n : Nat) (t : Tile) : List ExactReq :=
  let busy := t.exactBusy.toList.filter fun x => x.for_ != .recompute && x.home.isNone
  let again (x : ExactReq) : ExactReq := { x with for_ := if x.for_ = .passx then .passx else .rewrite, reserved := false, since := 0, segs := 0 }
  (busy ++ t.exactQ).map again ++
    t.flight.map fun f => { for_ := .rewrite, flight := movedFlight s n t f, prio := 0, age := s.now }

/-- A physical array for a logical array of a replacing tile: the one that its map names, or a free spare of the tile. -/
def assignArr (t : Tile) (l : Nat) : Tile :=
  if (getArr t (physArr t l)).st = .spare then t
  else match (spares t).head? with
    | some a => { t with pendMap := tabPut t.pendMap l a }
    | none => { t with substituted := l :: t.substituted }

/-- The writes that a replacing tile asks for, at priority 7 (R128, R390 step 4). -/
def replaceJobs (s : State) (t : Tile) (ls : List Nat) : List Job :=
  (ls.filter fun l => !t.substituted.contains l).map fun l =>
    { kind := .sparing, phys := tabGet (physArr t l) t.pendMap l, logical := some l, slot := curSlotOf t l, age := s.now }

/-- The spare tile with the model, the class 1 entries, the scales, the variant states and the work of the tile
that it replaces. (DESIGN CHOICE, log entry 41) -/
def movedTile (s : State) (n p q : Nat) : Tile :=
  let old := getTile s p
  let ls := match old.image with
    | some k => placedIn (getImage s k) n
    | none => []
  let t : Tile := { getTile s q with
    pendMap := [], substituted := [], rewrites := [], jobs := [], ltn := [], recs := []
    scales := loadScales s old n, image := old.image, curSlot := old.curSlot, loaded := old.loaded, locked := old.locked
    variants := movedVariants old
    positions := old.positions.map fun (k, x) => (k, { x with held := 0 })
    blocks := old.blocks, todo := old.todo, runs := old.runs, parked := old.parked, seeds := old.seeds
    exactQ := movedExact s n old
    replacing := old.loaded && !ls.isEmpty
    replacementOf := if ls.isEmpty then none else some p }
  let t := ls.foldl assignArr (loadClass1 s old t n)
  { t with jobs := replaceJobs s t ls }

/-- The tile map of R17 names another physical tile for a logical one. -/
def mapTile (s : State) (n q : Nat) : State := { s with tile.tmap := tabPut s.tile.tmap n (q % 264) }

/-- The passes in flight of a replaced tile count as substituted (R227). -/
def noteMoved (s : State) (fs : List Flight) : State := fs.foldl (fun s f => noteSubst s f.req.op) s

/-- A pass that a tile's exact unit computes for another tile goes back to that tile's queue. -/
def returnShared (s : State) (p : Nat) : State :=
  match (getTile s p).exactBusy with
  | some x => if x.home.isSome then rejoinQueue (setTile s p { getTile s p with exactBusy := none }) p { x with segs := 0 } else s
  | none => s

/-- A tile is fenced after a fault and replaced by a spare (R389, R390); the fence of a tile whose field is off becomes one
after a fault. (DESIGN CHOICE, log entry 41) -/
def fenceTile (s : State) (p : Nat) (action : Byte) (cause src : Nat) : State :=
  let s := returnShared s p
  let old := getTile s p
  if old.fenced && old.fenceWhy == 1 then s
  else
    let s := emitFenced s (unitTile p) action cause src
    if old.fenced then setTile s p { old with fenceWhy := 1 }
    else match logTile s p with
    | none => setTile s p (emptyTile old 1)
    | some n =>
      match spareTile s p with
      | none => failNaming (setTile s p (emptyTile old 1)) (· == n)
      | some q =>
        let t := movedTile s n p q
        let s := noteMoved (setTile (mapTile (setTile s p (emptyTile old 1)) n q) q t) old.flight
        let s := if t.replacementOf.isSome then openWindow s (unitTile p) (some (unitTile q))
          else emitRestored s (unitTile p) (unitTile q) actRestored
        kickExact s q

/-! ## Escalation (R394) -/

/-- Whether two physical tiles lie in one field. -/
def sameField (p q : Nat) : Bool := p / 66 == q / 66

/-- Whether a fault of a unit falls in the domain of a window: the unit itself, its spare, or a unit that its
recovery uses. A tile's recovery uses its spare's arrays and the exact units of the spare's field; that of a
transfer engine uses the engines of its station. (DESIGN CHOICE, log entry 40) -/
def inDomain (w : Window) (u : UnitId) : Bool :=
  w.unit == u || w.spare == some u ||
    match w.unit.kind.toNat, u.kind.toNat with
    | 3, 2 => unitPhys u == unitPhys w.unit
    | 2, 3 => unitPhys u == unitPhys w.unit || w.spare.any fun x => unitPhys x == unitPhys u
    | 2, 2 => w.spare.any fun x => sameField (unitPhys x) (unitPhys u)
    | 6, 6 => u.num.toNat / 4 == w.unit.num.toNat / 4
    | _, _ => false

/-- Whether a window is still open (R393): a link's ends when it is ACTIVE or PARKED. (DESIGN CHOICE, log entry 40) -/
def windowOpen (s : State) (w : Window) : Bool :=
  decide (s.now < w.until_) && (w.unit.kind != 7 ||
    ((getLink s w.unit.num.toNat).st != .active && (getLink s w.unit.num.toNat).st != .parked))

/-- The open window in whose domain a fault falls. (DESIGN CHOICE, log entry 40) -/
def windowHit (s : State) (u : UnitId) : Option Window := firstOf (fun w => windowOpen s w && inDomain w u) s.flt.windows

/-- A second fault of `u` escalates the first one's unit: an array to its tile, a tile or core to its Spire, a
Dome unit to the device. (DESIGN CHOICE, log entry 40) -/
def escalate (s : State) (w : Window) (u : UnitId) : State :=
  let s := closeWindow s w.unit
  match w.unit.kind.toNat with
  | 3 => fenceTile s (unitPhys w.unit) actEscalated 3 (unitWord u)
  | 2 | 4 => fenceSpire s ((unitSpire w.unit).getD 0) actEscalated 3 (unitWord u)
  | _ => fenceDevice s actEscalated 3 (unitWord u)

/-- An array goes to FENCED for a fault (R76, R389), within a window or not. (DESIGN CHOICE, log entry 41) -/
def arrayFault (s : State) (p a why : Nat) : State :=
  match windowHit s (unitArray p a) with
  | some w => escalate (moveArr s p a .fenced why actEscalated) w (unitArray p a)
  | none => fenceArr s p a why

end Sys2Proof.Machine
end

