-- ==== Sys2Proof/Machine/Program.lean ====
section
/-! DEFINITION. Programming of arrays: recompute results (R381, R382), grants of the program-verify engines
(R127, R128), writing, verifying, calibrating and draining (R57, R65, R66, R76, R77), and tiles that go to
ACTIVE (R129, R140). -/

namespace Sys2Proof.Machine

open Sys2Proof

/-! ## Recompute (R381, R382) -/

/-- The RECOMPUTE record of a mismatch (R382, R484). -/
def emitRecompute (s : State) (p : Nat) (f : Flight) : State :=
  let (a, b, m) := f.counts
  emit s evRecompute actNone (some f.req.inst) (unitArray p (f.phys.getD 0))
    (toBytes (f.req.op + f.req.seq.toNat * 2 ^ 12) 6 ++ toBytes (satN 16 a) 2 ++ toBytes (satN 16 b) 2 ++ toBytes (satN 16 m) 2)

/-- What a mismatch leads to: a record, a count, and deep recalibration unless the limit is reached (R382). -/
def mismatch (s : State) (p : Nat) (f : Flight) : State :=
  let a := f.phys.getD 0
  let (s, limit) := countFail (emitRecompute s p f) p a 2
  if limit then s else startRecal s p a 2

/-- A recompute whose slot can no longer be read fails the operation of its pass, if that still runs (R391). -/
def recomputeLost (s : State) (p : Nat) (q : PassReq) : State :=
  let o := getOp s q.op
  if o.used = true ∧ o.seq = q.seq ∧ o.inst = q.inst then failPass s q.op rMemErr ((logTile s p).getD 0xFFFF) else s

/-- RECOMPUTE_DONE (R381, R382, R137). -/
def execRecomputeDone (t : TileId) (s : State) : Out :=
  let p := t.spire.val * 264 + t.tile.val
  match (getTile s p).exactBusy with
  | none => .next s
  | some x =>
    if x.for_ ≠ .recompute ∨ exactOver s.now x = false then .next s
    else
      let f := x.flight
      let s := setTile s p (releasePosition { getTile s p with exactBusy := none } f.req.pos)
      let (i, n, _) := flightImage s p f
      let s := if !imageReadable s i n f.req.array then recomputeLost s p f.req
        else if f.mism then mismatch s p f else s
      let s := setTile s p (freeDue (getTile s p))
      .next (kickExact (collectSlots s) p)

/-! ## Tiles that go to ACTIVE (R129, R140) -/

/-- The physical array that a logical array is to have. -/
def pendPhys (t : Tile) (l : Nat) : Nat := tabGet (physArr t l) t.pendMap l

/-- Whether a logical array is ready to serve: calibrated, or left to digital substitution. -/
def arrayReady (t : Tile) (l : Nat) : Bool :=
  t.substituted.contains l || ((getArr t (pendPhys t l)).st == .calibrating && (getArr t (pendPhys t l)).calDone)

/-- One logical array of a tile goes to ACTIVE. -/
def activateArr (n p : Nat) (s : State) (l : Nat) : State :=
  let t := getTile s p
  let a := pendPhys t l
  let k := (curSlotOf t l).getD 0
  let i := getImage s k
  let t := { t with
    amap := tabPut t.amap l a
    scales := (imageScales s i n l).foldl (fun m (x, b) => tabPut m (l * 2048 + x) b) (t.scales.filter fun (x, _) => x / 2048 != l) }
  let s := setTile s p (liveEntries t l)
  if t.substituted.contains l then s else writeRecord (moveArr s p a .active 0 actNone) p n l (some k)

/-- A tile of an image goes to ACTIVE once every array it places is ready (R129, R140). (DEDUCED, log entry 50) -/
def tryActivate (s : State) (p : Nat) : State :=
  let t := getTile s p
  match t.image, logTile s p with
  | some k, some n =>
    let ls := placedIn (getImage s k) n
    if t.loaded && !t.replacing || !ls.all (arrayReady t) then s
    else
      let s := ls.foldl (activateArr n p) s
      let s := match t.replacementOf with
        | some old => closeWindow (emitRestored s (unitTile old) (unitTile p) actRestored) (unitTile old)
        | none => s
      let s := setTile s p { getTile s p with loaded := true, locked := false, pendMap := [], replacing := false, replacementOf := none }
      loadCheck (nextRewrites n p s)
  | _, _ => s

/-! ## Failure of a written array -/

/-- A logical array is left to digital substitution. -/
def substitute (t : Tile) (l : Nat) : Tile :=
  { t with substituted := if t.substituted.contains l then t.substituted else l :: t.substituted }

/-- A spare is programmed in place of an array of a load that went to FENCED (R129), at the priority of the load. (DESIGN
CHOICE, log entry 56) -/
def fullRetry (s : State) (p : Nat) (j : Job) (l : Nat) : State :=
  let t := getTile s p
  match (spares t).head? with
  | none => tryActivate (setTile s p (substitute t l)) p
  | some x =>
    addJob (setTile s p { t with pendMap := tabPut t.pendMap l x }) p { kind := j.kind, phys := x, logical := some l, slot := j.slot }

/-- The array of a job goes to FENCED, and its logical array is served otherwise (R129, R136); an array of a spare
tile that is replacing another is a second fault (R394). -/
def jobFailed (s : State) (p : Nat) (j : Job) (why : Nat) : State :=
  match j.logical with
  | none => moveArr s p j.phys .fenced why actFenced
  | some l =>
    match rewriteOf (getTile s p) l with
    | some r =>
      if r.kind = .sparing then
        let s := setTile s p (dropRewrite (dropStaged (getTile s p) l) l)
        spareOut (moveArr s p j.phys .fenced why actFenced) p l
      else newFailed ((logTile s p).getD 0) p s r why
    | none =>
      let s := setTile s p (dropStaged (getTile s p) l)
      match windowHit s (unitArray p j.phys) with
      | some w => escalate (moveArr s p j.phys .fenced why actEscalated) w (unitArray p j.phys)
      | none =>
      let act := if (spares (getTile s p)).isEmpty then actSubstituted else actSpared
      fullRetry (moveArr s p j.phys .fenced why act) p j l

/-! ## Grants (R128) -/

/-- The priority of a job (R128). -/
def jobPrio (s : State) (p : Nat) (j : Job) : Nat :=
  match j.kind with
  | .sparing | .erase => 7
  | .recal => 6
  | .retest => 2
  | .full | .rolling =>
    match logTile s p with
    | some n => min 5 (instArbPrio s (bits (townOf s n) 0 5))
    | none => 0

/-- The requester of a job, as the tile's arbiter numbers them (R128, R342). -/
def jobIndex (j : Job) : Nat :=
  match j.kind with
  | .sparing => 0 | .erase => 1 | .recal => 2 | .full => 3 | .rolling => 4 | .retest => 5

/-- Whether passes are in flight on a physical array. -/
def inFlight (t : Tile) (a : Nat) : Bool := t.flight.any fun f => f.phys == some a

/-- Whether the content that a job is to write can be read (R391). (DEDUCED, log entry 50) -/
def jobReadable (s : State) (p : Nat) (j : Job) : Bool :=
  match j.slot, j.logical with
  | some k, some l => imageReadable s (getImage s k) ((logTile s p).getD 0) l
  | _, _ => true

/-- Whether the engine could take a job now (R76). -/
def jobReady (s : State) (p : Nat) (j : Job) : Bool :=
  let t := getTile s p
  jobReadable s p j && match (getArr t j.phys).st with
    | .spare => true
    | .calibrating => j.touchup || j.kind == .full
    | .draining => j.inPlace && !inFlight t j.phys
    | .fenced => j.kind == .retest
    | _ => false

/-- The erase that zeroise asks of a tile next (R77): every array in turn, save one whose passes still run. -/
def nextErase (t : Tile) : List Job :=
  match firstOf (fun a => !t.erased.contains a && !((getArr t a).st == .draining && inFlight t a)) (upFrom 0 68) with
  | some a => [{ kind := .erase, phys := a }]
  | none => []

/-- The jobs of a tile that could be granted; zeroise lets no other go on (R77, R141, R375). -/
def openJobs (s : State) (p : Nat) : List Job :=
  let t := getTile s p
  if t.pv.isSome || !tilePowered s p then []
  else if s.img.zeroise then nextErase t
  else if !tileOpen s p then []
  else t.jobs.filter (jobReady s p)

/-- The job that a tile's arbiter would grant, its priority, and whether the grant would be a reserved one: the
first job of each requester asks (R128, R343). -/
def pvPick (s : State) (p : Nat) : Option (Job × Nat × Bool) :=
  let js := openJobs s p
  let heads := (upFrom 0 6).filterMap fun k => firstOf (fun j => jobIndex j == k) js
  match arbPick s (arbPv p) (regFld s (tileBlk p) 0x034 0 8) (heads.map fun j => ⟨jobPrio s p j, j.age, jobIndex j⟩) with
  | none => none
  | some (r, res) => (firstOf (fun j => jobIndex j == r.index) heads).map fun j => (j, r.prio, res)

/-- The tiles whose engine is in WRITING: they hold the write-power slots (R128). -/
def slotsHeld (s : State) : Nat := (s.tile.tiles.filter fun (_, t) => t.pv.any fun j => !j.wrote).length

/-- The tiles that may have something to write. -/
def writers (s : State) : List Nat := if s.img.zeroise then upFrom 0 1056 else s.tile.tiles.map Prod.fst

/-- The tile that takes the next write-power slot, and whether its grant is reserved (R128, R343). -/
def writePick (s : State) : Option (ArbReq × Bool) :=
  if 256 ≤ slotsHeld s then none
  else arbPick s arbWrite (regFld s .pwr 0x034 0 8)
    ((writers s).filterMap fun p => (pvPick s p).map fun (j, prio, _) => ⟨prio, j.age, p⟩)

/-- The reason code of a write's ARRAY_STATE records (R484). -/
def jobWhy (j : Job) : Nat :=
  match j.kind with
  | .rolling => 5 | .recal => 6 | .retest => 0xC | .erase => 0xD | _ => 0

/-- The weights that a job writes, as memory holds them: none for an erase (R77, R457). -/
def jobWts (s : State) (p : Nat) (j : Job) : List Wt :=
  match j.slot, j.logical with
  | some k, some l => imageWts s (getImage s k) ((logTile s p).getD 0) l
  | _, _ => []

/-- The TERN code of a cell value (R54). -/
def ternCode (v : Int) : BitVec 2 := if v = 1 then 1 else if v = -1 then 3 else 0

/-- The cells that hold given weights. -/
def cellsOf (ws : List Wt) : Tab (BitVec 2) := ws.foldl (fun m w => tabPut m (w.row * 512 + w.col) (ternCode w.val)) []

/-- The rewrite in place of a job's array has written it anew (R97). -/
def noteTouched (t : Tile) (j : Job) : Tile :=
  match j.logical.bind (rewriteOf t) with
  | some r => if j.kind == JobKind.recal && j.inPlace then setRewrite t { r with touched := true } else t
  | none => t

/-- An array goes to WRITING for a job (R76); under a zeroise erase an array in FENCED stays there (R77). The engine reads
the weights once, and a write that is no touch-up begins the count of touch-ups anew (R25, R76). -/
def enterWriting (s : State) (p : Nat) (j : Job) : State :=
  let target := cellsOf (jobWts s p j)
  let s := if j.kind = .erase ∧ (arrOf s p j.phys).st = .fenced then s else moveArr s p j.phys .writing (jobWhy j) actNone
  let s := if j.touchup then s else setArrOf s p j.phys { arrOf s p j.phys with touchups := 0 }
  setTile s p { noteTouched (getTile s p) j with pv := some { j with age := s.now, wrote := false, target := target } }

/-- A worn array takes no write but an erase (R57, R76). -/
def tooWorn (x : Arr) (j : Job) : Bool := worn x && j.kind != .erase && j.kind != .retest

/-- A job leaves its queue. (DESIGN CHOICE, log entry 13) -/
def takeJob (s : State) (p : Nat) (j : Job) : State :=
  let t := getTile s p
  setTile s p { t with jobs := dropFirst (fun x => x == j) t.jobs }

/-- PV_GRANT (R128, R132 step 1): the tile's engine and a write-power slot are granted. -/
def execPvGrant (t : TileId) (s : State) : Out :=
  let p := t.spire.val * 264 + t.tile.val
  match pvPick s p, writePick s with
  | some (j, _, res), some (r, resW) =>
    if r.index ≠ p then .next s
    else if tooWorn (arrOf s p j.phys) j then
      .next (jobFailed (takeJob s p j) p j 0xB)
    else .next (enterWriting (takeJob (arbCount (arbCount s (arbPv p) res) arbWrite resW) p j) p j)
  | _, _ => .next s

/-! ## Writing and verifying (R65, R66, R76, R127) -/

/-- The shortest time that WRITING takes, in units of 25 ps: a preset of 0.6 ms, unless the write is a touch-up,
and 0.6 ms for each loop (R127). -/
def writeTime (j : Job) (loops : Nat) : Nat := (loops + b2n (!j.touchup)) * 24000000

/-- WRITING_DONE (R127, R65): every pair, weight and check alike, has been driven to its target or the loops are
done. The write counts as a program cycle here, so one that is cut off counts none. (DESIGN CHOICE, log entry 35) -/
def execWritingDone (t : TileId) (loops : Nat) (s : State) : Out :=
  let p := t.spire.val * 264 + t.tile.val
  match (getTile s p).pv with
  | none => .next s
  | some j =>
    if j.wrote = true ∨ loops = 0 ∨ 12 < loops ∨ s.now < j.age + writeTime j loops then .next s
    else
      let ws := cellWts j.target
      let x := arrOf s p j.phys
      let s := setArrOf s p j.phys { x with
        cells := j.target, checks := (checkLevels ws).foldl (fun m (k, v) => tabPut m k v) [], cycles := x.cycles + 1 }
      let s := if (arrOf s p j.phys).st = .writing then moveArr s p j.phys .verifying (jobWhy j) actNone else s
      .next (setTile s p { getTile s p with pv := some { j with wrote := true, age := s.now } })

/-- A failed pair holds what was read back; an illegal pair contributes nothing (R55, R76). -/
def failPair (x : Arr) (f : FailedPair) : Arr :=
  let v := if f.illegal then 0 else f.read
  if f.col.val < 512 then { x with cells := tabPut x.cells (f.row.val * 512 + f.col.val) (ternCode v) }
  else { x with checks := tabPut x.checks (f.row.val * 16 + (f.col.val - 512)) v }

/-- The clipped excess of a check block (R65, R66). -/
def blockExcess (ws : List Wt) (g sg : Nat) : Nat :=
  ((upFrom (128 * sg) 128).map fun r =>
    (sumWts (ws.filter fun w => w.row == r && w.col / 32 == g) Wt.val - checkLevel ws g r).natAbs).foldl (· + ·) 0

/-- The check mask (R66, R76): blocks whose excess is above 8, and those of failed check cells. -/
def checkMask (ws : List Wt) (failed : List FailedPair) : W64 :=
  (upFrom 0 64).foldl
    (fun m i =>
      if 8 < blockExcess ws (i / 4) (i % 4) ∨ failed.any (fun f => f.col.val == 512 + i / 4 && f.row.val / 128 == i % 4) = true
      then m ||| BitVec.ofNat 64 (2 ^ i) else m) 0

/-- The end of an erase (R76, R77, R457): the array is a spare again, or fenced. (DESIGN CHOICE, log entry 35) -/
def eraseDone (s : State) (p : Nat) (j : Job) (clean : Bool) : State :=
  let t := getTile s p
  let s := if j.kind = .erase then setTile s p { t with erased := j.phys :: t.erased.filter (· != j.phys) } else s
  if (arrOf s p j.phys).st = .fenced then s
  else moveArr s p j.phys (if clean then .spare else .fenced) (jobWhy j) (if clean then actNone else actFenced)

/-- The class 1 entries of a written array that are staged with it: those of a load on a free tile (R129). -/
def fullClass1 (s : State) (p : Nat) (j : Job) : List (Nat × W64) :=
  match j.kind, j.slot, j.logical with
  | .full, some k, some l =>
    if (liveSlots (getTile s p) l 0).isEmpty then imageOutliers s (getImage s k) ((logTile s p).getD 0) l else []
  | _, _, _ => []

/-- The repairs and class 1 entries of a verified array are staged (R76, R104, R133); the answer says whether the Lantern
could take them. A touch-up finds its repairs anew and keeps the class 1 entries that are staged. -/
def stageVerified (s : State) (p l : Nat) (j : Job) (ws : List Wt) (failed : List FailedPair) : Tile × Bool :=
  let t := getTile s p
  match stageRepairs (repairsOf l ws failed) (if j.touchup then dropRepairs t l else dropStaged t l) with
  | (t, false) => (t, false)
  | (t, true) =>
    match stageClass1 t (if j.touchup then [] else fullClass1 s p j) with
    | some t => (t, true)
    | none => (t, false)

/-- The variants that a tile has evicted since it was as `t`. -/
def evictedSince (t t' : Tile) : Nat := t'.evicts - t.evicts

/-- The writes of a verified array go to the Lantern write port: its repairs, and its class 1 entries (R112). (DEDUCED, log
entry 59) -/
def portVerified (s : State) (p l repairs class1 : Nat) : State :=
  portWrite (portWrite s p (.pv l) repairs) p (.keep l) class1

/-- VERIFYING_DONE (R76, R66, R104): 40 µs after WRITING, the failed pairs decide where the array goes. -/
def execVerifyingDone (t : TileId) (failed : List FailedPair) (s : State) : Out :=
  let p := t.spire.val * 264 + t.tile.val
  match (getTile s p).pv with
  | none => .next s
  | some j =>
    if j.wrote = false ∨ s.now < j.age + 1600000 then .next s
    else
      let ws := cellWts j.target
      let s := setTile s p { getTile s p with pv := none }
      let x := failed.foldl failPair (arrOf s p j.phys)
      let s := setArrOf s p j.phys { x with failed := failed, failedCount := failed.length, mask := checkMask ws failed }
      match j.logical with
      | none => .next (eraseDone s p j failed.isEmpty)
      | some l =>
        if 32 < failed.length then .next (jobFailed s p j 7)
        else
          let t0 := getTile s p
          let repairs := repairsOf l ws failed
          match stageVerified s p l j ws failed with
          | (tl, false) => .next (jobFailed (setTile s p tl) p j 8)
          | (tl, true) =>
            let s := portVerified (setTile s p tl) p l repairs.length (if j.touchup then 0 else (fullClass1 s p j).length)
            let s := if repairs.isEmpty then s else emitBreach s p (evictedSince t0 tl)
            let s := moveArr s p j.phys .calibrating (jobWhy j) actNone
            .next (setArrOf s p j.phys { arrOf s p j.phys with job := some { j with wrote := false } })

/-! ## Calibrating (R76, R83) -/

/-- A touch-up of a calibrating array is asked for (R76, R138). -/
def askTouchup (s : State) (p a : Nat) (j : Job) : State :=
  let x := arrOf s p a
  addJob (setArrOf s p a { x with touchups := x.touchups + 1 }) p { j with touchup := true, wrote := false }

/-- The job that a calibrating array belongs to: its write, or for an array that was only to be measured again
one for its content. -/
def calJob (s : State) (p a : Nat) : Option Job :=
  let t := getTile s p
  match (getArr t a).job with
  | some j => some j
  | none =>
    match logArr t a, t.image with
    | some l, some _ => some { kind := .full, phys := a, logical := some l, slot := curSlotOf t l }
    | _, _ => none

/-- What the end of a calibration means for the array's job (R76, R129, R132 step 4, R138, R375). (DESIGN CHOICE, log entry 35) -/
def calibrated (s : State) (p a : Nat) : State :=
  let t := getTile s p
  match (getArr t a).job with
  | some j =>
    match j.logical.bind (rewriteOf t) with
    | some r => setTile s p (setRewrite t { r with ready := true })
    | none => tryActivate (if j.kind = .full then noteProgress s else s) p
  | none =>
    match logArr t a with
    | some l => if t.loaded then moveArr (setTile s p (liveEntries t l)) p a .active 0 actNone else tryActivate s p
    | none => s

/-- The illegal pairs that a calibration finds beside those known (R55). -/
def newIllegal (x : Arr) (found : List FailedPair) : List FailedPair :=
  ((found.map fun f => { f with illegal := true, read := 0 }).filter fun f =>
    !x.failed.any fun g => g.row == f.row && g.col == f.col).eraseDups

/-- The mask bits of failed check cells (R55, R66). -/
def maskOf (failed : List FailedPair) : W64 :=
  failed.foldl (fun m f => if 512 ≤ f.col.val then m ||| BitVec.ofNat 64 (2 ^ (4 * (f.col.val - 512) + f.row.val / 128)) else m) 0

/-- The weights that a calibrating array is meant to hold: those that its write had, or those of its slot. -/
def calWant (s : State) (p a : Nat) : List Wt :=
  match calJob s p a with
  | some j => if j.target.isEmpty then jobWts s p j else cellWts j.target
  | none => []

/-- Pairs found in the illegal state during CALIBRATING are failed pairs (R55): they contribute nothing, and a failed check
cell sets its block's mask bit. (DEDUCED, log entry 35) -/
def noteIllegal (x : Arr) (found : List FailedPair) : Arr :=
  let fresh := newIllegal x found
  let x := fresh.foldl failPair x
  { x with failed := x.failed ++ fresh, failedCount := x.failedCount + fresh.length, mask := x.mask ||| maskOf fresh }

/-- The class 0 repairs of those pairs are staged for the array's logical array (R55, R93, R104); the answer says whether the
Lantern could take them. -/
def stageIllegal (s : State) (p l a : Nat) (fresh : List FailedPair) : State × Bool :=
  let t0 := getTile s p
  let repairs := repairsOf l (calWant s p a) fresh
  let (t, ok) := stageRepairs repairs t0
  let s := setTile s p t
  if repairs.isEmpty || !ok then (s, ok) else (emitBreach (portWrite s p (.pv l) repairs.length) p (evictedSince t0 t), true)

/-- CAL_DONE (R76, R55): the trims are measured; the array holds with CAL_DONE set, is touched up, or is fenced. -/
def execCalDone (t : TileId) (a : Fin 68) (r : CalResult) (s : State) : Out :=
  let p := t.spire.val * 264 + t.tile.val
  let x := arrOf s p a
  if x.st ≠ .calibrating ∨ x.calDone = true ∨ tilePowered s p = false ∨ s.now < x.since + 20000000 ∨ (getTile s p).jobs.any (fun j => j.phys == a.val) = true then .next s
  else
    let trims := r.trims.foldl (fun m y => tabPut m y.col.val (y.gain, y.offset)) ([] : Tab (W16 × W16))
    let fresh := newIllegal x r.illegal
    let x := noteIllegal { x with trims := trims, newTrims := none } r.illegal
    let s := setArrOf s p a x
    let fail (why : Nat) : State := match calJob s p a with
      | some j => jobFailed s p j why
      | none => moveArr s p a .fenced why actFenced
    if !r.selfTestOk then .next (fail 3)
    else if 32 < x.failed.length then .next (fail 7)
    else if anyGain 25 x.trims || trims.any fun (_, _, b) => offsetBeyond b then .next (fail 9)
    else if anyGain 6 x.trims then
      if worn x then .next (fail 0xB)
      else if 2 ≤ x.touchups then .next (fail 0xA)
      else match calJob s p a with
        | some j => .next (askTouchup s p a j)
        | none => .next (setArrOf s p a { x with calDone := true })
    else
      let (s, ok) := match (calJob s p a).bind (·.logical) with
        | some l => stageIllegal s p l a fresh
        | none => (s, true)
      if ok then .next (calibrated (setArrOf s p a { x with calDone := true, touchups := 0 }) p a)
      else match calJob s p a with
        | some j => .next (jobFailed s p j 8)
        | none => .next s

/-! ## Draining (R76) -/

/-- The rewrite that works in place on an array. -/
def inPlaceOf (t : Tile) (a : Nat) : Option Rewrite := firstOf (fun r => r.inPlace && r.old == a) t.rewrites

/-- An array drained for its own rewrite (R134, R138): a write is asked for, or its trims are measured again. -/
def drainedInPlace (s : State) (p a : Nat) (r : Rewrite) : State :=
  let j : Job := { kind := r.kind, phys := a, logical := some r.logical, inPlace := true
                   slot := if r.newSlot.isSome then r.newSlot else curSlotOf (getTile s p) r.logical }
  if r.kind = .recal then
    let s := moveArr s p a .calibrating 6 actNone
    setArrOf s p a { arrOf s p a with job := some j }
  else if worn (arrOf s p a) then jobFailed s p j 0xB
  else if (getTile s p).jobs.any fun x => x.phys == a then s
  else addJob s p j

/-- DRAINING_DONE (R76): the array's last pass has ended. -/
def execDrainingDone (t : TileId) (a : Fin 68) (s : State) : Out :=
  let p := t.spire.val * 264 + t.tile.val
  let x := arrOf s p a
  let tl := getTile s p
  if x.st ≠ .draining ∨ inFlight tl a = true then .next s
  else if x.toFence then .next (arrayFault (setArrOf s p a { x with toFence := false }) p a x.why.toNat)
  else match inPlaceOf tl a with
    | some r => .next (drainedInPlace s p a r)
    | none => if (logArr tl a).isNone then .next (moveArr s p a .spare x.why.toNat actNone) else .next s

end Sys2Proof.Machine
end

