-- ==== Sys2Proof/Machine/Access.lean ====
section
/-! DEFINITION. Masters of the device and what they may act on (R359, R363, R370, R371, R454). -/

namespace Sys2Proof.Machine

open Sys2Proof

/-- The instance in whose name a requester acts; the Keep acts for instance 0. -/
def reqInst (s : State) (by_ : Requester) : Inst :=
  match by_ with
  | .fn n => n
  | .thread t => (getThr s t.toNat).inst
  | .keep => 0

/-- Whether a requester is there to act: a function that responds, a privileged thread, or the running Keep. -/
def reqUp (s : State) (by_ : Requester) : Bool :=
  match by_ with
  | .fn n => fnUp s n
  | .thread t => live (getThr s t.toNat) && (getThr s t.toNat).priv
  | .keep => s.keep.running

/-- Whether a requester acts in device scope: the Keep, the physical function, or a thread of instance 0 (R216,
R370). -/
def devScope (s : State) (by_ : Requester) : Bool := reqInst s by_ == 0

/-- Whether a block is one of those assigned to an instance (R359). -/
def assigned (s : State) (n : Inst) (b : Blk) : Bool :=
  match b with
  | .inst m => m == n.val
  | .tile sp t => (logTile s (sp * 264 + t)).any fun l => ownsTile s n l
  | _ => false

/-- Whether a requester may write the registers of a block (R359, R371, R454): its own tile blocks, or any block
in device scope. (DEDUCED, log entry 37) -/
def mayWrite (s : State) (by_ : Requester) (b : Blk) : Bool :=
  devScope s by_ || match b with
    | .tile _ _ => assigned s (reqInst s by_) b
    | _ => false

/-- Whether a requester may read the registers of a block (R351, R359). -/
def mayRead (s : State) (by_ : Requester) (b : Blk) : Bool := devScope s by_ || assigned s (reqInst s by_) b

/-- An order to a block: ignored from a requester that is not there, refused with DENIED from one that may not
act (R454), else carried out. -/
def orderTo (s : State) (by_ : Requester) (b : Blk) (f : State → State) : State :=
  if !reqUp s by_ then s else if mayWrite s by_ b then f s else setBlockStat s b 3

/-! ## Writes of one cycle (R370, R372, R373) -/

/-- The master that a requester is (R370): an instance, or the Keep. -/
def masterOf (s : State) (by_ : Requester) : Option Inst := if by_ == .keep then none else some (reqInst s by_)

/-- A write of bits of a register as an order of the cycle. -/
def bitOrder (s : State) (by_ : Requester) (b : Blk) (o mask effect : Nat) (contains : Bool) : Order :=
  { at_ := s.now, rank := masterRank (masterOf s by_), inst := reqInst s by_, on := .reg (blkBase b + o), mask := mask
    effect := effect, contains := contains }

/-- A write of bits of a register that acts as a whole: it takes effect unless it loses. -/
def bitsTo (s : State) (by_ : Requester) (b : Blk) (o mask effect : Nat) (contains : Bool) (f : State → State) : State :=
  orderTo s by_ b fun s =>
    let (s, keep) := contendBits s (bitOrder s by_ b o mask effect contains)
    if keep = mask then f s else s

/-- The value that a write asks for through a view (R447). -/
def viewBits (view : View) (old v : Nat) : Nat :=
  let o := BitVec.ofNat 64 old
  let x := BitVec.ofNat 64 v
  match view with
  | .base => x.toNat
  | .set => (o ||| x).toNat
  | .clr => (o &&& ~~~x).toNat
  | .tgl => (o ^^^ x).toNat

/-- A write of a value through a view to a register that holds `old`, whose writable bits are `mask`: what it has lost to
orders of its cycle keeps its value. -/
def viewTo (s : State) (by_ : Requester) (b : Blk) (o mask : Nat) (view : View) (old v : Nat) (contains : Bool)
    (f : State → Nat → State) : State :=
  let act := if view = .base then mask else v &&& mask
  let (s, keep) := contendBits s (bitOrder s by_ b o act (viewBits view old v &&& act) contains)
  if keep = act then f s v
  else if keep = 0 then s
  else f s (if view = .base then (v &&& keep) ||| (old ^^^ (old &&& keep)) else v &&& keep)

/-- The bits of a register that a write can act on. -/
def writable (d : RDesc) : Nat := d.flds.foldl (fun m f => if f.acc = .ro then m else m ||| (2 ^ f.w - 1) * 2 ^ f.lo) 0

/-- A write through a view to a register of a block with pending values. -/
def regTo (s : State) (by_ : Requester) (b : Blk) (o : Nat) (view : View) (v : Nat) (f : State → Nat → State) : State :=
  orderTo s by_ b fun s =>
    viewTo s by_ b o (((regDesc b o).map writable).getD 0) view (regPend s b o).toNat v false f

end Sys2Proof.Machine
end

