-- ==== Sys2Proof/Machine/Sha.lean ====
section
/-! DEFINITION. SHA-384, by which the spec names content digests (R139). The spec gives the name alone; the function is
that of FIPS 180-4. (PRESUMED, log entry 74) -/

namespace Sys2Proof.Machine

open Sys2Proof

/-- The largest `x` below `2 ^ fuel` with `x ^ n ≤ v`, found bit by bit from the top. -/
def rootBits (n v : Nat) : Nat → Nat → Nat
  | 0, x => x
  | k + 1, x => if (x + 2 ^ k) ^ n ≤ v then rootBits n v k (x + 2 ^ k) else rootBits n v k x

/-- The first 64 bits of the fraction of the `n`-th root of a number. -/
def rootFraction (n p : Nat) : W64 := BitVec.ofNat 64 (rootBits n (p * 2 ^ (64 * n)) 70 0)

/-- The first 80 primes. -/
def primes80 : List Nat :=
  ((List.range 410).filter fun n => 2 ≤ n && (List.range 21).all fun d => d < 2 || n == d || n % d != 0).take 80

/-- The round constants and the starting hash. -/
def shaK : List W64 := primes80.map (rootFraction 3)
def shaStart : List W64 := ((primes80.drop 8).take 8).map (rootFraction 2)

/-- The bytes of a message with its padding, to a multiple of 128. -/
def shaPad (m : List Byte) : List Byte :=
  let n := m.length
  m ++ [0x80] ++ List.replicate ((111 + 128 - n % 128) % 128) 0 ++
    (List.range 16).map fun i => BitVec.ofNat 8 (8 * n / 2 ^ (8 * (15 - i)))

/-- A word of 8 bytes, the first the most significant. -/
def wordOf (l : List Byte) : W64 := BitVec.ofNat 64 (l.foldl (fun n b => n * 256 + b.toNat) 0)

/-- The mixing functions. -/
def shaSmall (a b c : Nat) (x : W64) : W64 := x.rotateRight a ^^^ x.rotateRight b ^^^ (x >>> c)
def shaBig (a b c : Nat) (x : W64) : W64 := x.rotateRight a ^^^ x.rotateRight b ^^^ x.rotateRight c

/-- The message schedule, kept newest word first: `k` more words. -/
def shaSchedule : Nat → List W64 → List W64
  | 0, l => l
  | k + 1, l =>
    let at_ (i : Nat) : W64 := (l.drop (i - 1)).headD 0
    shaSchedule k ((shaSmall 19 61 6 (at_ 2) + at_ 7 + shaSmall 1 8 7 (at_ 15) + at_ 16) :: l)

/-- One round on the eight working words. -/
def shaRound (v : List W64) (x : W64 × W64) : List W64 :=
  match v with
  | [a, b, c, d, e, f, g, h] =>
    let t1 := h + shaBig 14 18 41 e + ((e &&& f) ^^^ (~~~e &&& g)) + x.1 + x.2
    let t2 := shaBig 28 34 39 a + ((a &&& b) ^^^ (a &&& c) ^^^ (b &&& c))
    [t1 + t2, a, b, c, d + t1, e, f, g]
  | _ => v

/-- One block of 128 bytes. -/
def shaBlock (h : List W64) (block : List Byte) : List W64 :=
  let w := (List.range 16).map fun i => wordOf ((block.drop (8 * i)).take 8)
  let ws := (shaSchedule 64 w.reverse).reverse
  ((shaK.zip ws).foldl shaRound h).zipWith (· + ·) h

/-- The blocks of a padded message; `n` is how many there are. -/
def shaBlocks : Nat → List W64 → List Byte → List W64
  | 0, h, _ => h
  | n + 1, h, l => shaBlocks n (shaBlock h (l.take 128)) (l.drop 128)

/-- SHA-384 of a message: 48 bytes. -/
def sha384 (m : List Byte) : List Byte :=
  let p := shaPad m
  ((shaBlocks (p.length / 128) shaStart p).take 6).flatMap fun w =>
    (List.range 8).map fun i => BitVec.ofNat 8 (w.toNat / 2 ^ (8 * (7 - i)))

end Sys2Proof.Machine
end

