-- ==== Sys2Proof/Machine/Images.lean ====
section
/-! DEFINITION. Weight images: the start of a load, its verification and its commitment (R115 to R126, R129,
R135, R139, R140, R486). -/

namespace Sys2Proof.Machine

open Sys2Proof

/-! ## The start of a load (R124) -/

/-- An IMAGE record (R484). -/
def emitImage (s : State) (action : Byte) (reason event : Nat) (id : W64) : State :=
  emit s evImage action none (unitOf 0 0)
    (toBytes reason 1 ++ toBytes event 1 ++ [0, 0] ++ toBytes id.toNat 8)

/-- Reasons of R125. -/
def imgFormat : Nat := 0x01
def imgDevice : Nat := 0x02
def imgNoRecipient : Nat := 0x03
def imgUnwrap : Nat := 0x04
def imgAnchor : Nat := 0x05
def imgSignature : Nat := 0x06
def imgRollback : Nat := 0x07
def imgTag : Nat := 0x08
def imgContent : Nat := 0x09
def imgReserve : Nat := 0x0A
def imgSlot : Nat := 0x0B
def imgSameId : Nat := 0x0C
def imgPlacementChanged : Nat := 0x0D
def imgVariantsHeld : Nat := 0x0E
def imgAborted : Nat := 0x0F
def imgHostRead : Nat := 0x10

/-- The code of a mode (R460 MODE). -/
def modeCode : LoadMode → Nat
  | .full => 0 | .rolling => 1 | .unlock => 2

/-- A failed load (R126): a record, DONE with the reason, and the load's counter. (DEDUCED, log entry 34) -/
def failLoad (s : State) (reason : Nat) (id : W64) : State :=
  endLoad (emitImage { s with img.load := none } actNone reason 1 id) reason

/-- A load in progress is ended by a reset or a zeroise (R125). (DESIGN CHOICE, log entry 46) -/
def abortLoad (s : State) : State := if s.img.load.isSome then failLoad s imgAborted 0 else s

/-- The write of MODE with GO (R460). -/
def setMode (s : State) (m : LoadMode) : State :=
  setRegPend (setRegAct s .sec 0x020 (BitVec.ofNat 64 (modeCode m))) .sec 0x020 (BitVec.ofNat 64 (modeCode m))

/-- GO (R124): a load begins; one already in progress refuses it, and zeroise ends it at once (R141, R142). (DEDUCED, log entry 50) -/
def startLoad (s : State) (by_ : Requester) (m : LoadMode) : State :=
  orderTo s by_ .sec fun s =>
    let s := setMode s m
    if s.img.load.isSome then emitImage s actRefused imgSlot 1 0
    else
      let s := { s with img.load := some { mode := m }, img.loadReason := 0, img.loadStage := 1, img.loadDone := false, img.progress := 0 }
      if s.img.zeroise then abortLoad s else s

def execImageLoadFull (by_ : Requester) (s : State) : Out := .next (startLoad s by_ .full)
def execImageLoadRolling (by_ : Requester) (s : State) : Out := .next (startLoad s by_ .rolling)
def execImageLoadUnlock (by_ : Requester) (s : State) : Out := .next (startLoad s by_ .unlock)

/-! ## Stage 1 (R117, R118, R121) -/

/-- The length of a section by its type (R120). -/
def sectionLength (x : SectionRec) : Nat :=
  match x.typ.toNat with
  | 1 => 16 * x.count.toNat
  | 2 => 65536 * x.count.toNat
  | 3 => 2048 * x.count.toNat
  | 4 => 8 * x.count.toNat
  | _ => 2112 * x.count.toNat

/-- Whether a section-table entry keeps R116 and R118. -/
def sectionOk (f : ImageFile) (x : SectionRec) : Bool :=
  1 ≤ x.typ.toNat && x.typ.toNat ≤ 5 && (x.typ == 4 || x.count == f.arrays) && x.length.toNat == sectionLength x &&
    x.offset.toNat % 4096 == 0 && 0x100 + 64 * f.sectionCount.toNat ≤ x.offset.toNat &&
    x.offset.toNat + x.length.toNat ≤ f.sigOffset.toNat && x.reservedZero

/-- Whether a list rises strictly by an order. (DEDUCED, log entry 50) -/
def risingBy {α : Type} (lt : α → α → Bool) : List α → Bool
  | x :: y :: r => lt x y && risingBy lt (y :: r)
  | _ => true

/-- Whether the section table keeps R116 and R118: ascending types, no overlap, distinct nonces, and the three
sections that are required. -/
def sectionsOk (f : ImageFile) : Bool :=
  let l := f.sections
  l.length == f.sectionCount.toNat && l.all (sectionOk f) &&
    risingBy (fun a b => a.typ.toNat < b.typ.toNat && a.offset.toNat + a.length.toNat ≤ b.offset.toNat) l &&
    [1, 2, 3].all (fun t => l.any fun x => x.typ.toNat == t) && (l.map (·.nonce)).eraseDups.length == l.length

/-- Whether the header keeps R117. (DEDUCED, log entry 50) -/
def headerOk (f : ImageFile) : Bool :=
  f.magic == 0x474D4954 && f.version == 1 && f.headerLength == 0x100 && f.imageId != 0 && f.rollback.toNat ≤ 64 &&
    3 ≤ f.sectionCount.toNat && f.sectionCount.toNat ≤ 5 && f.headerReservedZero && f.sigOffset.toNat % 64 == 0 &&
    f.imageLength.toNat == f.sigOffset.toNat + 0x15B0 && 1 ≤ f.arrays.toNat && f.arrays.toNat ≤ 65536

/-- Whether the wrapped-key header keeps R121. -/
def keyHeaderOk (f : ImageFile) : Bool :=
  f.keyMagic == 0x4B574954 && f.keyVersion == 1 && 1 ≤ f.keyRecords.toNat && f.keyRecords.toNat ≤ 256 &&
    f.keyImageId == f.imageId && f.keyReservedZero && f.keyRecs.length == f.keyRecords.toNat

/-- Whether `[a, a + n)` lies in the host-window ranges of instance 0 (R124). -/
def inHost0 (s : State) (a n : Nat) : Bool := decide (hostBase ≤ a ∧ a + n ≤ 2 ^ 64) && covers (hostRanges s 0) 5 a n

/-- Whether the ranges of a load keep R124: LOAD_ADDR, LOAD_LEN and LOAD_KEYS as they stand when the verification ends.
(DESIGN CHOICE, log entry 50) -/
def loadRangesOk (s : State) (f : ImageFile) : Bool :=
  let len := (regAct s .sec 0x010).toNat
  inHost0 s (regAct s .sec 0x008).toNat len && len == f.imageLength.toNat &&
    inHost0 s (regAct s .sec 0x018).toNat (64 + 1280 * f.keyRecords.toNat)

/-- The lowest image slot number that is free (R115). (DESIGN CHOICE, log entry 38) -/
def freeSlot (s : State) : Option Nat := firstOf (fun k => !tabHas s.img.images k) (upFrom 0 33)

/-- Where a slot of a length fits into the protected region: the lowest place that no slot touches. (DESIGN CHOICE, log entry 38) -/
def slotBase (s : State) (len : Nat) : Option Nat :=
  let used := s.img.images.map fun (_, i) => (i.base, i.size)
  let round (a : Nat) : Nat := (a + 4095) / 4096 * 4096
  let ends := protBase :: used.map fun (b, z) => round (b + z)
  let fits (a : Nat) : Bool := decide (a + len ≤ ctxBase) && used.all fun (b, z) => a + len ≤ b || b + z ≤ a
  leastBy (fun a b => a < b) (ends.filter fits)

/-! ## Stages 2 to 5 (R123) -/

/-- The anchor slot that a publisher matches (R125 stage 2): of several with one hash, the first, whose floor counts.
(DESIGN CHOICE, log entry 50) -/
def anchorOf (s : State) (f : ImageFile) : Option Anchor :=
  firstOf (fun a : Anchor => a.valid && !a.revoked && a.hash == f.publisher) (s.img.anchors.map Prod.snd)

/-- Whether the signatures meet the policy: one that is present must verify (R122, R123). -/
def signaturesOk (s : State) (f : ImageFile) : Bool :=
  let e := f.sigFlags.getLsbD 0
  let m := f.sigFlags.getLsbD 1
  f.sigMagic == 0x53474954 && f.sigVersion == 1 && f.sigFlags.toNat < 4 && f.sigReservedZero &&
    (!e || f.ecdsaOk) && (!m || f.mldsaOk) && (if s.img.policyBoth then e && m else e || m)

/-! ## Stage 6 (R119, R120, R135, R486) -/

/-- Whether a packed byte of WEIGHTS at a cell column holds codes that the format allows (R120); the column of
its lowest element is a multiple of 4. -/
def weightByteOk (fmt : Nat) (b : Nat) : Bool :=
  (upFrom 0 4).all fun i =>
    let c := bits b (2 * i) 2
    match fmt with
    | 1 => c == 1 || c == 3
    | 2 => if i % 2 = 0 then c == 0 || c == 3 else c == 0 || c == 1
    | _ => c != 2

/-- The bytes of a section that belong to placement index `i`, by their place in it. -/
def bytesFor (l : List (Nat × Byte)) (i size : Nat) : List (Nat × Byte) :=
  (l.filter fun (a, _) => a / size == i).map fun (a, b) => (a % size, b)

/-- The entries of OUTLIERS that belong to placement index `i`. -/
def outliersFor (f : ImageFile) (i : Nat) : List W64 :=
  let first := ((f.placement.take i).map fun x => x.outliers.toNat).foldl (· + ·) 0
  (f.outliers.drop first).take (nth 0 (f.placement.map fun x => x.outliers.toNat) i)

/-- Whether an OUTLIERS entry of a record keeps R93, R94 and R120. -/
def outlierOk (r : PlaceRec) (e : W64) : Bool :=
  residueOk e && classOk (r.format == 2) e && eClass e == 1 && eArray e == r.array.toNat

/-- Whether the data of a placement index keep R120. -/
def indexOk (f : ImageFile) (i : Nat) (r : PlaceRec) : Bool :=
  let ws := bytesFor f.weights i 65536
  let es := outliersFor f i
  ws.all (fun (_, b) => weightByteOk r.format.toNat b.toNat) && (r.format != 1 || ws.length == 65536) &&
    (r.format != 2 || (bytesFor f.scales i 2048).all fun (a, _) => a < 1024) && es.all (outlierOk r) &&
    risingBy (fun a b => eRow a * 512 + eCol a < eRow b * 512 + eCol b) es

/-- Whether the placement table keeps R119. -/
def placementOk (f : ImageFile) : Bool :=
  f.placement.length == f.arrays.toNat && f.placementReservedZero &&
    f.placement.all (fun r => r.tile.toNat < 1024 && r.array.toNat < 64 && r.format.toNat ≤ 2) &&
    risingBy (fun a b : PlaceRec => a.tile.toNat * 64 + a.array.toNat < b.tile.toNat * 64 + b.array.toNat) f.placement

/-- The COUNT of OUTLIERS, 0 without the section. -/
def outlierCount (f : ImageFile) : Nat :=
  match firstOf (fun x : SectionRec => x.typ == 4) f.sections with
  | some x => x.count.toNat
  | none => 0

/-- Whether the content of an image keeps R119 and R120. -/
def contentOk (f : ImageFile) : Bool :=
  placementOk f && (f.placement.map fun r => r.outliers.toNat).foldl (· + ·) 0 == outlierCount f &&
    f.outliers.length == outlierCount f && ((upFrom 0 f.placement.length).zip f.placement).all fun (i, r) => indexOk f i r

/-- The logical tiles of a placement table. -/
def placeTiles (l : List PlaceRec) : List Nat := (l.map fun r => r.tile.toNat).eraseDups

/-- How a logical tile stands to a load (R486): free, LOCKED, or held by the image of a slot. -/
inductive TileUse where
  | free
  | locked
  | held (slot : Nat)
  deriving DecidableEq, Repr

def tileUse (s : State) (n : Nat) : TileUse :=
  let t := getTile s (physTile s n)
  if t.locked then .locked else match t.image with
    | some k => .held k
    | none => .free

/-- Whether an image slot holds an image in force: it is the image of a tile (R115). -/
def inForce (s : State) (k : Nat) : Bool := s.tile.tiles.any fun (_, t) => t.image == some k

/-- The image in force whose tiles are exactly those of a placement table. -/
def sameTiles (s : State) (ts : List Nat) : Option Nat :=
  (firstOf (fun (k, i) => inForce s k && (imageTiles i).length == ts.length && (imageTiles i).all fun n => ts.contains n)
    s.img.images).map Prod.fst

/-- Whether a load would bring one image more into force than the 32 that the device holds (R115). -/
def tooMany (s : State) (m : LoadMode) (f : ImageFile) : Bool :=
  let adds := match m with
    | .full => true
    | .rolling => false
    | .unlock => (placeTiles f.placement).any fun n => match tileUse s n with | .held _ => false | _ => true
  adds && decide (32 ≤ (s.img.images.filter fun (k, _) => inForce s k).length)

/-- Whether the tiles of an UNLOCK load meet R486. -/
def unlockTilesOk (s : State) (ts : List Nat) (id : W64) : Bool :=
  let us := ts.map (tileUse s)
  us.all (fun u => match u with | .held k => (getImage s k).imageId == id | _ => true) &&
    (us.all (fun u => match u with | .held _ => true | _ => false) || us.all fun u => match u with | .held _ => false | _ => true)

/-- Placement tables that agree but for OUTLIER_COUNT (R135). -/
def samePlacement (a b : List PlaceRec) : Bool := (a.map fun r => { r with outliers := 0 }) == b.map fun r => { r with outliers := 0 }

/-- Whether a tile holds any variant (R135). -/
def holdsVariants (t : Tile) : Bool := t.variants.any fun (_, v) => v.res != 0

/-- The failure of the preconditions of R135 for a ROLLING load over image slot `k`. -/
def rollingFault (s : State) (f : ImageFile) (k : Nat) : Option Nat :=
  let i := getImage s k
  if i.imageId = f.imageId then some imgSameId
  else if !samePlacement i.placement f.placement then some imgPlacementChanged
  else if (imageTiles i).any fun n => holdsVariants (getTile s (physTile s n)) then some imgVariantsHeld
  else none

/-- The failure of stage 6. -/
def contentFault (s : State) (m : LoadMode) (f : ImageFile) : Option Nat :=
  let ts := placeTiles f.placement
  if !contentOk f then some imgContent
  else match m with
    | .full => if ts.all fun n => tileUse s n == .free then none else some imgContent
    | .unlock => if unlockTilesOk s ts f.imageId then none else some imgContent
    | .rolling => match sameTiles s ts with
      | none => some imgContent
      | some k => rollingFault s f k

/-! ## Stage 7 (R100) -/

/-- The bytes of a placement index in a section, in full. -/
def denseBytes (l : List (Nat × Byte)) (i size : Nat) : List Byte :=
  let mine := bytesFor l i size
  (upFrom 0 size).map fun a => tabGet 0 mine a

/-- The content digest of a placement index: the first 8 bytes of SHA-384 over its WEIGHTS, SCALES and OUTLIERS data
(R139). (PRESUMED, log entry 74) -/
def fileDigest (f : ImageFile) (i : Nat) : W64 :=
  BitVec.ofNat 64 (ofBytes ((sha384 (denseBytes f.weights i 65536 ++ denseBytes f.scales i 2048 ++
    (outliersFor f i).flatMap fun e => toBytes e.toNat 8)).take 8))

/-- Whether the record of a logical array (R139) matches an image (R140). -/
def recordMatches (t : Tile) (f : ImageFile) (i : Nat) (l : Nat) : Bool :=
  tabHas t.recs l && (tabGet (0, 0) t.recs l).1 == f.imageId && (tabGet (0, 0) t.recs l).2 == fileDigest f i

/-- Whether the content of a placement index is that of an image in its slot (R135). -/
def sameContent (s : State) (f : ImageFile) (i : Nat) (r : PlaceRec) (k : Nat) : Bool :=
  let im := getImage s k
  let n := r.tile.toNat
  let l := r.array.toNat
  let a := weightsAddr im n l
  (bytesFor f.weights i 65536).all (fun (x, b) => rdByte s (a + x) == b) &&
    ((s.mem.cells.filter fun (x, _) => a ≤ x && x < a + 65536).length == (bytesFor f.weights i 65536).length) &&
    imageScales s im n l == bytesFor f.scales i 2048 &&
    (imageOutliers s im n l).map Prod.snd == outliersFor f i

/-- Whether a load keeps the physical array of a placement index as it is (R135, R140, R486). -/
def keeps (s : State) (m : LoadMode) (f : ImageFile) (i : Nat) (r : PlaceRec) : Bool :=
  let t := getTile s (physTile s r.tile.toNat)
  match m, tileUse s r.tile.toNat with
  | .full, _ => false
  | .rolling, .held k => sameContent s f i r k
  | .unlock, .locked => recordMatches t f i r.array.toNat && (getArr t (physArr t r.array.toNat)).st == .calibrating
  | .unlock, .held _ => recordMatches t f i r.array.toNat
  | _, _ => false

/-- The weights of a placement index. -/
def fileWts (f : ImageFile) (i : Nat) : List Wt := (bytesFor f.weights i 65536).flatMap fun (a, b) => byteWts a b.toNat

/-- The class 0 entries of an array that is kept (R100): those that are LIVE, or, in a LOCKED tile, those that its failed pairs
are to have (R93). -/
def keptRepairs (t : Tile) (f : ImageFile) (i l : Nat) : Nat :=
  if t.locked then (repairsOf l (fileWts f i) (getArr t (physArr t l)).failed).length
  else (t.ltn.filter fun (_, x) => eClass x.source == 0 && eArray x.source == l && x.st == .live).length

/-- The tiles of a load whose pinned entries would not leave the reserve (R100, R125 stage 7). -/
def reserveTiles (s : State) (m : LoadMode) (f : ImageFile) : List Nat :=
  let ps := (upFrom 0 f.placement.length).zip f.placement
  (placeTiles f.placement).filter fun n =>
    let p := physTile s n
    let mine := ps.filter fun (_, r) => r.tile.toNat == n
    let ones := (mine.map fun (_, r) => r.outliers.toNat).foldl (· + ·) 0
    let kept := (mine.map fun (i, r) => if keeps s m f i r then keptRepairs (getTile s p) f i r.array.toNat else 0).foldl (· + ·) 0
    8192 - ltnReserve s p < ones + kept

def reserveOk (s : State) (m : LoadMode) (f : ImageFile) : Bool := (reserveTiles s m f).isEmpty

/-- The tiles concerned by a refusal with LTN_RESERVE are reported: one IMAGE record each, beside that of the load (R100).
(DEDUCED, log entry 50) -/
def reportReserve (s : State) (m : LoadMode) (f : ImageFile) : State :=
  (reserveTiles s m f).foldl
    (fun s n => emit s evImage actNone none (unitTile (physTile s n)) (toBytes imgReserve 1 ++ [1, 0, 0] ++ toBytes f.imageId.toNat 8)) s

/-! ## Verification (R125) -/

/-- The first check that fails (R125). (DEDUCED, log entry 50) -/
def loadFault (s : State) (m : LoadMode) (f : ImageFile) : Option Nat :=
  if !f.fetchOk then some imgHostRead
  else if !headerOk f || !sectionsOk f || !loadRangesOk s f || !keyHeaderOk f then some imgFormat
  else if f.deviceId ≠ 0x7160 ∨ 0x20 < f.minRev.toNat then some imgDevice
  else if tooMany s m f || (freeSlot s).isNone || (slotBase s f.imageLength.toNat).isNone then some imgSlot
  else match anchorOf s f with
    | none => some imgAnchor
    | some a =>
      if f.rollback.toNat < a.floor then some imgRollback
      else if !f.keyRecs.any (fun r => r.keyId == Config.deviceKeyId) then some imgNoRecipient
      else if !f.keyRecs.any (fun r => r.keyId == Config.deviceKeyId && r.unwrapOk) then some imgUnwrap
      else if !f.sections.all (·.tagOk) then some imgTag
      else if !signaturesOk s f then some imgSignature
      else match contentFault s m f with
        | some r => some r
        | none => if reserveOk s m f then none else some imgReserve

/-! ## Commitment (R115, R129, R135, R140, R486) -/

/-- Where a section lies in an image. -/
def sectionOffset (f : ImageFile) (t : Nat) : Nat :=
  match firstOf (fun x : SectionRec => x.typ.toNat == t) f.sections with
  | some x => x.offset.toNat
  | none => 0

/-- Bytes at places of a range. -/
def wrScattered (s : State) (a : Nat) (l : List (Nat × Byte)) : State := l.foldl (fun s (x, b) => wrStacked s (a + x) [b]) s

/-- The plaintext of an image goes to its slot (R115, R125 stage 4). -/
def placeImage (s : State) (f : ImageFile) (k base : Nat) : State :=
  let i : Image := {
    imageId := f.imageId, base := base, size := f.imageLength.toNat, weights := base + sectionOffset f 2
    scales := base + sectionOffset f 3, outliers := base + sectionOffset f 4, placement := f.placement, digests := (upFrom 0 f.placement.length).map (fileDigest f) }
  let s := wrScattered s i.weights f.weights
  let s := wrScattered s i.scales f.scales
  let s := wrStacked s i.outliers (f.outliers.flatMap fun e => toBytes e.toNat 8)
  { s with img.images := tabPut s.img.images k i }

/-- A logical array of a free tile is to be programmed (R129): on the array of its map, or else on a spare. -/
def programArr (p k : Nat) (s : State) (l : Nat) : State :=
  let t := getTile s p
  let a := physArr t l
  let j : Job := { kind := .full, phys := a, logical := some l, slot := some k }
  if (getArr t a).st = .fenced then fullRetry s p j l else addJob s p j

/-- A kept array of a LOCKED tile (R140): its repairs and class 1 entries are staged again, and it is touched up
when a trim is beyond ±6 %. -/
def keepArr (p n k : Nat) (s : State) (l : Nat) : State :=
  let t := getTile s p
  let a := physArr t l
  let i := getImage s k
  let x := getArr t a
  let j : Job := { kind := .full, phys := a, logical := some l, slot := some k }
  match stageRepairs (repairsOf l (imageWts s i n l) x.failed) t with
  | (_, false) => programArr p k s l
  | (t, true) =>
    match stageClass1 t (imageOutliers s i n l) with
    | none => programArr p k s l
    | some t =>
      let s := setTile s p t
      if x.calDone && anyGain 6 x.trims then askTouchup (setArrOf s p a { x with calDone := false }) p a j else s

/-- A free or LOCKED tile takes an image, and is LOCKED no more (R129, R140). -/
def takeImage (m : LoadMode) (f : ImageFile) (k : Nat) (kept : List (Nat × Nat)) (s : State) (n : Nat) : State :=
  let p := physTile s n
  let t := getTile s p
  let s := setTile s p { t with image := some k, curSlot := [], loaded := false, locked := false, substituted := [], pendMap := [] }
  let ls := (f.placement.filter fun r => r.tile.toNat == n).map fun r => r.array.toNat
  let s := ls.foldl (fun s l => if m = .unlock ∧ kept.contains (n, l) = true then keepArr p n k s l else programArr p k s l) s
  tryActivate s p

/-- A held tile takes the slot of a load (R135, R137, R486): kept arrays have swung at commit, the others are
rewritten. -/
def rewriteTile (m : LoadMode) (f : ImageFile) (k old : Nat) (kept : List (Nat × Nat)) (s : State) (n : Nat) : State :=
  let p := physTile s n
  let ls := (f.placement.filter fun r => r.tile.toNat == n).map fun r => r.array.toNat
  let t := getTile s p
  let t := if m = .unlock then { t with image := some k, curSlot := (ls.filter fun l => !kept.contains (n, l)).map fun l => (l, old) }
    else { t with curSlot := (ls.filter fun l => kept.contains (n, l)).foldl (fun c l => tabPut c l k) t.curSlot }
  let s := setTile s p t
  let s := (ls.filter fun l => kept.contains (n, l)).foldl (fun s l => noteProgress (writeRecord s p n l (some k))) s
  nextRewrites n p s

/-- Stage 8 (R125): the slot is valid, and programming may begin. -/
def commitLoad (s : State) (m : LoadMode) (f : ImageFile) (k base : Nat) : State :=
  let ps := (upFrom 0 f.placement.length).zip f.placement
  let kept := (ps.filter fun (i, r) => keeps s m f i r).map fun (_, r) => (r.tile.toNat, r.array.toNat)
  let ts := placeTiles f.placement
  let olds := ts.map fun n => (n, tileUse s n)
  let old := olds.foldl (fun acc (_, u) => match u with | .held x => some x | _ => acc) (none : Option Nat)
  let s := placeImage s f k base
  let s := { s with img.load := some { mode := m, slot := some k, oldSlot := old }, img.loadStage := 8 }
  let s := olds.foldl
    (fun s (n, u) => match u with
      | .held x => rewriteTile m f k x kept s n
      | _ => takeImage m f k kept s n) s
  loadCheck s

/-- The stage at which a reason is found (R125). -/
def stageOf (r : Nat) : Nat :=
  if r = imgAnchor ∨ r = imgRollback then 2 else if r = imgNoRecipient ∨ r = imgUnwrap then 3
  else if r = imgTag then 4 else if r = imgSignature then 5
  else if r = imgContent ∨ r = imgSameId ∨ r = imgPlacementChanged ∨ r = imgVariantsHeld then 6
  else if r = imgReserve then 7 else 1

/-- IMAGE_COMMIT (R125, R126): verification of the load in progress ends. -/
def execImageCommit (f : ImageFile) (s : State) : Out :=
  match s.img.load with
  | some ⟨m, none, _⟩ =>
    match loadFault s m f with
    | some r =>
      let s := if r = imgReserve then reportReserve s m f else s
      .next (failLoad { s with img.loadStage := BitVec.ofNat 4 (stageOf r) } r f.imageId)
    | none =>
      match freeSlot s, slotBase s f.imageLength.toNat with
      | some k, some b => .next (commitLoad s m f k b)
      | _, _ => .next s
  | _ => .next s

end Sys2Proof.Machine
end

