-- ==== Sys2Proof/Machine/Links.lean ====
section
/-! DEFINITION. The training of fabric links (R302, R304 to R308, R312). -/

namespace Sys2Proof.Machine

open Sys2Proof

/-- A field of a register set in its active and its pending value. -/
def setFld (s : State) (b : Blk) (o lo w v : Nat) : State :=
  let f (x : W64) : W64 := BitVec.ofNat 64 (setBits x.toNat lo w v)
  let a := f (regAct s b o)
  let p := f (regPend s b o)
  setRegPend (setRegAct s b o a) b o p

/-- STATE (R304). -/
def linkCode : LinkState → Nat
  | .disabled => 0 | .detect => 1 | .train => 2 | .align => 3 | .ident => 4 | .credit => 5 | .active => 6
  | .backoff => 7 | .parked => 8 | .miswired => 9 | .degrade => 10

/-- WIDTH of LINKk_STAT (R308). -/
def widthCode (w : Nat) : Nat := if w = 4 then 3 else if w = 2 then 2 else if w = 1 then 1 else 0

/-- LINK (R484). -/
def emitLink (s : State) (l : Nat) : State :=
  let k := getLink s l
  emit s evLink actNone none (unitOf 7 l)
    [BitVec.ofNat 8 (linkCode k.st), BitVec.ofNat 8 (widthCode k.width), BitVec.ofNat 8 k.attempts, k.lanes.setWidth 8]

/-- Destinations with frames on their way are looked at again when a path may have gone (R313). -/
def notePaths (s : State) : State :=
  ((s.fab.unacked.map fun c => c.dst.toNat).eraseDups).foldl notePath s

/-- Whether a change of a link's state issues a record (R307): it leaves ACTIVE, or enters DEGRADE, MISWIRED or PARKED,
but for a return to PARKED from a retry of PARK_S. (DEDUCED, log entry 66) -/
def linkRecord (k : LinkSt) (old st : LinkState) : Bool :=
  (old == .active && st != .active) || ((st == .degrade || st == .miswired || (st == .parked && !k.parkNoted)) && old != st)

/-- A link goes to a state, with its record. The time frames that wait for a link that is ACTIVE no more are dropped.
(DEDUCED, log entry 66) -/
def linkTo (s : State) (l : Nat) (k : LinkSt) (st : LinkState) : State :=
  let old := (getLink s l).st
  let noted := if st = .parked then true else if st = .active then false else k.parkNoted
  let s := setLink s l { k with st := st, since := s.now, parkNoted := noted }
  let s := if linkRecord k old st then emitLink s l else s
  if st = .active then retryWaiting (recheckPaths s)
  else if old = .active then
    notePaths { s with fab.tx := s.fab.tx.filter fun x => x.link.isSome || x.via.map (·.val) != some l }
  else s

/-- A link without its trained state. -/
def untrained (k : LinkSt) : LinkSt :=
  { k with width := 0, gotPools := [], credits := [], tries := 0, paused := 0, partner := 0, headAt := [] }

/-- BACKOFF (R304). -/
def toBackoff (s : State) (l : Nat) : State := linkTo s l (untrained (getLink s l)) .backoff

/-- DETECT with the attempt count at 1; `retry` says that it comes by PARK_S (R307). (DEDUCED, log entry 66) -/
def toDetect (s : State) (l : Nat) (retry : Bool) : State :=
  let k := getLink s l
  linkTo s l { untrained k with attempts := 1, parkNoted := retry && k.parkNoted } .detect

/-- DISABLED (R308). (DEDUCED, log entry 66) -/
def toDisabled (s : State) (l : Nat) : State :=
  linkTo s l { untrained (getLink s l) with attempts := 0, parkNoted := false } .disabled

/-- What a write of LINKk_CFG does once its fields are stored (R304, R308). A link whose domain is not usable stays
DISABLED until it is (R405). (DEDUCED, log entry 66) -/
def linkCfgWritten (s : State) (l : Nat) (retrain : Bool) : State :=
  let k := getLink s l
  if !domUsable s (36 + l / 6) then s
  else if linkCfg s l 0 1 = 0 then (if k.st = .disabled then s else toDisabled s l)
  else if k.st = .disabled ∨ retrain = true then toDetect s l false
  else s

/-- LINK_ENABLE (R304, R308). -/
def execLinkEnable (by_ : Requester) (l : Link) (s : State) : Out :=
  .next (bitsTo s by_ .fab (0x100 + 8 * l) 1 1 false fun s => linkCfgWritten (setFld s .fab (0x100 + 8 * l) 0 1 1) l false)

/-- LINK_DISABLE (R308). -/
def execLinkDisable (by_ : Requester) (l : Link) (s : State) : Out :=
  .next (bitsTo s by_ .fab (0x100 + 8 * l) 1 0 false fun s => linkCfgWritten (setFld s .fab (0x100 + 8 * l) 0 1 0) l false)

/-- RETRAIN (R308): a link whose ENABLE is 0 stays DISABLED. -/
def execRetrain (by_ : Requester) (l : Link) (s : State) : Out :=
  .next (orderTo s by_ .fab fun s => linkCfgWritten s l true)

/-- SIGNAL_DETECT (R304): in PARKED, after an absence of at least 10 ms. -/
def execSignalDetect (l : Link) (s : State) : Out :=
  let k := getLink s l
  let s' := setLink s l { k with signal := true }
  match k.st with
  | .detect => if k.since + 40000000 ≤ s.now then .next (linkTo s' l { k with signal := true } .train) else .next s'
  | .parked => if k.signal = false ∧ k.quietSince + 400000000 ≤ s.now then .next (toDetect s' l false) else .next s'
  | _ => .next s'

/-- TRAINING_COMPLETE (R302, R304). -/
def execTrainingComplete (l : Link) (pol : BitVec 4) (s : State) : Out :=
  let k := getLink s l
  if k.st = .train then .next (linkTo s l { k with pol := pol } .align) else .next s

/-- Lanes in a set. -/
def laneCount (m : BitVec 4) : Nat := ((upFrom 0 4).filter fun i => m.getLsbD i).length

/-- The widest width that healthy lanes allow (R306). (DEDUCED, log entry 66) -/
def widthFor (n : Nat) : Nat := if 4 ≤ n then 4 else if 2 ≤ n then 2 else n

/-- An IDENT frame to the partner (R305). -/
def sendIdent (s : State) (l : Nat) : State :=
  let k := getLink s l
  let payload := toBytes (ownDev s) 2 ++ [BitVec.ofNat 8 l, BitVec.ofNat 8 k.width] ++ toBytes (instSlice s 0) 2 ++
    toBytes (regAct s .fab 0x008).toNat 8 ++ [BitVec.ofNat 8 (b2n (isPlane s l))]
  putTx s l { link := none, frame := mkFrame s cTime 0x1C 0xFFFF 0 0 0 payload }

/-- ALIGN_COMPLETE (R302, R304, R306). -/
def execAlignComplete (l : Link) (lmap : Byte) (healthy : BitVec 4) (s : State) : Out :=
  let k := getLink s l
  let w := widthFor (laneCount healthy)
  if k.st = .align ∧ w ≠ 0 then
    let k := { k with lmap := lmap, width := w, tries := 1 }
    if isPlane s l then .next (linkTo s l k .active) else .next (sendIdent (linkTo s l k .ident) l)
  else .next s

/-- The initial credits of a pool, in units of 64 bytes (R312). -/
def poolSize (p : Nat) : Nat := if 6 ≤ p then 128 else if p % 2 = 0 then 2048 else 512

/-- The initial credits of every pool go to the partner (R304, R312). -/
def sendInitialCredits (s : State) (l : Nat) : State :=
  (upFrom 0 8).foldl
    (fun s p => putTx s l { link := none, frame := mkFrame s cTime 0x1D (getLink s l).partner.toNat 0 0 0 (toBytes (poolSize p + p * 4096) 2) }) s

/-- Whether the routing table names another device than `d` on a link (R305). -/
def otherPartner (s : State) (l d : Nat) : Bool :=
  s.reg.routeAct.any fun (k, e) => k != d && k != ownDev s && k != 0xFFFF && bit e.toNat 1 && bits e.toNat 2 6 == l

/-- IDENT (R304, R305). -/
def execIdent (l : Link) (f : Frame) (m : IdentMsg) (s : State) : Out :=
  let k := getLink s l
  if k.st ≠ .ident then .next s
  else if !f.fcsOk || f.version != 1 || f.reservedSet then .next { s with fab.discards := s.fab.discards + 1 }
  else if m.systemId ≠ regAct s .fab 0x008 ∨ otherPartner s l m.dev.toNat = true ∨ m.plane = true then
    .next (linkTo s l (untrained k) .miswired)
  else .next (sendInitialCredits (linkTo s l { k with partner := m.dev, gotPools := [], credits := [] } .credit) l)

/-- The timeout of a training state, in 25 ps units (R304). -/
def linkLimit : LinkState → Option Nat
  | .detect => some 4000000000
  | .train => some 20000000000
  | .align => some 800000000
  | .ident => some 40000000
  | .credit => some 40000000
  | .degrade => some 2000000000
  | _ => none

/-- LINK_TIMEOUT (R304): IDENT is tried 3 times. -/
def execLinkTimeout (l : Link) (s : State) : Out :=
  let k := getLink s l
  match linkLimit k.st with
  | none => .next s
  | some t =>
    if s.now < k.since + t then .next s
    else if k.st = .ident ∧ k.tries < 3 then .next (sendIdent (setLink s l { k with tries := k.tries + 1, since := s.now }) l)
    else .next (toBackoff s l)

/-- LOSS_OF_SIGNAL (R304). -/
def execLossOfSignal (l : Link) (s : State) : Out :=
  let k := getLink s l
  let s := setLink s l { k with signal := false, quietSince := if k.signal then s.now else k.quietSince }
  if k.st = .disabled ∨ k.st = .parked ∨ k.st = .miswired ∨ k.st = .backoff then .next s else .next (toBackoff s l)

/-- LANE_FAULT (R306): to 2 lanes, or from 2 to 1; a plane link only where its switch port supports the width. -/
def execLaneFault (l : Link) (lanes : BitVec 4) (narrowOk : Bool) (s : State) : Out :=
  let k := getLink s l
  if k.st ≠ .active then .next s
  else
    let k := { k with lanes := lanes, fecHigh := true }
    let s := setLink s l k
    if k.width ≤ 1 ∨ (isPlane s l = true ∧ narrowOk = false) then .next (toBackoff s l) else .next (linkTo s l k .degrade)

/-- DEGRADE_DONE (R302, R306): the corrections of the wiring are made again. -/
def execDegradeDone (l : Retrained) (s : State) : Out :=
  let k := getLink s l.link
  if k.st = .degrade then .next (linkTo s l.link { k with width := k.width / 2, pol := l.pol, lmap := l.lmap } .active) else .next s

/-- BACKOFF_END (R304, R307): attempt a has failed, and 2^(a − 1) ms have passed; the jitter of up to a quarter only makes
the wait longer. The link parks when a is MAX_ATTEMPTS, and else begins attempt a + 1. (DEDUCED, log entry 66) -/
def execBackoffEnd (l : Link) (s : State) : Out :=
  let k := getLink s l
  if k.st ≠ .backoff ∨ s.now < k.since + 2 ^ (k.attempts - 1) * 40000000 then .next s
  else if linkCfg s l 4 4 ≤ k.attempts then .next (linkTo s l k .parked)
  else .next (linkTo s l { k with attempts := k.attempts + 1 } .detect)

/-- PARK_EXPIRY (R304). -/
def execParkExpiry (l : Link) (s : State) : Out :=
  let k := getLink s l
  if k.st = .parked ∧ k.since + linkCfg s l 8 8 * 40000000000 ≤ s.now then .next (toDetect s l true) else .next s

end Sys2Proof.Machine
end

