-- ==== Sys2Proof/Machine/OpRun.lean ====
section
/-! DEFINITION. The start and the completion of operations (R226, R227). -/

namespace Sys2Proof.Machine

open Sys2Proof

/-- The exact units that a PASS.X has raised requests at look for work. -/
def kickTiles (s : State) : State := (s.tile.tiles.map Prod.fst).foldl kickExact s

/-- An operation starts: its unit reads the body and the maps, and checks them (R226). `reserved` is the collective
engine that ARM reserved, with T. (DESIGN CHOICE, log entry 70) -/
def startOp (s : State) (e : Nat) (reserved : Option (Nat × Nat)) : State :=
  let o := getOp s e
  let k := o.kind.toNat
  let s := { s with mbx.orderNo := s.mbx.orderNo + 1 }
  let s := setOp s e { o with started := true, startAt := s.now, startNo := s.mbx.orderNo }
  if s.flt.devFence then failStart s e rFenced 0xFFFF
  else if o.body.isEmpty && rangeBad s o.addr.toNat (kindSize k) then failStart s e rMemErr 0xFFFF
  else
    let s :=
      if k = 0x80 then startPass s e false
      else if k = 0x81 then kickTiles (startPass s e true)
      else if k = 0x90 then startDrain s e
      else if k = 0xA0 then startLtn s e true
      else if k = 0xA1 then startLtn s e false
      else if k = 0xB0 then startAttn s e
      else if k = 0xC0 then startSample s e
      else if k < 0xE0 then startXfer s e
      else startColl s e reserved
    bumpFree s

/-- Whether the counter that an operation waits for has reached its target (R226). (DESIGN CHOICE, log entry 70) -/
def waitMet (s : State) (o : Op) : Bool := !bit o.flags.toNat 1 || decide (o.waitVal.toNat ≤ rdNat s o.waitCnt.toNat 8)

/-- Whether 2^30 ns have passed since an operation's issue (R226). -/
def waitOver (s : State) (o : Op) : Bool := decide (o.issued + 2 ^ 30 * 40 ≤ s.now)

/-- OPERATION_START (R226). A counter that cannot be read fails the operation, as does one that comes too late. -/
def execOperationStart (e : OpIx) (s : State) : Out :=
  let o := getOp s e
  if !o.used || o.started || o.launch.isSome || o.result.isSome then .next s
  else if waitOver s o then .next (setResult s e rWaitExpired 0xFFFF)
  else if bit o.flags.toNat 1 && lineBad s o.waitCnt.toNat then .next (setResult s e rMemErr 0xFFFF)
  else if waitMet s o then .next (startOp s e none)
  else .next s

/-- WAIT_EXPIRED (R226). -/
def execWaitExpired (e : OpIx) (s : State) : Out :=
  let o := getOp s e
  if o.used && !o.started && o.launch.isNone && o.result.isNone && waitOver s o then
    .next (setResult s e rWaitExpired 0xFFFF)
  else .next s

/-- An operation completes and leaves its engine (R227). (DESIGN CHOICE, log entry 70) -/
def completeOp (s : State) (e : Nat) : State :=
  match (getOp s e).result with
  | none => s
  | some r => completeWith (releaseColl (releaseXfer (dropReads s e) e) e) e r

/-- OPERATION_COMPLETE (R227). -/
def execOperationComplete (e : OpIx) (s : State) : Out := if opReady s e then .next (completeOp s e) else .next s

end Sys2Proof.Machine
end

