-- ==== Sys2Proof/Machine/Launch.lean ====
section
/-! DEFINITION. Timed launches (R163 to R167, R250, R251, R322): ARM, DISARM, the verdict of a group, dispatch and
outcome. -/

namespace Sys2Proof.Machine

open Sys2Proof

/-! ## ARM and DISARM (R163, R250, R251) -/

/-- Entries of the launch table that count for an instance (R358, R368). -/
def launchesOf (s : State) (inst : Inst) : Nat := (s.time.launches.filter fun (_, l) => l.inst == inst && !l.null_ && l.st != .free).length

/-- The lowest free launch entry. -/
def freeLaunchEntry (s : State) : Option Nat := firstOf (fun i => (getLaunch s i).st == .free) (upFrom 0 1024)

/-- Whether R153 and R154 allow a group launch. (DEDUCED, log entry 69) -/
def groupTimeOk (s : State) : Bool :=
  let b := s.time.belfry
  b.timeValid && !b.unfit && (b.state == .locked || (b.state == .holdover && !b.holdExpired))

/-- The reason for which an ARM is refused, if any (R163, R324). (DEDUCED, log entry 69) -/
def armRefusal (s : State) (t : Nat) (inst : Inst) (kind : Nat) (group : Bool) (at_ : Nat) : Option Byte :=
  if at_ < nsNow s + 8000 then some whyLate
  else if !opAvailable s inst t || (freeLaunchEntry s).isNone || instLaunchq s inst ≤ launchesOf s inst || (0xE0 ≤ kind && (freeColl s).isNone) then some whyFull
  else if !s.time.belfry.timeValid || (group && !groupTimeOk s) then some whyUnfit
  else none

/-- An accepted ARM: both entries are taken, the whole descriptor is read, and an engine is reserved for a
collective. -/
def placeArm (s : State) (t : Tid) (d : GReg) (a at_ : Nat) (group : Bool) (e i : Nat) : State :=
  let n := t.toNat
  let inst := (getThr s n).inst
  let kind := rdNat s a 1
  let s := allocOp s n e a
  let lg := (getOp s e).lgroup
  let s := setOp s e { getOp s e with body := rdBytes s a (kindSize kind), grouped := group, launch := some i }
  let x := if 0xE0 ≤ kind then freeColl s else none
  let s := match x with
    | some k => setColl s k { getColl s k with op := some e }
    | none => s
  let s := setLaunch s i { st := .armed, t := BitVec.ofNat 64 at_, op := e, inst := inst, gen := (getInst s inst).gen
                           group := if group then some lg else none, tag := (getOp s e).tag, engine := x }
  let s := if group then tellCoord s inst lg.toNat kArmed (getOp s e).tag (BitVec.ofNat 64 at_) 0 else s
  bumpFree (retireG s t d (BitVec.ofNat 64 (handle44 e (getOp s e) + i * 2 ^ 44 + 2 ^ 63)))

/-- Why the operation of an ARM.G fails at issue, with its DETAIL: MALFORMED when the record of the group is not valid
(R323), and PEER_REFUSED when the instance may not reach a device to which it is to send a message of the launch (R315,
R317). (DEDUCED, log entry 69) -/
def groupFault (s : State) (inst : Inst) (g : Nat) : Option (Byte × Nat) :=
  match groupRec s inst g with
  | none => some (rMalformed, 0xFFFF)
  | some r =>
    let to_ := if r.rank = r.coord then r.members else [nth 0xFFFF r.members r.coord]
    (firstOf (fun d : W16 => d.toNat != ownDev s && !reaches s (instSlice s inst) d.toNat) to_).map fun d => (rPeerRefused, d.toNat)

/-- ARM.G whose operation fails at issue. (DEDUCED, log entry 69) -/
def badGroupArm (s : State) (t : Tid) (d : GReg) (a e : Nat) (r : Byte) (detail : Nat) : State :=
  let s := allocOp s t.toNat e a
  let s := setResult (setOp s e { getOp s e with started := true }) e r detail
  bumpFree (retireG s t d (opHandle s e))

/-- ARM or ARM.G (R163, R250). -/
def issueArm (s : State) (t : Tid) (g : Guard) (d a b : GReg) (group : Bool) : State :=
  let upper := upperWord 0x2B g d.toNat a.toNat b.toNat 0
  issuePlain s t g 0x2B upper fun s =>
    let n := t.toNat
    let s := release s n
    let th := getThr s n
    let inst := th.inst
    let x := (gRd th a).toNat
    let at_ := (gRd th b).toNat
    let kind := if inInst s inst x 64 && !lineBad s x then rdNat s x 1 else 0x80
    match headerFault s inst x kind upper (fun lg => (lg != 0) == group) with
    | some (code, addr, info) => except s n code addr info
    | none =>
      if !kindKnown kind || kind == 0xA0 || kind == 0xA1 || kind == 0xC0 || bit (rdNat s (x + 1) 1) 1 then
        except s n 0x01 (BitVec.ofNat 64 x) upper
      else
        let lg := rdNat s (x + 2) 2
        match armRefusal s n inst kind group at_ with
        | some why =>
          let s := if group then tellCoord s inst lg kNotArmed (BitVec.ofNat 32 (rdNat s (x + 4) 4)) (BitVec.ofNat 64 at_) why else s
          bumpFree (retireG s t d (BitVec.ofNat 64 why.toNat))
        | none =>
          match freeOpEntry s, freeLaunchEntry s with
          | some e, some i =>
            (match (if group then groupFault s inst lg else none) with
             | some (r, detail) => badGroupArm s t d x e r detail
             | none => placeArm s t d x at_ group e i)
          | _, _ => s

def execArm (t : Tid) (g : Guard) (d a b : GReg) (s : State) : Out := .next (issueArm s t g d a b false)

def execArmG (t : Tid) (g : Guard) (d a b : GReg) (s : State) : Out := .next (issueArm s t g d a b true)

/-- The ARMED entry of an instance that a handle names, if any (R251). -/
def armedBy (s : State) (inst : Inst) (h : Nat) : Option Nat :=
  let i := bits h 44 10
  let l := getLaunch s i
  if bit h 63 && bits h 54 9 == 0 && l.st == .armed && !l.null_ && l.inst == inst && l.op == h % 4096 &&
      (getOp s l.op).seq.toNat == bits h 12 32 then some i else none

/-- An entry is disarmed (R164): the operation-table entry is free, and the operation completes at T or with the
outcome. (DEDUCED, log entry 69) -/
def disarmEntry (s : State) (i : Nat) : State :=
  let l := getLaunch s i
  let o := getOp s l.op
  let s := freeReserved s l
  let s := setLaunch s i { l with st := .missed, reason := whyDisarmed, held := some o, engine := none }
  let s := serveOpWaiter { s with op.table := tabDel s.op.table l.op } l.inst
  match l.group with
  | some g => tellCoord s l.inst g.toNat kNotArmed l.tag l.t whyDisarmed
  | none => s

/-- DISARM (R164, R251). -/
def execDisarm (t : Tid) (g : Guard) (d a : GReg) (s : State) : Out :=
  .next (issuePlain s t g 0x2C (upperWord 0x2C g d.toNat a.toNat 0 0) fun s =>
    let th := getThr s t.toNat
    match armedBy s th.inst (gRd th a).toNat with
    | none => retireG s t d 2
    | some i =>
      if (getLaunch s i).t.toNat ≤ nsNow s + 8000 then retireG s t d 1
      else retireG (disarmEntry s i) t d 0)

/-! ## Messages of a launch (R166, R167) -/

/-- The entries of this device that take part in a group launch. -/
def memberEntries (s : State) (slice : Nat) (m : LaunchMsg) : List (Nat × Launch) :=
  s.time.launches.filter fun (_, l) => l.group == some m.group && l.tag == m.tag && l.t == m.t && instSlice s l.inst == slice

/-- ARMED (R166): a member with another member list fails the coordinator's own operation (R323). -/
def execArmed (l : Link) (f : Frame) (m : LaunchMsg) (s : State) : Out :=
  .next (receive s l f fun s =>
    let sl := f.slice.toNat
    let s := openGroup s sl m
    match findGroup s sl m with
    | none => s
    | some n =>
      match s.time.groups.drop n with
      | [] => s
      | g :: _ =>
        let crc := match groupRec s g.inst g.group.toNat with
          | some r => r.crc
          | none => m.listCrc
        if crc = m.listCrc then hearMember s sl m (noteArmed m.rank)
        else
          let s := hearMember s sl m (noteRefused m.rank whyMalformed)
          (memberEntries s sl m).foldl (fun s (i, x) => if x.st = .armed then missEntry s i whyMalformed rMalformed else s) s)

/-- NOT_ARMED (R166). -/
def execNotArmed (l : Link) (f : Frame) (m : LaunchMsg) (s : State) : Out :=
  .next (receive s l f fun s => hearMember s f.slice.toNat m (noteRefused m.rank m.reason))

/-- A verdict reaches the entries of this device; it acts at the verdict deadline. (DEDUCED, log entry 69) -/
def giveVerdict (s : State) (slice : Nat) (m : LaunchMsg) (go : Bool) : State :=
  (memberEntries s slice m).foldl
    (fun s (i, x) => if x.st = .armed ∧ x.verdict = none then setLaunch s i { x with verdict := some go } else s) s

/-- GO (R166). -/
def execGo (l : Link) (f : Frame) (m : LaunchMsg) (s : State) : Out :=
  .next (receive s l f fun s => giveVerdict s f.slice.toNat m true)

/-- NOGO (R166). -/
def execNogo (l : Link) (f : Frame) (m : LaunchMsg) (s : State) : Out :=
  .next (receive s l f fun s => giveVerdict s f.slice.toNat m false)

/-- NO_VERDICT (R166): the coordinator counts the member as one that did not dispatch. -/
def execNoVerdict (l : Link) (f : Frame) (m : LaunchMsg) (s : State) : Out :=
  .next (receive s l f fun s => hearMember s f.slice.toNat m (noteMissing m.rank))

/-- The outcome reaches an entry (R166 step 6, R167, R326): it goes to the operation's status, and a collective under
PARTIAL or UNKNOWN loses a member. -/
def giveOutcome (s : State) (i : Nat) (oc : BitVec 2) (missing : Nat) : State :=
  let l := getLaunch s i
  if l.outcome.isSome then s
  else
    let s := setLaunch s i { l with outcome := some oc }
    if l.null_ then (if l.st = .dispatched ∨ l.st = .missed then freeLaunch s i else s)
    else if l.held.isSome then finishHeld s i
    else
      let o := getOp s l.op
      let s := setOp s l.op { o with outcome := some oc, countB := if oc = 2 ∧ o.kind.toNat < 0xE0 then missing else o.countB }
      if oc = 2 ∨ oc = 3 then
        match collOf s l.op with
        | some _ => releaseColl (memberLost s l.op (if oc = 2 then missing else 0)) l.op
        | none => s
      else s

/-- OUTCOME (R166, R167). -/
def execOutcome (l : Link) (f : Frame) (m : LaunchMsg) (s : State) : Out :=
  .next (receive s l f fun s =>
    (memberEntries s f.slice.toNat m).foldl (fun s (i, _) => giveOutcome s i m.outcome m.missing) s)

/-! ## The deadlines (R165 to R167) -/

/-- The message of a coordinator about a group launch. -/
def groupMsg (g : GroupLaunch) (oc : BitVec 2) (missing : Nat) : LaunchMsg :=
  { tag := g.tag, group := g.group, t := g.t, reason := g.reason, rank := g.rank, listCrc := 0, outcome := oc, missing := missing }

/-- One frame to each other member. -/
def tellMembers (s : State) (g : GroupLaunch) (kind : Nat) (m : LaunchMsg) : State :=
  ((upFrom 0 g.members.length).filter fun r => r != g.rank).foldl
    (fun s r => sendLaunch s g.inst (nth 0xFFFF g.members r).toNat kind m) s

/-- COMMIT_POINT (R166 step 2). -/
def execCommitPoint (i : Nat) (s : State) : Out :=
  match s.time.groups.drop i with
  | [] => .next s
  | g :: _ =>
    if g.go.isSome ∨ nsNow s + 3000 < g.t.toNat then .next s
    else
      let go := (upFrom 0 g.members.length).all fun r => g.armed.contains r
      let m := groupMsg g 0 0
      let s := setGroup s i { g with go := some go }
      .next (giveVerdict (tellMembers s g (if go then kGo else kNogo) m) (instSlice s g.inst) m go)

/-- VERDICT_DEADLINE (R166 step 3). -/
def execVerdictDeadline (i : LaunchIx) (s : State) : Out :=
  let l := getLaunch s i
  match l.group with
  | none => .next s
  | some g =>
    if l.st ≠ .armed ∨ nsNow s + 1000 < l.t.toNat then .next s
    else match l.verdict with
      | some true => .next (setLaunch s i { l with st := .committed })
      | some false => .next (missEntry s i whyNogo rNogo)
      | none => .next (tellCoord (missEntry s i whyNoVerdict rNoVerdict) l.inst g.toNat kNoVerdict l.tag l.t whyNoVerdict)

/-- An entry whose instant has come: a local one that is ARMED, or a COMMITTED one. (DEDUCED, log entry 69) -/
def dispatchable (l : Launch) : Bool := (l.st == .armed && l.group.isNone) || l.st == .committed

/-- LAUNCH_DISPATCH (R165, R157): at T + 32 ns, after the values of an epoch boundary at T have applied. The operation
of a missed local entry completes at T. An entry armed under a device fence that still stands does not dispatch. -/
def execLaunchDispatch (i : LaunchIx) (s : State) : Out :=
  let l := getLaunch s i
  if l.held.isSome ∧ l.group = none ∧ l.t.toNat ≤ nsNow s then .next (finishHeld s i)
  else if !dispatchable l || decide (nsNow s < l.t.toNat + 32) || s.time.belfry.boundary.isSome then .next s
  else if s.flt.devFence && decide (s.flt.fenceNs < l.t.toNat) then .next (fenceEntry s i)
  else if l.null_ then .next (setLaunch s i { l with st := .dispatched })
  else .next (startOp (setLaunch s i { l with st := .dispatched }) l.op (l.engine.map fun x => (x, l.t.toNat)))

/-- A member that did not dispatch is a failed device to the coordinator (R167): the operations with frames for it, and
the collectives that it is a member of, lose it (R313, R326). (DEDUCED, log entry 69) -/
def deviceFailed (s : State) (d : Nat) : State :=
  let es := (s.op.table.filter fun (e, _) => match collOf s e with
    | some w => w.members.any fun m => m.toNat == d
    | none => false).map Prod.fst
  loseDest s d ((s.fab.unacked.filter fun c => c.dst.toNat == d).filterMap (·.op) ++ es).eraseDups

/-- Members that the coordinator finds not to have dispatched after GO (R167): those that had no verdict, and those
that it cannot reach. (DEDUCED, log entry 69) -/
def notDispatched (s : State) (g : GroupLaunch) : List Nat :=
  (upFrom 0 g.members.length).filter fun r =>
    g.missing.contains r || (r != g.rank && (pathTo s (nth 0xFFFF g.members r).toNat 0).isNone)

/-- OUTCOME_SEND (R166 step 5, R167). -/
def execOutcomeSend (i : Nat) (s : State) : Out :=
  match s.time.groups.drop i with
  | [] => .next s
  | g :: _ =>
    if nsNow s < g.t.toNat + 5000 then .next s
    else
      let gone := notDispatched s g
      let lost := gone.length
      let oc : BitVec 2 := if g.go = some true then (if lost = 0 then 0 else if lost = g.members.length then 1 else 2) else 1
      let m := groupMsg g oc (if oc = 2 then lost else 0)
      let sl := instSlice s g.inst
      let s := tellMembers { s with time.groups := s.time.groups.eraseIdx i } g kOutcome m
      let s := (memberEntries s sl m).foldl (fun s (k, _) => giveOutcome s k oc m.missing) s
      .next (if g.go = some true then
          (gone.filter fun r => r != g.rank).foldl (fun s r => deviceFailed s (nth 0xFFFF g.members r).toNat) s
        else s)

/-- OUTCOME_DEADLINE (R167): UNKNOWN. -/
def execOutcomeDeadline (i : LaunchIx) (s : State) : Out :=
  let l := getLaunch s i
  if l.st ≠ .free ∧ l.group.isSome = true ∧ l.outcome = none ∧ l.t.toNat + 6500 ≤ nsNow s then .next (giveOutcome s i 3 0) else .next s

end Sys2Proof.Machine
end

