-- ==== Sys2Proof/Machine/Faults.lean ====
section
/-! DEFINITION. Faults of units (R375 to R377, R389 to R394), and errors of stacked memory (R335, R336). -/

namespace Sys2Proof.Machine

open Sys2Proof

/-! ## Stacks (R335, R336, R391) -/

/-- Whether a range of device addresses has a byte on a stack. -/
def touchesStack (a n k : Nat) : Bool :=
  n != 0 && (upFrom (a / 0x8000) (min 8 ((a + n - 1) / 0x8000 - a / 0x8000 + 1))).any fun x => x % 8 == k

/-- Whether an image is in force in a tile: its slot is the current one of a logical array. -/
def imageInForce (s : State) (k : Nat) : Bool :=
  s.tile.tiles.any fun (_, t) => t.image == some k || t.curSlot.any fun (_, x) => x == k

/-- The plaintext of the images on a stack is lost; each image in force has its record (R391). (DESIGN CHOICE, log entry 71) -/
def loseImages (s : State) (k : Nat) : State :=
  s.img.images.foldl
    (fun s (n, i) =>
      if touchesStack i.base i.size k && !i.lost then
        let s := { s with img.images := tabPut s.img.images n { i with lost := true } }
        if imageInForce s n then
          emit s evImage actFenced none (unitOf 8 k) (toBytes 0 1 ++ toBytes 4 1 ++ [0, 0] ++ toBytes i.imageId.toNat 8)
        else s
      else s) s

/-- The context of a thread in the context region (R329, R396). -/
def threadCtx (t : Nat) : Nat := ctxBase + t * 1024

/-- Whether the context or the code of a thread lies on a stack (R391). -/
def threadOn (t : Nat) (th : Thread) (k : Nat) : Bool :=
  stackOf (threadCtx t) == k || (isStacked th.pc.toNat && stackOf th.pc.toNat == k)

/-- Completion counters on a stack for which threads wait. -/
def waitedOn (s : State) (k : Nat) : List Nat :=
  (((s.mbx.threads.filter fun (_, th) => th.wait == .counter).map fun (_, th) => th.waitArg.toNat).filter
    fun a => isStacked a && stackOf a == k).eraseDups

/-- A stack is fenced (R336, R391): its content is lost, waits for its counters end, and the threads whose
context or code lay there are to be restarted. (DESIGN CHOICE, log entry 71) -/
def fenceStack (s : State) (k : Nat) (action : Byte) (cause src : Nat) : State :=
  let s := emitFenced s (unitOf 8 k) action cause src
  let s := setStack s k { getStack s k with fenced := true }
  let s := loseImages s k
  let s := (waitedOn s k).foldl (failCounter counterAdd) s
  let ts := (s.mbx.threads.filter fun (t, th) => live th && threadOn t th k).map Prod.fst
  ts.foldl (fun s t => restartThr s t 0x05 0 (BitVec.ofNat 32 k)) s

/-- A corrected error (R335): it is counted, and a second one in the row within 24 h has the row repaired. (DESIGN CHOICE, log entry 71) -/
def correctedError (s : State) (a : Nat) : State :=
  let k := stackOf a
  let v := getStack s k
  let row := Config.rowOf (a / 64)
  let again := tabHas v.rows row && decide (s.now ≤ tabGet 0 v.rows row + 86400 * 40000000000)
  let s := setStack s k { v with corrected := v.corrected + 1, rows := tabPut v.rows row s.now, ppr := v.ppr || again }
  if again then emitMemory s actNone none a 3 else s

/-- An uncorrectable error (R335): the line is poisoned, with one record for it. (DESIGN CHOICE, log entry 71) -/
def poisonLine (s : State) (a : Nat) : State :=
  if s.mem.poison.contains (a / 64) then s
  else emitMemory { s with mem.poison := a / 64 :: s.mem.poison } actNone none a 2

/-- PATROL_SCRUB (R335): a line is read. -/
def execPatrolScrub (a : W64) (r : ScrubResult) (s : State) : Out :=
  if !isStacked a.toNat || (getStack s (stackOf a.toNat)).fenced then .next s
  else match r with
    | .clean => .next s
    | .corrected => .next (correctedError s a.toNat)
    | .uncorrectable => .next (poisonLine s a.toNat)

/-! ## Engines of the Dome (R389) -/

/-- An attention engine is fenced: its pages go to other engines at their next block (R254). -/
def fenceAttn (s : State) (n : Nat) (action : Byte) (cause src : Nat) : State :=
  let s := emitFenced s (unitOf 5 n) action cause src
  { s with op.attnFenced := s.op.attnFenced ||| BitVec.ofNat 8 (2 ^ n) }

/-- A transfer engine is fenced, and its operations move (R340, R389); the window ends once they have moved. -/
def faultXfer (s : State) (x : Nat) (cause : Nat) : State :=
  let s := emitFenced s (unitOf 6 x) actFenced cause 0
  let s := if (assignedTo s x).isEmpty then s else openWindow s (unitOf 6 x) none
  fenceXfer s x

/-- A collective engine is fenced, and the collective it held ends (R389). -/
def faultColl (s : State) (n : Nat) (cause : Nat) : State := fenceColl (emitFenced s (unitOf 9 n) actFenced cause 0) n

/-- The sampler unit is fenced (R389). -/
def faultSampler (s : State) (cause : Nat) : State :=
  { emitFenced s (unitOf 9 7) actFenced cause 0 with op.samplerFenced := true }

/-- A link fails (R306, R389): it is trained again, and its window is open until it is ACTIVE or PARKED. -/
def faultLink (s : State) (l : Nat) : State :=
  if (getLink s l).st = .active ∨ (getLink s l).st = .degrade then toBackoff (openWindow s (unitOf 7 l) none) l else s

/-! ## The casebook (R389, R394) -/

/-- Whether a unit is fenced itself, or by its tile or its Spire. -/
def unitFenced (s : State) (u : UnitId) : Bool :=
  let n := u.num.toNat
  (match unitSpire u with
    | some k => s.flt.spireFenced.getLsbD k
    | none => false) ||
    match u.kind.toNat with
    | 0 => bit s.flt.devFenceWhy 0
    | 2 | 3 => (getTile s (unitPhys u)).fenced
    | 4 => (getCore s n).fenced
    | 5 => s.op.attnFenced.getLsbD n
    | 6 => (getXfer s n).fenced
    | 8 => (getStack s n).fenced
    | 9 => if n = 7 then s.op.samplerFenced else (getColl s n).fenced
    | _ => false

/-- Whether a unit number names a unit that can fail (R385). -/
def unitExists (u : UnitId) : Bool :=
  let n := u.num.toNat
  match u.kind.toNat with
  | 0 => n == 0
  | 1 => n < 4
  | 2 => unitPhys u % 264 == bits n 16 9 && n % 2 ^ 16 == 0 && n < 2 ^ 27
  | 3 => unitPhys u % 264 == bits n 16 9 && n % 2 ^ 16 < 68 && n < 2 ^ 27
  | 4 => n < 256
  | 5 => n < 8
  | 6 => n < 32
  | 7 => n < 36
  | 8 => n < 8
  | 9 => n < 4 || n == 7
  | _ => false

/-- What a fault of a unit outside every window leads to. -/
def containFault (s : State) (u : UnitId) (cause : Nat) : State :=
  let n := u.num.toNat
  match u.kind.toNat with
  | 0 => fenceDevice s actFenced cause 0
  | 1 => fenceSpire s n actFenced cause 0
  | 2 => fenceTile s (unitPhys u) actFenced cause 0
  | 4 => faultCore s n []
  | 5 => fenceAttn s n actFenced cause 0
  | 6 => faultXfer s n cause
  | 7 => faultLink s n
  | 8 => fenceStack s n actFenced cause 0
  | 9 => if n = 7 then faultSampler s cause else faultColl s n cause
  | _ => s

/-- A hard fault of a unit (R389, R394): contained by the casebook, or escalated. A unit that is fenced already
has no further fault. The passes of a failed array run by substitution (R76). -/
def hardFault (s : State) (u : UnitId) (cause : Nat) : State :=
  if !unitExists u || unitFenced s u then s
  else if u.kind.toNat = 3 then
    let p := unitPhys u
    let a := u.num.toNat % 2 ^ 16
    if (arrOf s p a).st ≠ .active then s
    else
      let t := getTile s p
      let mine := t.flight.filter fun f => f.phys == some a
      let s := setTile s p { t with flight := t.flight.filter fun f => f.phys != some a }
      let s := mine.foldl (fun s f => noteSubst (queueExact s p .substitution (movedFlight s ((logTile s p).getD 0) t f)) f.req.op) s
      kickExact (arrayFault s p a 3) p
  else match windowHit s u with
    | some w => escalate s w u
    | none => containFault s u cause

/-- A fence that the Keep asks for (R76, R484 cause 0x05): an array that is ACTIVE drains to FENCED, another unit is fenced
as after a fault. (DEDUCED, log entry 41) -/
def keepFence (s : State) (u : UnitId) : State :=
  if u.kind.toNat = 3 then
    let p := unitPhys u
    let a := u.num.toNat % 2 ^ 16
    if !unitExists u || (arrOf s p a).st != .active then s
    else
      let s := moveArr s p a .draining 4 actFenced
      setArrOf s p a { arrOf s p a with toFence := true }
  else hardFault s u 5

/-- UNIT_HARD_FAULT (R389): the Keep finds a hard fault of a unit, or asks for its fence without one. -/
def execUnitHardFault (u : HardFault) (s : State) : Out :=
  .next (if u.asked then keepFence s u.unit else hardFault s u.unit 1)

/-- TRANSFER_ENGINE_FAULT (R340, R389). -/
def execTransferEngineFault (x : Fin 32) (s : State) : Out := .next (hardFault s (unitOf 6 x) 1)

/-- CORE_FAULT (R188, R20, R389): the entries that fail their residue are discarded. -/
def execCoreFault (c : Fin 256) (bad : List Nat) (s : State) : Out :=
  let u := unitOf 4 c
  if unitFenced s u then .next s
  else match windowHit s u with
    | some w => .next (escalate s w u)
    | none => .next (faultCore s c bad)

/-! ## Residue errors (R376, R377) -/

/-- Whether an error comes within 1 s of the last one of its unit. -/
def secondError (s : State) (last : Tab Nat) (k : Nat) : Bool := tabHas last k && decide (s.now ≤ tabGet 0 last k + 40000000000)

/-- A residue error of a tile's unit is noted; the answer says whether it is the second one. -/
def tileResidue (s : State) (p k : Nat) : State × Bool :=
  let t := getTile s p
  (setTile s p { t with lastResidue := tabPut t.lastResidue k s.now }, secondError s t.lastResidue k)

/-- A residue error of a Dome unit is noted. -/
def domeResidue (s : State) (k : Nat) : State × Bool :=
  ({ s with op.lastResidue := tabPut s.op.lastResidue k s.now }, secondError s s.op.lastResidue k)

/-- The record of a residue error that is retried, or that is the second of its unit. -/
def residueRecord (s : State) (u : UnitId) (inst : Option Inst) (stage handle ix : Nat) (again : Bool) : State :=
  if again then emitResidue s u actFenced inst stage 1 handle ix else emitResidue s u actRetried inst stage 0 handle ix

/-- The handle of the operation of a pass. -/
def flightHandle (f : Flight) : Nat := f.req.op + f.req.seq.toNat * 2 ^ 12

/-- A residue error of a tile's accumulator, lanes or exact unit: retried, then a fault of the tile. -/
def tileUnitResidue (s : State) (t : TileId) (key stage : Nat) (f : Option Flight) : State :=
  let p := t.spire.val * 264 + t.tile.val
  if unitFenced s (unitTile p) then s
  else
    let (s, again) := tileResidue s p key
    let s := residueRecord s (unitTile p) (f.map fun f => f.req.inst) stage ((f.map flightHandle).getD 0) 0 again
    if again then hardFault s (unitTile p) 2 else s

/-- A residue error in the readout path of an array: the oldest pass on it is substituted (R68), and a second error
is a fault of the array. -/
def readoutResidue (s : State) (t : TileId) (a : Nat) : State :=
  let p := t.spire.val * 264 + t.tile.val
  match firstOf (fun f : Flight => f.phys == some a) (getTile s p).flight with
  | none => s
  | some f =>
    let tl := getTile s p
    let s := setTile s p { tl with flight := tl.flight.map fun x => if x == f then { x with fail := true } else x }
    let (s, again) := tileResidue s p a
    let hard := again && (arrOf s p a).st == .active
    let s := emitResidue s (unitArray p a) (if hard then actFenced else actSubstituted) (some f.req.inst) 1 (if hard then 1 else 2)
      (flightHandle f) 0
    if hard then hardFault s (unitArray p a) 2 else s

/-- A residue error of a Dome unit: the work runs again, and a second error is a fault of the unit. -/
def domeUnitResidue (s : State) (u : UnitId) (key stage : Nat) (e : Option Nat) (ix : Nat) : State :=
  if unitFenced s u then s
  else
    let (s, again) := domeResidue s key
    let s := residueRecord s u (e.map fun e => (getOp s e).inst) stage ((e.map fun e => handle44 e (getOp s e)).getD 0) ix again
    if again then hardFault s u 2 else s

/-- A Lantern slot in use comes to hold another value than was written to it (R94). -/
def upsetSlot (s : State) (p k : Nat) (v : W64) : State :=
  let t := getTile s p
  match firstOf (fun (n, _) => n == k) t.ltn with
  | some (_, x) => setTile s p { t with ltn := tabPut t.ltn k { x with entry := v } }
  | none => s

/-- RESIDUE_ERROR (R376, R377, R94). (DEDUCED, log entry 75) -/
def execResidueError (r : ResidueSite) (s : State) : Out :=
  match r with
  | .readout t a => .next (readoutResidue s t a)
  | .accumulator t => .next (tileUnitResidue s t 101 2 none)
  | .lanes t => .next (tileUnitResidue s t 102 3 none)
  | .exact t =>
    match (getTile s (t.spire.val * 264 + t.tile.val)).exactBusy with
    | some x => .next (tileUnitResidue s t 100 4 (some x.flight))
    | none => .next s
  | .ltnSlot t k v => .next (upsetSlot s (t.spire.val * 264 + t.tile.val) k v)
  | .overflow t i =>
    let p := t.spire.val * 264 + t.tile.val
    .next (setTile s p { getTile s p with upset := i :: (getTile s p).upset.filter (· != i) })
  | .attention n => .next (domeUnitResidue s (unitOf 5 n) n 5 ((attnHolder s n).map Prod.fst) (((attnHolder s n).map Prod.snd).getD 0))
  | .sampler n => .next (domeUnitResidue s (unitOf 9 7) 16 6 ((laneHolder s n).map Prod.fst) (((laneHolder s n).map Prod.snd).getD 0))
  | .collective n => .next (domeUnitResidue s (unitOf 9 n) (32 + n.val) 7 (getColl s n).op 0)

end Sys2Proof.Machine
end

