-- ==== Sys2Proof/Machine/Power.lean ====
section
/-! DEFINITION. Supplies (R399 to R404), power domains (R405 to R409), and what a loss of power leaves (R188, R402,
R475). -/

namespace Sys2Proof.Machine

open Sys2Proof

/-- The Keep as a unit of a record. -/
def unitKeep : UnitId := unitOf 0xE 0

def getDom (s : State) (d : Nat) : Dom := tabGet .off s.pwr.domains d
def setDom (s : State) (d : Nat) (v : Dom) : State :=
  { s with
    pwr.domains := tabPut s.pwr.domains d v
    pwr.domAt := tabPut s.pwr.domAt d s.now }

/-- A domain that is off starts. -/
def startDom (s : State) (d : Nat) : State := if getDom s d = .off then setDom s d .starting else s

/-! ## Metrology channels that end (R422, R433) -/

/-- A host channel ends: its counter is added (R433). `k` is converter × 8 + channel. -/
def endChan (s : State) (k err : Nat) : State :=
  let c := tabGet ({} : Chan) s.met.chans k
  if !c.running then s
  else
    let s := { s with
      met.chans := tabPut s.met.chans k { c with running := false, err := BitVec.ofNat 8 err, raised := false, stopping := false }
      met.mets := tabMap (fun x m => if x = k / 8 ∧ m.holder = some (Fin.ofNat 8 k) then { m with holder := none } else m) s.met.mets }
    if c.doneCnt = 0 then s else counterAdd s c.doneCnt.toNat 1

/-- Domain 46 goes off: every running channel stops with MET_POWER, and no converter is held (R422). -/
def stopChans (s : State) : State :=
  let s := (s.met.chans.map Prod.fst).foldl (fun s k => endChan s k 3) s
  { s with met.mets := tabMap (fun _ m => { m with holder := none, input := none }) s.met.mets }

/-! ## Requests (R407, R409) -/

/-- The domains on which a domain depends (R407). -/
def domDeps (d : Nat) : List Nat :=
  if d < 28 ∧ d % 7 < 4 then [d / 7 * 7 + 6, d / 7 * 7 + 4] else if 28 ≤ d ∧ d < 44 then [44] else []

/-- The tiles of a field domain. (DEDUCED, log entry 44) -/
def fieldTiles (d : Nat) : List Nat := upFrom (d / 7 * 264 + d % 7 * 66) 66

/-- Whether an image is in force or on its way in (R115). -/
def imageHeld (s : State) : Bool := !s.img.images.isEmpty

/-- Whether any thread lives. -/
def anyThread (s : State) : Bool := s.mbx.threads.any fun (_, th) => live th

/-- Whether a region of stacked memory is in use (R407): user memory that an instance holds, an image slot, or the
contexts of threads. (DEDUCED, log entry 44) -/
def memoryInUse (s : State) : Bool := (upFrom 0 32).any (fun i => (userRanges s i).any fun (_, z, _) => z != 0) || imageHeld s || anyThread s

/-- Whether a domain holds work admitted, or what R20, R188 and R407 name (PWR_BUSY). (DEDUCED, log entry 44) -/
def domWorks (s : State) (d : Nat) : Bool :=
  if d < 28 then
    if d % 7 < 4 then (fieldTiles d).any fun p =>
      let t := getTile s p
      (t.loaded && (logTile s p).isSome) || !t.flight.isEmpty || t.pv.isSome
    else d % 7 == 5 && s.mbx.threads.any fun (_, th) => th.pin && th.slot.any fun k => k / 1024 == d / 7
  else if d < 36 then memoryInUse s
  else if d < 42 then s.fab.tx.any fun x => x.link.any fun l => l.val / 6 == d - 36
  else if d = 42 then !s.host.reqs.isEmpty
  else if d = 43 then !(runningOps s fun o => match o.work with
    | .attn _ | .sample _ => true
    | .coll w => w.engine.isSome
    | _ => false).isEmpty
  else if d = 44 then !s.op.table.isEmpty || anyThread s
  else d == 45 && s.img.load.isSome

/-- Whether another domain that is on depends on a domain (PWR_DEPEND). (DEDUCED, log entry 44) -/
def domNeeded (s : State) (d : Nat) : Bool :=
  ((upFrom 0 47).any fun x => getDom s x != .off && (domDeps x).contains d) || (d == 45 && imageHeld s)

/-- A request is refused, with its reason in ERR and a POWER record (R407). (DEDUCED, log entry 44) -/
def domRefuse (s : State) (d code : Nat) : State :=
  emitPower { s with pwr.domErr := BitVec.ofNat 8 code } actRefused unitKeep 6 d 0 0 code

/-- A domain goes off, with what that does to its units. -/
def dropDom (s : State) (d : Nat) : State :=
  let s := setDom s d .off
  if d < 28 then
    if d % 7 < 4 then (fieldTiles d).foldl
      (fun s p => if (getTile s p).fenced then s else setTile s p { getTile s p with fenced := true, fenceWhy := 2 }) s
    else if d % 7 = 5 then (spireThreads s (d / 7)).foldl (fun s t => if (getThr s t).slot.isSome then displace s t else rehome s t) s
    else s
  else if d < 36 then setStack { s with
      mem.cells := s.mem.cells.filter fun (a, _) => stackOf a != d - 28
      mem.poison := s.mem.poison.filter fun l => stackOf (l * 64) != d - 28 } (d - 28) { getStack s (d - 28) with zeroed := false }
  else if d < 42 then (upFrom (6 * (d - 36)) 6).foldl toDisabled s
  else if d = 42 then { s with host.linkUp := false }
  else if d = 46 then stopChans s
  else s

/-- A request to switch a domain off. -/
def domOffReq (s : State) (d : Nat) : State :=
  if getDom s d = .off then { s with pwr.domErr := 0 }
  else if domWorks s d then domRefuse s d 1
  else if domNeeded s d then domRefuse s d 2
  else dropDom { s with pwr.domErr := 0 } d

/-- The domain of the request in progress starts once those on which it depends are usable, and the request ends once
it is usable itself. -/
def domProgress (s : State) : State :=
  match s.pwr.domBusy with
  | none => s
  | some d =>
    if getDom s d = .usable then { s with pwr.domBusy := none }
    else if (domDeps d).all (domUsable s) then startDom s d else s

/-- A request to switch a domain on: those on which it depends start first. -/
def domOnReq (s : State) (d : Nat) : State :=
  if s.pwr.trip then domRefuse s d 4
  else domProgress ((domDeps d).foldl startDom { s with pwr.domErr := 0, pwr.domBusy := some d })

/-- A write of DOMAIN_CTL with an OP (R409): ignored while a request is in progress. A number above 46 names an
always-on domain and leaves DOMAIN as it is (R407, R448). -/
def domainCtl (s : State) (by_ : Requester) (d : Nat) (on : Bool) : State :=
  orderTo s by_ .pwr fun s =>
    let s := if d < 47 then setFld s .pwr 0x008 0 6 d else s
    if !s.keep.running || s.pwr.domBusy.isSome then s
    else if 47 ≤ d then domRefuse s d 3
    else if on then domOnReq s d else domOffReq s d

/-- DOMAIN_ON (R407 to R409). -/
def execDomainOn (by_ : Requester) (d : BitVec 6) (s : State) : Out := .next (domainCtl s by_ d.toNat true)
/-- DOMAIN_OFF (R20, R407 to R409). -/
def execDomainOff (by_ : Requester) (d : BitVec 6) (s : State) : Out := .next (domainCtl s by_ d.toNat false)

/-! ## Bringing up (R408) -/

/-- Whether a field holds a logical tile of the tile maps. -/
def fieldMapped (s : State) (d : Nat) : Bool := (fieldTiles d).any fun p => (logTile s p).isSome

/-- The domains of a group of R408; group 5 is taken in two parts. -/
def groupDoms (s : State) (g : Nat) : List Nat :=
  match g with
  | 1 => [46, 45, 44]
  | 2 => upFrom 28 8 ++ [42]
  | 3 => (upFrom 0 4).flatMap fun n => [7 * n + 6, 7 * n + 4, 7 * n + 5]
  | 4 => ((upFrom 0 4).flatMap fun n => upFrom (7 * n) 4).filter (fieldMapped s)
  | 5 => [43]
  | 6 => (upFrom 36 6).filter fun d => (upFrom (6 * (d - 36)) 6).any fun l => linkCfg s l 0 1 == 1
  | _ => []

/-- A group starts once every domain of the one before is usable. -/
def advanceUp : Nat → State → State
  | 0, s => s
  | fuel + 1, s =>
    let g := s.pwr.bringUp
    if g = 0 then s
    else if (groupDoms s g).all (domUsable s) then
      if g = 6 then { s with pwr.bringUp := 0 }
      else advanceUp fuel ((groupDoms s (g + 1)).foldl startDom { s with pwr.bringUp := g + 1 })
    else s

/-- The Keep brings up the domains, once P48 is in range and the trip latch is clear (R399, R402, R418). -/
def beginUp (s : State) : State :=
  if s.keep.running && s.pwr.p48ok && !s.pwr.trip then
    advanceUp 7 ((groupDoms s 1).foldl startDom { s with pwr.bringUp := 1 })
  else s

/-- What a domain that has become usable sets going: tile fences of a switch-off are lifted (R20), the calibration
sweep of a field begins (R469 step 11), the cores of a Spire start (R180), links train (R304), and the host interface trains unless PERST_N is low (R470). -/
def domComes (s : State) (d : Nat) : State :=
  if d < 28 ∧ d % 7 < 4 then (fieldTiles d).foldl
    (fun s p =>
      let t := getTile s p
      let t := if t.fenced && t.fenceWhy == 2 then { t with fenced := false, fenceWhy := 0 } else t
      let t := { t with arrs := t.arrs.map fun (k, x) => (k, if x.st = .calibrating then { x with since := s.now } else x) }
      if tabHas s.tile.tiles p then setTile s p t else s) s
  else if 36 ≤ d ∧ d < 42 then ((upFrom (6 * (d - 36)) 6).filter fun l => linkCfg s l 0 1 == 1).foldl (fun s l => linkCfgWritten s l false) s
  else if d < 28 ∧ d % 7 = 5 then (spireCores (d / 7)).foldl (fun s c => setCore s c { getCore s c with started := s.now }) s
  else if d = 42 ∧ s.host.perst = false then { s with host.linkUp := true }
  else s

/-- DOMAIN_USABLE (R405, R408): a domain that was starting is usable. -/
def execDomainUsable (d : Fin 47) (s : State) : Out :=
  if getDom s d = .starting ∧ s.pwr.p48ok = true ∧ s.pwr.trip = false then
    .next (advanceUp 7 (domProgress (domComes (setDom s d .usable) d)))
  else .next s

/-- STACK_ZEROED (R469 step 13): a stack whose domain is usable has been filled with zeros. -/
def execStackZeroed (k : Fin 8) (s : State) : Out :=
  if domUsable s (28 + k.val) then .next (setStack s k { getStack s k with zeroed := true }) else .next s

/-! ## What power leaves (R78, R140, R188, R475) -/

/-- Whether an array was being written when power went: one in CALIBRATING whose new content does not serve yet counts
(R78, R139). (DEDUCED, log entry 45) -/
def midWrite (x : Arr) : Bool :=
  x.st == .writing || x.st == .verifying || (x.st == .calibrating && x.job.any fun j => j.kind != .recal)

/-- An array at the next power-up (R78): trims are measured again. (DEDUCED, log entry 45) -/
def coldArr (now : Nat) (mapped : Bool) (x : Arr) : Arr :=
  let st : ArrState := match x.st with
    | .active | .draining | .calibrating => if mapped && !midWrite x then .calibrating else .spare
    | .fenced => .fenced
    | _ => .spare
  { st := st, cycles := x.cycles, mask := x.mask, failed := x.failed, failedCount := x.failedCount, cells := x.cells, checks := x.checks, since := now }

/-- A tile at the next power-up: its arrays, its array map, its records, and a fence after a fault (R78, R140, R475).
The record of a mapped array whose write was cut off is gone. (DEDUCED, log entry 45) -/
def coldTile (now : Nat) (t : Tile) : Tile :=
  let recs := t.recs.filter fun (l, _) => !midWrite (getArr t (physArr t l))
  let fault := t.fenced && t.fenceWhy == 1
  { fenced := fault, fenceWhy := if fault then 1 else 0
    arrs := t.arrs.map fun (k, x) => (k, coldArr now (logArr t k).isSome x)
    amap := t.amap, recs := recs, locked := !recs.isEmpty, erased := t.erased }

/-- Launch entries of a restart (R475): those of group launches stay as MISSED with FENCED until their outcome; the
others have no operation left. (DESIGN CHOICE, log entry 46) -/
def coldLaunches (s : State) : Tab Launch :=
  (s.time.launches.filter fun (_, l) => l.group.isSome && (l.st == .armed || l.st == .committed)).map fun (k, l) =>
    (k, { l with st := .missed, reason := whyFenced, null_ := true, held := none, engine := none })

/-- The blocks whose registers lie in the always-on domains. (DEDUCED, log entry 44) -/
def alwaysOn (cadences : Bool) (k : Nat) : Bool :=
  match blkOf k with
  | some .global | some .keep | some .pwr | some .therm | some .belfry => true
  | some (.cadence _) => cadences
  | _ => false

/-- The registers of switched domains return to their reset values (R475); the cadence registers stay or not. -/
def resetRegs (s : State) (cadences : Bool) : State :=
  let keep {α : Type} (t : Tab α) : Tab α := t.filter fun (k, _) => alwaysOn cadences k
  { s with
    reg := { s.reg with
      vals := { act := keep s.reg.vals.act, pend := keep s.reg.vals.pend }
      pendAt := keep s.reg.pendAt
      pendOld := keep s.reg.pendOld
      blockStat := keep s.reg.blockStat
      latches := s.reg.latches.filter fun l => alwaysOn cadences l.block
      routePend := [], routeAct := [], routeAt := [] }
    insts := []
    tile.town := [] }

/-- Engines that are fenced after faults stay so (R475). -/
def coldOps (o : OpSt) : OpSt :=
  { xfers := (o.xfers.filter fun (_, x) => x.fenced).map fun (k, _) => (k, { fenced := true })
    collEngines := (o.collEngines.filter fun (_, x) => x.fenced).map fun (k, _) => (k, { fenced := true })
    attnFenced := o.attnFenced, samplerFenced := o.samplerFenced }

/-- Outstanding requests whose work is gone: their tags stay in use until they are answered or time out (R341). -/
def abandoned (l : Tab HostReq) : Tab HostReq := l.map fun (k, r) => (k, { r with tid := none, reader := none })

/-- Threads, operations, frames and host requests that a reset of the device ends (R188, R475). -/
def dropWork (s : State) : State :=
  { s with
    mbx := { cores := s.mbx.cores.map fun (k, c) => (k, { fenced := c.fenced, started := c.started }) }
    op := coldOps s.op
    time.launches := coldLaunches s
    time.groups := []
    fab := {}
    met := { driftAt := s.met.driftAt, driftRecs := s.met.driftRecs }
    keep.restoreBy := []
    img.zeroiseBy := []
    arb := []
    host := { s.host with
      reqs := abandoned s.host.reqs, hdms := [], unmasked := [], msixPend := [], vfEnable := false, linkUp := false, spdmVersion := false } }

/-- Every switched domain has gone off (R402, R417): stacked memory, images, contexts and operations are lost. (DEDUCED, log entry 45) -/
def losePower (s : State) : State :=
  let s := resetRegs (dropWork (abortLoad s)) true
  { s with
    tile.tiles := tabMap (fun _ t => coldTile s.now t) s.tile.tiles
    img := { s.img with images := [], load := none, loadReason := 0, loadStage := 0, loadDone := false, progress := 0 }
    mem := { stackTab := (s.mem.stackTab.filter fun (_, k) => k.fenced || k.ppr).map fun (n, k) => (n, { fenced := k.fenced, ppr := k.ppr }) }
    host.scrub := false
    flt.windows := []
    pwr := { s.pwr with domains := [], domAt := (upFrom 0 47).map fun d => (d, s.now), domBusy := none, bringUp := 0 } }

/-! ## Supplies (R399 to R402, R473, R474) -/

/-- A bit of RESET_CAUSE is set (R455, R474). -/
def setCause (s : State) (n : Nat) : State := { s with reg.resetCause := s.reg.resetCause ||| BitVec.ofNat 5 (2 ^ n) }

/-- P48_QUALIFIED (R399, R400, R402): the domains come up; after a loss, as a Keep-initiated reset. -/
def execP48Qualified (v : W16) (s : State) : Out :=
  if s.pwr.p12ok = true ∧ s.pwr.p48ok = false ∧ 3950 ≤ v.toNat ∧ v.toNat ≤ 6050 then
    let s := if s.pwr.p48seen then setCause s 3 else s
    .next (updAlert (beginUp { s with pwr.p48ok := true, pwr.p48seen := true, pwr.p48 := v, pwr.p48warn := decide (v.toNat < 4000) }))
  else .next s

/-- P48_WARNING (R400). -/
def execP48Warning (v : W16) (s : State) : Out :=
  if s.pwr.p48ok = true ∧ s.pwr.p48warn = false ∧ v.toNat < 4000 then
    .next (updAlert (emitPower { s with pwr.p48warn := true, pwr.p48 := v } actNone unitKeep 1 0 0 0 v.toNat))
  else .next s

/-- P48_WARNING_END (R400): the input has left the warning band. -/
def execP48WarningEnd (v : W16) (s : State) : Out :=
  if s.pwr.p48warn = true ∧ 4000 ≤ v.toNat then .next (updAlert { s with pwr.p48warn := false, pwr.p48 := v }) else .next s

/-- P48_LOSS (R400, R402). -/
def execP48Loss (v : W16) (s : State) : Out :=
  if s.pwr.p48ok = true ∧ (v.toNat < 3800 ∨ 6100 < v.toNat) then
    let s := losePower s
    .next (updAlert (emitPower { s with pwr.p48ok := false, pwr.p48warn := false, pwr.p48 := v } actNone unitKeep 2 0 0 0 v.toNat))
  else .next s

/-- P12AUX_LOSS (R402): the device is off, and the Keep and the Belfry stop. -/
def execP12auxLoss (s : State) : Out :=
  if s.pwr.p12ok then
    let s := emitPower (losePower s) actNone unitKeep 2 1 0 0 0
    .next { s with
      pwr.p12ok := false
      keep := { s.keep with running := false, busy := none, restoring := none }
      time := {} }
  else .next s

/-- PINSHORT (R404): the Keep makes the pin high-impedance and reports it. -/
def execPinShort (p : Fin 9) (s : State) : Out :=
  if s.pwr.short.getLsbD p || !s.keep.running then .next s
  else .next (updAlert (emitPower { s with pwr.short := s.pwr.short ||| BitVec.ofNat 9 (2 ^ p.val) } actNone unitKeep 5 p 0 0 0))

/-- SHORT_RETRY (R404): the bit clears when a retry finds the pin free. -/
def execShortRetry (p : Fin 9) (free : Bool) (s : State) : Out :=
  if s.pwr.short.getLsbD p && free && s.keep.running then
    .next (updAlert { s with pwr.short := s.pwr.short &&& ~~~ BitVec.ofNat 9 (2 ^ p.val) })
  else .next s

end Sys2Proof.Machine
end

