-- ==== Sys2Proof/Machine/Keep.lean ====
section
/-! DEFINITION. The Keep: its commands (R456, R457), zeroise (R77, R141, R142), calibration sets (R435 to R438),
retests (R375), the owner's store (R123), its watchdog and firmware (R471), and MGMT (R220, R221). -/

namespace Sys2Proof.Machine

open Sys2Proof

/-! ## Commands (R456, R457) -/

/-- The Keep ends its command: RESULT is written, BUSY cleared and DONE set. -/
def endKeep (s : State) (r : Nat) : State :=
  { s with keep := { s.keep with busy := none, done := true, result := BitVec.ofNat 8 r } }

/-- The Keep takes up a command that lasts. -/
def beginKeep (s : State) (c : KeepCmd) : State := { s with keep := { s.keep with busy := some c } }

/-- CMD_ARG is written. -/
def setCmdArg (s : State) (v : W64) : State := setRegPend (setRegAct s .keep 0x010 v) .keep 0x010 v

/-- A write of CMD (R456): ignored with DENIED while BUSY; otherwise DONE clears and the command runs. A Keep that
does not run leaves it unanswered (R374). -/
def keepCmd (s : State) (by_ : Requester) (f : State → State) : State :=
  orderTo s by_ .keep fun s =>
    if s.keep.busy.isSome then setBlockStat s .keep 3
    else
      let s := { s with keep := { s.keep with done := false, since := s.now } }
      if s.keep.running then f s else beginKeep s .unanswered

/-- A write of CMD_ARG and then of CMD. -/
def keepArg (s : State) (by_ : Requester) (arg : W64) (f : State → State) : State :=
  keepCmd (orderTo s by_ .keep fun s => setCmdArg s arg) by_ f

/-- Whether the command comes from the owner: the management network, or the physical function with PF_OWNER. -/
def fromOwner (s : State) (by_ : Requester) : Bool := by_ == .keep || regFld s .keep 0x018 0 1 == 1

/-- An owner command (R457, R142). -/
def ownerCmd (by_ : Requester) (f : State → State) (s : State) : State :=
  if !fromOwner s by_ then endKeep s 6 else if s.img.zeroise || s.img.zeroiseFlag then endKeep s 4 else f s

/-! ## Management commands of one cycle (R221) -/

/-- Whether a management command has been accepted in this cycle: 1 RESTORE_FACTORY, 2 ZEROISE. -/
def mgmtNow (s : State) (cmd : Nat) : Bool := s.reg.orders.any fun o => o.at_ == s.now && o.on == .mgmt && o.effect == cmd

/-- A management command is accepted, from the Keep or from a thread, whose answer stands in `reply`. -/
def noteMgmt (s : State) (cmd : Nat) (reply : Option (Tid × GReg)) : State :=
  { s with reg.orders := s.reg.orders ++
      [{ at_ := s.now, rank := if reply.isNone then 2 else 1, inst := 0, on := .mgmt, mask := 3, effect := cmd, contains := cmd == 2, reply := reply }] }

/-- A RESTORE_FACTORY accepted in this cycle gives way to a zeroise (R221): it has not started, and its threads, or the Keep's
command, receive ZEROISE_ACTIVE. (DESIGN CHOICE, log entry 73) -/
def restoreYields (s : State) : State :=
  if mgmtNow s 1 then
    let mine := s.reg.orders.filter fun o => o.at_ == s.now && o.on == .mgmt && o.effect == 1
    let s := mine.foldl
      (fun s o => match o.reply with
        | some (t, d) => setThr s t.toNat { gWr (getThr s t.toNat) d 4 with kstat := 4 }
        | none => endKeep s 4) s
    { s with
      reg.orders := s.reg.orders.filter fun o => !mine.contains o
      keep.restoring := none, keep.restoreBy := [] }
  else s

/-! ## RESTORE_FACTORY (R438) -/

/-- A sweep in progress ends with ABORTED and writes nothing. -/
def abortSweep (s : State) : State :=
  match s.keep.busy with
  | some (.sweep _ _) => endKeep s 9
  | _ => s

/-- RESTORE_FACTORY begins: sweeps end, and both user slots are erased. -/
def startRestore (s : State) : State :=
  let s := abortSweep s
  { s with
    img.userSets := []
    keep.restoring := some (epochNo s) }

/-- The Keep command RESTORE_FACTORY, merged with one accepted in the same cycle (R221). -/
def doRestore (s : State) : State :=
  if s.img.zeroise || s.img.zeroiseFlag then endKeep s 4
  else if mgmtNow s 1 then beginKeep (noteMgmt s 1 none) .restoreFactory
  else if s.keep.restoring.isSome then endKeep s 1
  else beginKeep (noteMgmt (startRestore s) 1 none) .restoreFactory

/-- KEEP_RESTORE_FACTORY (R438). -/
def execKeepRestoreFactory (by_ : Requester) (s : State) : Out := .next (keepCmd s by_ doRestore)

/-- KSTAT.DONE of the threads that wait for a command of the Keep. -/
def tellThreads (ts : List Tid) (s : State) : State :=
  ts.foldl (fun s t => if live (getThr s t.toNat) then setThr s t.toNat { getThr s t.toNat with kdone := true } else s) s

/-- RESTORE_FACTORY_DONE (R436, R438): the factory values are in force after the next epoch boundary. -/
def execRestoreFactoryDone (s : State) : Out :=
  match s.keep.restoring with
  | some e =>
    if s.keep.running && decide (e < epochNo s) then
      let s := tellThreads s.keep.restoreBy s
      let s := { s with keep := { s.keep with restoring := none, restoreBy := [] } }
      .next (if s.keep.busy = some .restoreFactory then endKeep s 0 else s)
    else .next s
  | none => .next s

/-! ## Zeroise (R77, R141) -/

/-- The tile after the start of a zeroise: no image, variant, Lantern entry, scale or work is left, and a write in
progress is abandoned for the erase. (DESIGN CHOICE, log entry 35) -/
def zeroiseTile (now : Nat) (t : Tile) : Tile :=
  { emptyTile t t.fenceWhy with
    fenced := t.fenced
    positions := t.positions
    blocks := t.blocks.filter fun (_, b) => (heldWork b).isSome
    arrs := t.arrs.map fun (k, x) => (k, { x with job := none, toFence := false, calDone := false })
    pv := match t.pv with
      | some j => if j.wrote then none else some { kind := .erase, phys := j.phys, age := now }
      | none => none }

/-- Operations on tiles end with ZEROISED, and so do transfers (R141, R340). (DEDUCED, log entry 43) -/
def zeroiseOps (s : State) : State :=
  let es := runningOps s fun o => kindTile o.kind.toNat
  let s := es.foldl (fun s e => failPass s e rZeroised 0xFFFF) s
  let s := { s with
    op.posQueue := s.op.posQueue.filter fun w => !es.contains w.op
    op.seals := s.op.seals.filter fun w => !es.contains w.op }
  let xs := runningOps s fun o => match o.work with
    | .xfer _ => true
    | _ => false
  xs.foldl (fun s e => stopXfer s e rZeroised 0xFFFF) s

/-- Zeroise starts (R141, R142). (DEDUCED, log entry 43) -/
def startZeroise (s : State) : State :=
  let s := abortSweep (abortLoad s)
  let s := emitImage s actNone 0 2 0
  let s := zeroiseOps <| fenceLaunches { s with img.zeroise := true, img.zeroiseFlag := true, flt.devFence := true, flt.devFenceWhy := s.flt.devFenceWhy ||| 2 }
  let s := s.img.images.foldl (fun s (_, i) => zeroRange s i.base i.size) s
  { s with
    tile.tiles := tabMap (fun _ t => zeroiseTile s.now t) s.tile.tiles
    img.images := []
    img.userSets := []
    flt.windows := s.flt.windows.filter fun w => w.unit.kind != 2 && w.unit.kind != 3 }

/-- Whether every array of every tile has been erased. -/
def allErased (s : State) : Bool := (upFrom 0 1056).all fun p => (getTile s p).erased.length == 68

/-- ZEROISE_COMPLETE (R141, R142, R375). -/
def execZeroiseComplete (s : State) : Out :=
  if s.img.zeroise && allErased s then
    let s := tellThreads s.img.zeroiseBy s
    let why := s.flt.devFenceWhy % 2
    let s := { s with
      img.zeroise := false
      img.zeroiseFlag := false
      img.zeroiseBy := []
      tile.tiles := tabMap (fun _ t => { t with erased := [] }) s.tile.tiles
      flt.devFenceWhy := why
      flt.devFence := why != 0 }
    let s := emitImage s actNone 0 3 0
    .next (if s.keep.busy = some .zeroise then endKeep s 0 else s)
  else .next s

/-- The Keep command ZEROISE (R457), merged with one accepted in the same cycle (R221). (DEDUCED, log entry 43) -/
def doZeroise (arg : W64) (s : State) : State :=
  if arg ≠ 0x5A45 then endKeep s 3
  else if mgmtNow s 2 && s.img.zeroise then beginKeep (noteMgmt s 2 none) .zeroise
  else if s.img.zeroise || s.img.zeroiseFlag then endKeep s 4
  else beginKeep (noteMgmt (startZeroise (restoreYields s)) 2 none) .zeroise

/-- KEEP_ZEROISE (R141, R457). -/
def execKeepZeroise (by_ : Requester) (arg : W64) (s : State) : Out := .next (keepArg s by_ arg (doZeroise arg))

/-! ## MGMT (R220, R221) -/

/-- The acceptance code goes to g[DEST] and to KSTAT, and DONE clears. -/
def mgmtCode (s : State) (t : Tid) (d : GReg) (code : Nat) : State :=
  let s := retireG s t d (BitVec.ofNat 64 code)
  let s := { s with
    keep.restoreBy := s.keep.restoreBy.filter (· != t)
    img.zeroiseBy := s.img.zeroiseBy.filter (· != t) }
  setThr s t.toNat { getThr s t.toNat with kstat := BitVec.ofNat 8 code, kdone := false }

/-- Whether MGMT_EN is set (R456). -/
def mgmtEnabled (s : State) : Bool := regFld s .keep 0x018 1 1 == 1

/-- RESTORE_FACTORY (R220, R221): one accepted in the same cycle takes it in. -/
def execRestoreFactory (t : Tid) (g : Guard) (d : GReg) (s : State) : Out :=
  .next (issueWord s t g 0x3E (upperWord 0x3E g d.toNat 0 0 0) false .device fun s =>
    if s.keep.restoring.isSome && !mgmtNow s 1 then mgmtCode s t d 1
    else if !mgmtEnabled s then mgmtCode s t d 2
    else if s.img.zeroise || s.img.zeroiseFlag then mgmtCode s t d 4
    else
      let merged := s.keep.restoring.isSome
      let s := noteMgmt (mgmtCode s t d 0) 1 (some (t, d))
      let s := if merged then s else startRestore s
      { s with keep.restoreBy := t :: s.keep.restoreBy })

/-- ZEROISE (R220, R221): ZARM is disarmed whatever the answer; one accepted in the same cycle takes it in. -/
def execZeroise (t : Tid) (g : Guard) (d : GReg) (s : State) : Out :=
  .next (issueWord s t g 0x3E (upperWord 0x3E g d.toNat 0 0 0) false .device fun s =>
    let armed := zarmed s (getThr s t.toNat)
    let s := setThr s t.toNat { getThr s t.toNat with zarm := none }
    if !mgmtEnabled s then mgmtCode s t d 2
    else if !armed then mgmtCode s t d 3
    else if (s.img.zeroise || s.img.zeroiseFlag) && !mgmtNow s 2 then mgmtCode s t d 4
    else
      let merged := s.img.zeroise
      let s := noteMgmt (mgmtCode s t d 0) 2 (some (t, d))
      let s := if merged then s else startZeroise (restoreYields s)
      { s with img.zeroiseBy := t :: s.img.zeroiseBy })

/-! ## Sweeps (R435 to R437) -/

/-- Where a sweep's part of a set lies, as first byte and length (R435). -/
def sweepPart (n : Nat) : Nat × Nat :=
  match n with
  | 0 => (0x40, 640)
  | 1 => (0x300, 2368)
  | 2 => (0x1180, 564)
  | _ => (0x1100, 128)

/-- Whether two drift records of a field within the last 24 h lie 10 °C apart. -/
def driftSpread (s : State) (f : Nat) : Bool :=
  let rs := s.met.driftRecs.filter fun (n, at_, _) => n == f && decide (s.now ≤ at_ + 86400 * 40000000000)
  rs.any fun (_, _, a) => rs.any fun (_, _, b) => decide (80 ≤ toSigned 16 b.toNat - toSigned 16 a.toNat)

/-- The condition of a sweep (R437). (DESIGN CHOICE, log entry 49) -/
def sweepCond (s : State) (n : Nat) : Bool :=
  match n with
  | 0 => domUsable s 46
  | 1 => (upFrom 0 47).all fun d => (44 ≤ d && d ≤ 46) ||
      (tabGet .off s.pwr.domains d == .off && decide (tabGet 0 s.pwr.domAt d + 60 * 40000000000 ≤ s.now))
  | 2 => s.time.belfry.state == .locked
  | _ => (upFrom 0 16).all (driftSpread s)

/-- A sweep starts: BUSY while RESTORE_FACTORY runs, CAL_COND when its condition fails. (DESIGN CHOICE, log entry 49) -/
def doSweep (n : Nat) (ref : W16) (s : State) : State :=
  if s.keep.restoring.isSome then endKeep s 1
  else if !sweepCond s n then endKeep s 8
  else beginKeep s (.sweep n ref)

/-- The argument word of a sweep (R457). -/
def sweepArg (n : Nat) (ref : W16) : W64 := BitVec.ofNat 64 (n + ref.toNat * 2 ^ 16)

/-- SWEEP_CONVERTER (R437). -/
def execSweepConverter (by_ : Requester) (s : State) : Out := .next (keepArg s by_ (sweepArg 0 0) (doSweep 0 0))
/-- SWEEP_SENSOR (R437). -/
def execSweepSensor (by_ : Requester) (ref : W16) (s : State) : Out := .next (keepArg s by_ (sweepArg 1 ref) (doSweep 1 ref))
/-- SWEEP_OSCILLATOR (R437). -/
def execSweepOscillator (by_ : Requester) (s : State) : Out := .next (keepArg s by_ (sweepArg 2 0) (doSweep 2 0))
/-- SWEEP_REFERENCE (R437). -/
def execSweepReference (by_ : Requester) (s : State) : Out := .next (keepArg s by_ (sweepArg 3 0) (doSweep 3 0))

/-- A user set is written to the slot that is not active: a copy of the active set with one part replaced (R436). (DESIGN CHOICE, log entry 9) -/
def writeUserSet (s : State) (n : Nat) (cells : List (Nat × Byte)) : State :=
  let (lo, len) := sweepPart n
  let old := match s.img.userSets with
    | x :: _ => x.cells
    | [] => []
  let keep := old.filter fun (a, _) => !(lo ≤ a && a < lo + len)
  let new := (cells.filter fun (a, _) => lo ≤ a && a < lo + len).foldl (fun m (a, b) => tabPut m a b) keep
  let g := s.img.calGen + 1
  { s with img.calGen := g, img.userSets := (⟨g, new⟩ :: s.img.userSets).take 2 }

/-- SWEEP_DONE (R436, R437): the cells are the bytes that the sweep found, where they differ from the factory's. -/
def execSweepDone (cells : List (Nat × Byte)) (s : State) : Out :=
  match s.keep.busy with
  | some (.sweep n _) =>
    if !s.keep.running then .next s
    else if sweepCond s n then .next (endKeep (writeUserSet s n cells) 0) else .next (endKeep s 8)
  | _ => .next s

/-! ## Retests (R375, R457) -/

/-- Whether a unit other than an array is fenced after a fault. -/
def faultFenced (s : State) (u : UnitId) : Bool :=
  let n := u.num.toNat
  match u.kind.toNat with
  | 1 => s.flt.spireFenced.getLsbD n
  | 2 => (getTile s (unitPhys u)).fenced && (getTile s (unitPhys u)).fenceWhy == 1
  | 4 => (getCore s n).fenced
  | 5 => s.op.attnFenced.getLsbD n
  | 6 => (getXfer s n).fenced
  | 8 => (getStack s n).fenced
  | 9 => if n = 7 then s.op.samplerFenced else (getColl s n).fenced
  | _ => false

/-- The unit that an argument names. (DESIGN CHOICE, log entry 49) -/
def argUnit (arg : W64) : UnitId := unitOf (bits arg.toNat 28 4) (bits arg.toNat 0 28)

/-- The command RETEST. -/
def doRetest (u : UnitId) (s : State) : State :=
  if !unitExists u then endKeep s 7
  else if u.kind = 3 then
    let x := arrOf s (unitPhys u) (u.num.toNat % 2 ^ 16)
    if x.st = .fenced ∧ worn x = false then
      beginKeep (addJob s (unitPhys u) { kind := .retest, phys := u.num.toNat % 2 ^ 16 }) (.retest u)
    else endKeep s 7
  else if faultFenced s u then beginKeep s (.retest u) else endKeep s 7

/-- RETEST (R375, R457). -/
def execRetest (by_ : Requester) (arg : W64) (s : State) : Out := .next (keepArg s by_ arg (doRetest (argUnit arg)))

/-- An array of a Spire whose fence is lifted passes through CALIBRATING. (DESIGN CHOICE, log entry 42) -/
def recalibrate (p : Nat) (s : State) (a : Nat) : State :=
  if (arrOf s p a).st = .active then moveArr s p a .calibrating 4 actNone else s

/-- A tile that a spare replaced returns as a spare: its arrays are spares, except those in FENCED. (DESIGN CHOICE, log entry 42) -/
def returnTile (s : State) (p : Nat) : State :=
  let t := getTile s p
  let s := setTile s p { t with fenced := false, fenceWhy := 0 }
  if (logTile s p).isSome then s
  else (t.arrs.map Prod.fst).foldl
    (fun s a => if (arrOf s p a).st = .fenced ∨ (arrOf s p a).st = .spare then s else moveArr s p a .spare 0x0C actNone) s

/-- A stack is zeroed by its test. -/
def zeroStack (s : State) (k : Nat) : State :=
  { s with
    mem.cells := s.mem.cells.filter fun (a, _) => stackOf a != k
    mem.poison := s.mem.poison.filter fun l => stackOf (l * 64) != k }

/-- A unit returns to service (R375). (DESIGN CHOICE, log entry 42) -/
def restoreUnit (s : State) (u : UnitId) : State :=
  let n := u.num.toNat
  match u.kind.toNat with
  | 1 =>
    let s := { s with flt.spireFenced := s.flt.spireFenced &&& ~~~ BitVec.ofNat 4 (2 ^ n) }
    let ps := (s.tile.tiles.map Prod.fst).filter fun p => p / 264 == n
    ps.foldl (fun s p => ((getTile s p).arrs.map Prod.fst).foldl (recalibrate p) s) s
  | 2 => returnTile s (unitPhys u)
  | 4 => setCore s n { getCore s n with fenced := false, started := s.now }
  | 5 => { s with op.attnFenced := s.op.attnFenced &&& ~~~ BitVec.ofNat 8 (2 ^ n) }
  | 6 => grantXfer (setXfer s n { getXfer s n with fenced := false }) n
  | 8 => let s := zeroStack s n; setStack s n { getStack s n with fenced := false }
  | 9 => if n = 7 then { s with op.samplerFenced := false } else grantColl 4 (setColl s n { getColl s n with fenced := false })
  | _ => s

/-- The end of a retest: the test has passed or failed. (DESIGN CHOICE, log entry 42) -/
def endRetest (s : State) (u : UnitId) (ok : Bool) : State :=
  if ok then endKeep (emitRestored s u u actRestored) 0 else endKeep (emitFenced s u actFenced 4 0) 0x0A

/-- RETEST_DONE (R375, R457): an array's test has ended once its erase and VERIFYING have; another unit is told to
have passed or not. -/
def execRetestDone (ok : Bool) (s : State) : Out :=
  match s.keep.busy with
  | some (.retest u) =>
    if !s.keep.running then .next s
    else if u.kind = 3 then
      let t := getTile s (unitPhys u)
      let a := u.num.toNat % 2 ^ 16
      if t.jobs.any (fun j => j.kind == .retest && j.phys == a) || t.pv.any (fun j => j.phys == a) then .next s
      else .next (endRetest s u ((getArr t a).st != .fenced))
    else .next (endRetest (if ok then restoreUnit s u else s) u ok)
  | _ => .next s

/-! ## The owner's store (R123, R457) -/

def getAnchor (s : State) (k : Nat) : Anchor := tabGet {} s.img.anchors k
def setAnchor (s : State) (k : Nat) (v : Anchor) : State := { s with img.anchors := tabPut s.img.anchors k v }

/-- OTP_ANCHOR: the record at an address of instance 0 memory names a slot and a hash. (DESIGN CHOICE, log entry 49) -/
def doAnchor (arg : W64) (s : State) : State :=
  let a := arg.toNat
  let l := rdBytes s a 64
  let k := at_ l 0 1
  if !inInst s 0 a 64 || rangeBad s a 64 then endKeep s 7
  else if 16 ≤ k ∨ (getAnchor s k).valid = true then endKeep s 7
  else endKeep (setAnchor s k { getAnchor s k with hash := BitVec.ofNat 384 (ofBytes ((l.drop 16).take 48)), valid := true }) 0

/-- OTP_REVOKE. -/
def doRevoke (arg : W64) (s : State) : State :=
  let k := bits arg.toNat 0 4
  endKeep (setAnchor s k { getAnchor s k with revoked := true }) 0

/-- OTP_FLOOR: the floor only rises. -/
def doFloor (arg : W64) (s : State) : State :=
  let k := bits arg.toNat 0 4
  let n := bits arg.toNat 8 7
  if 64 < n ∨ n < (getAnchor s k).floor then endKeep s 7
  else endKeep (setAnchor s k { getAnchor s k with floor := n }) 0

/-- OTP_POLICY_BOTH. -/
def doPolicy (s : State) : State := endKeep { s with img.policyBoth := true } 0

/-- OTP_ANCHOR (R123, R457). -/
def execOtpAnchor (by_ : Requester) (arg : W64) (s : State) : Out := .next (keepArg s by_ arg (ownerCmd by_ (doAnchor arg)))
/-- OTP_REVOKE (R123, R457). -/
def execOtpRevoke (by_ : Requester) (arg : W64) (s : State) : Out := .next (keepArg s by_ arg (ownerCmd by_ (doRevoke arg)))
/-- OTP_FLOOR (R123, R457). -/
def execOtpFloor (by_ : Requester) (arg : W64) (s : State) : Out := .next (keepArg s by_ arg (ownerCmd by_ (doFloor arg)))
/-- OTP_POLICY_BOTH (R123, R457). -/
def execOtpPolicyBoth (by_ : Requester) (s : State) : Out := .next (keepCmd s by_ (ownerCmd by_ doPolicy))

/-! ## Any code, and commands that nobody answers -/

/-- The command of a code (R457). (DESIGN CHOICE, log entry 49) -/
def keepDo (by_ : Requester) (code : Nat) (arg : W64) (s : State) : State :=
  match code with
  | 0x01 => doRestore s
  | 0x02 => doZeroise arg s
  | 0x03 => doSweep (bits arg.toNat 0 2) (BitVec.ofNat 16 (bits arg.toNat 16 16)) s
  | 0x04 => doRetest (argUnit arg) s
  | 0x10 => ownerCmd by_ (doAnchor arg) s
  | 0x11 => ownerCmd by_ (doRevoke arg) s
  | 0x12 => ownerCmd by_ (doFloor arg) s
  | 0x13 => ownerCmd by_ doPolicy s
  | _ => endKeep s 2

/-- BAD_CODE (R456, R457): a code that is not listed ends at once. -/
def execBadCode (by_ : Requester) (code : Byte) (s : State) : Out :=
  .next (keepCmd s by_ (keepDo by_ code.toNat (regAct s .keep 0x010)))

/-- KEEP_COMMAND_TIMEOUT (R374): a command that the Keep has not answered within 10 ms. -/
def execKeepCommandTimeout (s : State) : Out :=
  if s.keep.busy = some .unanswered ∧ s.keep.since + 400000000 ≤ s.now then .next (endKeep s 5) else .next s

/-! ## Watchdog and firmware (R471) -/

/-- The POWER record of a Keep that has restarted. -/
def emitKeepRestart (s : State) : State := emitPower s actNone unitKeep 0x0A 0 0 0 0

/-- The Keep starts the first copy that verifies, or enters recovery. New firmware is active from then on. (DESIGN CHOICE, log entry 12) -/
def bootKeep (s : State) (copyA copyB : Bool) : State :=
  let ok := copyA || copyB
  let gen := s.keep.fwGen + b2n (s.keep.fwNew && copyA)
  { s with keep := { s.keep with running := ok, recovery := !ok, fwA := copyA, fwNew := false, fwGen := gen } }

/-- KEEP_WATCHDOG (R471, R374): the Keep restarts; a command in progress fails with KEEP_BUSY. -/
def execKeepWatchdog (copyA copyB : Bool) (s : State) : Out :=
  if !s.keep.running then .next s
  else
    let s := if s.keep.busy.isSome then endKeep s 5 else s
    let s := bootKeep s copyA copyB
    .next (updAlert (if s.keep.running then emitKeepRestart s else s))

/-- PLDM_FIRMWARE_UPDATE (R471): copy A is written; in recovery the Keep then restarts, and brings up the domains. -/
def execPldmFirmwareUpdate (verifies : Bool) (s : State) : Out :=
  if s.keep.recovery then
    let s := bootKeep { s with keep.fwNew := true } verifies false
    .next (updAlert (if s.keep.running then beginUp (emitKeepRestart s) else s))
  else .next { s with keep := { s.keep with fwA := verifies, fwNew := true } }

end Sys2Proof.Machine
end

