-- ==== Sys2Proof/Machine/RegWrite.lean ====
section
/-! DEFINITION. How a write changes the fields of a register (R447 to R449, R451). -/

namespace Sys2Proof.Machine

open Sys2Proof

/-- Whether a field's table allows a value (R448). -/
def fldOk (f : Fld) (x : Nat) : Bool := f.ok.isEmpty || f.ok.any fun (a, b) => a ≤ x && x ≤ b

/-- Whether a field holds a value that a write changes. (DESIGN CHOICE, log entry 27) -/
def stored (f : Fld) : Bool := f.acc == .rw || f.acc == .rwl

/-- The fields of a register after a write: a field keeps its value when its table does not allow the new one, or
when `can` refuses it. -/
def mergeFlds (view : View) (old v : Nat) (fl : List Fld) (can : Fld → Nat → Bool) : Nat :=
  fl.foldl
    (fun acc f =>
      let x := bits (viewBits view old v) f.lo f.w
      if stored f && fldOk f x && can f x then setBits acc f.lo f.w x else acc) old

/-- The fields of a register of the classes that take a value at once. -/
def atOnce (d : RDesc) : W64 := BitVec.ofNat 64 (clsMask d.flds .imm + clsMask d.flds .disabled)

/-- The fields of class EPOCH of a register. -/
def atEpoch (d : RDesc) : W64 := BitVec.ofNat 64 (clsMask d.flds .epoch)

/-- The fields of classes PASS and STEP of a register. -/
def atBoundary (d : RDesc) : W64 := BitVec.ofNat 64 (clsMask d.flds .pass + clsMask d.flds .step)

/-- The pending value of a register with PASS- or STEP-class fields is kept as it was before the present cycle (R450). -/
def notePend (s : State) (b : Blk) (o : Nat) (d : RDesc) : State :=
  let k := blkBase b + o
  if atBoundary d = 0 ∨ (tabHas s.reg.pendOld k && decide (s.now / 32 * 32 ≤ (tabGet (0, 0) s.reg.pendOld k).1)) = true then s
  else { s with reg.pendOld := tabPut s.reg.pendOld k (s.now, regPend s b o) }

/-- A register's fields are written: pending values, the active values of class IMM, and the time from which an
EPOCH value waits (R156, R449). -/
def storeReg (s : State) (b : Blk) (o : Nat) (d : RDesc) (new : W64) : State :=
  let old := regPend s b o
  let m := atOnce d
  let s := setRegPend (notePend s b o d) b o new
  let s := if m = 0 then s else setRegAct s b o ((regAct s b o &&& ~~~m) ||| (new &&& m))
  if old &&& atEpoch d = new &&& atEpoch d then s else { s with reg.pendAt := tabPut s.reg.pendAt (blkBase b + o) s.now }

/-- The LOCK bit of a register with RWL fields (R456, R413). -/
def lockBit (b : Blk) (o : Nat) : Option Nat :=
  match b with
  | .keep => if o = 0x018 then some 31 else none
  | .therm => if o = 0x008 then some 8 else none
  | _ => none

/-- Whether a register is locked (R451). -/
def locked (s : State) (b : Blk) (o : Nat) : Bool :=
  match lockBit b o with
  | some k => bit (regAct s b o).toNat k
  | none => false

end Sys2Proof.Machine
end

