-- ==== Sys2Proof/Machine/Instances.lean ====
section
/-! DEFINITION. Instances: their assignment (R357, R358, R360, R361, R483) and their reset (R362, R366 to R369). -/

namespace Sys2Proof.Machine

open Sys2Proof

/-! ## Assignment (R357, R358, R361, R483) -/

/-- REFUSED is set in the block of an instance (R358). (DEDUCED, log entry 48) -/
def setRefused (s : State) (n : Nat) : State := setInst s n { getInst s n with refused := true }

/-- Whether the fields of class DISABLED of an instance can be written (R363, R483). -/
def assignable (s : State) (n : Nat) : Bool := n == 0 || (getInst s n).st == .disabled

/-- A quota field's sum over the instances with a value in place of one (R358). -/
def quotaSum (s : State) (n o lo w x : Nat) : Nat :=
  ((upFrom 0 32).map fun i => if i = n then x else bits (regPend s (.inst i) o).toNat lo w).foldl (· + ·) 0

/-- The total of a quota field of INSTn, by register and place (R358). -/
def quotaTotal (o lo : Nat) : Option Nat :=
  match o, lo with
  | 0x014, 0 => some 4096
  | 0x014, 16 => some 1024
  | 0x018, 0 => some 2048
  | 0x01C, 16 => some 2048
  | _, _ => none

/-- Whether a field of INSTn may take a value: the instance's state and the device's totals (R358, R363). -/
def instCan (s : State) (n o old : Nat) (f : Fld) (x : Nat) : Bool :=
  x == bits old f.lo f.w ||
    ((f.cls != .disabled || assignable s n) &&
      match quotaTotal o f.lo with
      | some t => quotaSum s n o f.lo f.w x ≤ t
      | none => true)

/-- Whether two ranges of units overlap. -/
def overlap (a n b m : Nat) : Bool := n != 0 && m != 0 && a < b + m && b < a + n

/-- Whether a MEMi value keeps the ranges disjoint and in user memory (R361); a range still being zeroed is not
assigned. -/
def memOk (s : State) (n v : Nat) : Bool :=
  let a := bits v 0 11
  let z := bits v 12 11
  a + z ≤ 1476 && (upFrom 0 32).all fun i =>
    (i == n || (userRanges s i).all fun (b, len, _) => !overlap (a * 2 ^ 28) (z * 2 ^ 28) b len) &&
      (getInst s i).scrubbing.all fun (b, len) => !overlap (a * 2 ^ 28) (z * 2 ^ 28) b len

/-- Whether a TID value keeps the ranges disjoint and below unit 1,024, and takes no thread ID in use from
instance 0 (R361, R483). -/
def tidOk (s : State) (n v : Nat) : Bool :=
  let a := bits v 0 11
  let z := bits v 16 11
  a + z ≤ 1024 &&
    ((upFrom 0 32).all fun i => i == n || !overlap a z (regFld s (.inst i) 0x010 0 11) (regFld s (.inst i) 0x010 16 11)) &&
    (n != 0 || s.mbx.threads.all fun (t, th) => th.st == .free || th.inst != 0 || (a ≤ t / 4096 && t / 4096 < a + z))

/-- Whether a register of INSTn may take a value as a whole. -/
def instWhole (s : State) (n o v : Nat) : Bool :=
  if o = 0x010 then tidOk s n v else if 0x020 ≤ o ∧ o < 0x040 then memOk s n v else true

/-- The user memory of an instance in units of 256 MiB. (DEDUCED, log entry 48) -/
def userUnits (s : State) (n : Nat) : List Nat :=
  (upFrom 0 1476).filter fun u => (userRanges s n).any fun (b, z, _) => b ≤ u * 2 ^ 28 && u * 2 ^ 28 < b + z

/-- The units that an instance has lost begin to be zeroed (R361). -/
def scrubLost (s : State) (n : Nat) (old : List Nat) : State :=
  let left := userUnits s n
  let lost := old.filter fun u => !left.contains u
  if lost.isEmpty then s
  else
    let i := getInst s n
    setInst s n { i with scrub := true, scrubbing := i.scrubbing ++ lost.map fun u => (u * 2 ^ 28, 2 ^ 28) }

/-- A write to an assignment register of INSTn (R357, R358, R361, R363, R483). -/
def instWrite (s : State) (n o : Nat) (view : View) (v : Nat) : State :=
  match regDesc (.inst n) o with
  | none => s
  | some d =>
    let old := (regPend s (.inst n) o).toNat
    let want := mergeFlds view old v d.flds fun _ _ => true
    let new := mergeFlds view old v d.flds (instCan s n o old)
    if new ≠ old ∧ instWhole s n o new = false then setRefused s n
    else
      let s := if new = want then s else setRefused s n
      if 0x020 ≤ o ∧ o < 0x040 then
        let before := userUnits s n
        scrubLost (storeReg s (.inst n) o d (BitVec.ofNat 64 new)) n before
      else storeReg s (.inst n) o d (BitVec.ofNat 64 new)

/-- The offset of a quota register (R464). -/
def quotaOff : QuotaReg → Nat
  | .quota => 0x014
  | .limits => 0x018
  | .msix => 0x01C

/-- QUOTA_WRITE (R358). -/
def execQuotaWrite (by_ : Requester) (n : Inst) (r : QuotaReg) (view : View) (v : W32) (s : State) : Out :=
  .next (regTo s by_ (.inst n) (quotaOff r) view v.toNat fun s v => instWrite s n (quotaOff r) view v)

/-- MEM_RANGE_WRITE (R361). -/
def execMemRangeWrite (by_ : Requester) (n : Inst) (i : Fin 8) (view : View) (v : W32) (s : State) : Out :=
  .next (regTo s by_ (.inst n) (0x020 + 4 * i.val) view v.toNat fun s v => instWrite s n (0x020 + 4 * i.val) view v)

/-- TID_WRITE (R361, R483). -/
def execTidWrite (by_ : Requester) (n : Inst) (view : View) (v : W32) (s : State) : Out :=
  .next (regTo s by_ (.inst n) 0x010 view v.toNat fun s v => instWrite s n 0x010 view v)

/-- RANGE_SCRUB_DONE (R361): the removed ranges of an instance have been zeroed. -/
def execRangeScrubDone (n : Inst) (s : State) : Out :=
  let i := getInst s n
  if i.scrub then
    let s := i.scrubbing.foldl (fun s (a, z) => zeroRange s a z) s
    .next (setInst s n { i with scrub := false, scrubbing := [] })
  else .next s

/-! ## Tiles (R359, R360, R483) -/

/-- Every variant of a tile becomes ABSENT, and its blocks and positions are cleared (R360, R367). -/
def clearTile (t : Tile) : Tile :=
  { ltnDrop t (fun x => eClass x.source == 2) with variants := [], blocks := [], positions := [] }

/-- Whether instance 0 has an operation in flight, a held block or a variant in a logical tile (R483). -/
def tileInUse (s : State) (t : Nat) : Bool :=
  let x := getTile s (physTile s t)
  !(runningOps s fun o => o.inst == 0 && workNames o.work (· == t)).isEmpty || !x.blocks.isEmpty || !x.flight.isEmpty ||
    x.variants.any fun (_, v) => v.res != 0

/-- A TILE_OWN record is written through the block of an instance (R360, R464, R483). (DEDUCED, log entry 48) -/
def townWrite (s : State) (n : Nat) (view : View) (v : Nat) : State :=
  let t := regFld s (.inst n) 0x0B0 0 10
  let old := townOf s t
  let new := viewBits view old v
  let put (s : State) (x : Nat) : State := { s with tile.town := tabPut s.tile.town t (BitVec.ofNat 16 x) }
  let group := setBits old 8 8 (bits new 8 8)
  if bits new 0 5 = bits old 0 5 ∧ bit new 7 = bit old 7 then put s group
  else if !assignable s (bits old 0 5) || !assignable s (bits new 0 5) then setRefused (put s group) n
  else if bits old 0 5 = 0 ∧ bit old 7 = true ∧ tileInUse s t = true then setRefused (setRefused s n) 0
  else
    let s := put s (setBits (setBits group 0 5 (bits new 0 5)) 7 1 (b2n (bit new 7)))
    if bits new 0 5 = bits old 0 5 then s
    else let p := physTile s t; setTile s p (clearTile (getTile s p))

/-- TOWN_DATA_WRITE (R360, R464). -/
def execTownDataWrite (by_ : Requester) (n : Inst) (v : W32) (s : State) : Out :=
  .next (orderTo s by_ (.inst n) fun s =>
    viewTo s by_ (.inst n) 0x0B4 0xFF9F .base (townOf s (regFld s (.inst n) 0x0B0 0 10)) v.toNat false fun s v => townWrite s n .base v)

/-! ## Reset: its start (R366 to R368) -/

/-- The INSTANCE record of a reset (R369, R484). -/
def emitInst (s : State) (n : Inst) (what : Nat) : State :=
  let i := getInst s n
  emit s evInstance actNone (some n) (unitFn n) (toBytes what 1 ++ [i.gen, i.trigger])

/-- A launch entry of an instance that is reset (R368). (DESIGN CHOICE, log entry 46) -/
def resetLaunch (s : State) (i : Nat) : State :=
  let l := getLaunch s i
  match l.group with
  | none => if l.st = .armed then missEntry s i whyReset rInstReset else s
  | some g =>
    if l.st = .armed ∧ nsNow s + 3000 < l.t.toNat then
      tellCoord (missEntry s i whyReset rInstReset) l.inst g.toNat kNotArmed l.tag l.t whyReset
    else if l.held.isSome then s
    else
      let s := setLaunch s i { l with null_ := true }
      setOp s l.op { getOp s l.op with launch := none, grouped := false }

/-- An operation of an instance that is reset stops (R367 steps 3 and 4). (DEDUCED, log entry 48) -/
def resetOp (s : State) (e : Nat) : State :=
  let o := getOp s e
  if o.started && o.result.isNone then failOp rInstReset 0xFFFF s e else setResult s e rInstReset 0xFFFF

/-- What tiles still hold of an instance's operations, save the passes in flight, is given up. -/
def dropTileWork (n : Inst) (t : Tile) : Tile :=
  { t with
    exactQ := t.exactQ.filter fun x => x.flight.req.inst != n
    recompQ := t.recompQ.filter fun x => x.flight.req.inst != n
    exactBusy := t.exactBusy.filter fun x => x.flight.req.inst != n
    todo := t.todo.filter fun q => q.inst != n }

/-- A thread of an instance that is reset is aborted where it stands: its stores are discarded, and no status is
written (R367 step 2). -/
def resetThread (s : State) (t : Nat) : State :=
  let s := dropHostReq (discardStores s t) t
  setThr s t { getThr s t with st := .aborted, wait := .none, slot := none, hostLoad := none, restart := none, prior := none }

/-- Whether a register is the descriptor address of a metrology channel. -/
def metDesc (k : Nat) : Bool :=
  match blkOf k with
  | some (.met x) => 0x040 ≤ k - blkBase (.met x)
  | _ => false

/-- A reset of instance 0 ends every metrology channel and returns its registers to their reset values (R433). -/
def dropChans (s : State) : State :=
  { s with
    met.chans := []
    met.mets := tabMap (fun _ m => { m with holder := none }) s.met.mets
    reg.vals.act := s.reg.vals.act.filter fun (k, _) => !metDesc k
    reg.vals.pend := s.reg.vals.pend.filter fun (k, _) => !metDesc k }

/-- Reset steps 1 to 4 of R367. (DEDUCED, log entry 28) -/
def beginReset (s : State) (n : Inst) (trigger : Nat) (after : IState) : State :=
  let i := getInst s n
  let s := setInst s n { i with st := .resetting, gen := i.gen + 1, after := after, trigger := BitVec.ofNat 8 trigger, resetAt := s.now }
  let s := emitInst s n 1
  let s := if n = 0 then dropChans s else s
  let sl := instSlice s n
  let s := if (openInsts s sl).isEmpty then { s with op.earlyColl := s.op.earlyColl.filter fun x => x.slice != sl } else s
  let ls := (s.time.launches.filter fun (_, l) => l.inst == n && l.st != .free && !l.null_).map Prod.fst
  let s := ls.foldl resetLaunch s
  let ts := (s.mbx.threads.filter fun (_, th) => th.inst == n && live th).map Prod.fst
  let s := ts.foldl resetThread s
  let es := (s.op.table.filter fun (_, o) => o.used && o.inst == n).map Prod.fst
  let s := es.foldl resetOp s
  { s with
    op.posQueue := s.op.posQueue.filter fun w => !es.contains w.op
    op.seals := s.op.seals.filter fun w => !es.contains w.op
    tile.tiles := tabMap (fun _ t => dropTileFills (fun x => x.op.any es.contains) (dropTileWork n t)) s.tile.tiles }

/-- An instance reset is asked for (R366): one in progress goes on, and ENABLE = 0 leaves it DISABLED. (DEDUCED, log entry 28) -/
def askReset (s : State) (n : Inst) (trigger : Nat) : State :=
  let i := getInst s n
  if i.st = .resetting then setInst s n { i with after := if trigger = 2 then .disabled else i.after }
  else beginReset s n trigger (if trigger = 2 then .disabled else i.st)

/-- ENABLE = 1 (R362). (DEDUCED, log entry 28) -/
def enableInst (s : State) (n : Inst) : State :=
  let s := setFld s (.inst n) 0x008 0 1 1
  let i := getInst s n
  match i.st with
  | .disabled => setInst s n { i with st := .enabled }
  | .resetting => setInst s n { i with after := .enabled }
  | .enabled => s

/-- ENABLE = 0 (R362): instance 0 ignores it. (DEDUCED, log entry 28) -/
def disableInst (s : State) (n : Inst) : State := if n = 0 then s else askReset (setFld s (.inst n) 0x008 0 1 0) n 2

/-- INST_ENABLE (R362). -/
def execInstEnable (by_ : Requester) (n : Inst) (s : State) : Out := .next (bitsTo s by_ (.inst n) 0x008 1 1 false fun s => enableInst s n)

/-- INST_DISABLE (R362, R366). -/
def execInstDisable (by_ : Requester) (n : Inst) (s : State) : Out := .next (bitsTo s by_ (.inst n) 0x008 1 0 true fun s => disableInst s n)

/-- INST_RESET (R362, R366). -/
def execInstReset (by_ : Requester) (n : Inst) (s : State) : Out := .next (bitsTo s by_ (.inst n) 0x008 2 2 true fun s => askReset s n 1)

/-- The interrupt state of a function after its reset: every vector masked, none pending (R354). -/
def resetMsix (s : State) (n : Inst) : State :=
  { s with
    host.unmasked := s.host.unmasked.filter fun m => m.fn != n
    host.msixPend := s.host.msixPend.filter fun m => m.fn != n }

/-- VF_FLR (R366). -/
def execVfFlr (n : Inst) (s : State) : Out :=
  if n ≠ 0 ∧ fnUp s n = true then .next (askReset (resetMsix s n) n 3) else .next s

/-- VF_ENABLE_CLEAR (R366): instances 1 to 31 are reset. -/
def execVfEnableClear (s : State) : Out :=
  if s.host.vfEnable && s.host.linkUp then
    .next ((upFrom 1 31).foldl (fun s n => askReset s (Fin.ofNat 32 n) 4) { s with host.vfEnable := false })
  else .next s

/-- VF_ENABLE_SET (R353). -/
def execVfEnableSet (s : State) : Out := if s.host.linkUp then .next { s with host.vfEnable := true } else .next s

/-! ## Reset: its end (R367 steps 5 and 6) -/

/-- Whether passes of an instance are still in flight. -/
def passesLeft (s : State) (n : Inst) : Bool := s.tile.tiles.any fun (_, t) => t.flight.any fun f => f.req.inst == n

/-- Step 6 clears the tiles that an instance owns. -/
def clearOwned (s : State) (n : Inst) : State :=
  { s with tile.tiles := tabMap (fun p t => match logTile s p with
      | some l => if ownsTile s n l then clearTile t else t
      | none => t) s.tile.tiles }

/-- INST_RESET_DONE (R367): statuses are written, and the instance's threads, entries, rings and tiles are
cleared. -/
def execInstResetDone (n : Inst) (s : State) : Out :=
  if (getInst s n).st ≠ .resetting ∨ passesLeft s n = true then .next s
  else
    let es := (s.op.table.filter fun (_, o) => o.used && o.inst == n).map Prod.fst
    let s := es.foldl (fun s e => completeWith (dropReads s e) e ((getOp s e).result.getD rInstReset)) s
    let hs := (s.time.launches.filter fun (_, l) => l.inst == n && l.held.isSome).map Prod.fst
    let s := hs.foldl finishHeld s
    let ts := (s.mbx.threads.filter fun (_, th) => th.inst == n).map Prod.fst
    let s := clearOwned (ts.foldl freeThr s) n
    let s := { s with
      mbx.gsteps := s.mbx.gsteps.filter fun (k, _) => k / 256 != n.val
      mbx.rings := s.mbx.rings.filter fun (k, _) => k / 4 != n.val
      fab.unacked := s.fab.unacked.filter fun c => !(c.inst == n && c.op.isSome) }
    let i := getInst s n
    .next (emitInst (setInst s n { i with st := i.after, cntAddr := 0, cntLow := none }) n 2)

end Sys2Proof.Machine
end

