-- ==== Sys2Proof/Machine/Resets.lean ====
section
/-! DEFINITION. Resets of the device (R469 to R475), the thermal trip (R417 to R419), and PERST_N. -/

namespace Sys2Proof.Machine

open Sys2Proof

/-! ## PERST_N and function-level reset of the physical function (R188, R366, R470, R475) -/

/-- A tile after PERST_N: its image, arrays, scales and class 0 and 1 entries stay; variants, positions, blocks and
work are gone. -/
def perstTile (t : Tile) : Tile :=
  { clearTile t with
    todo := [], flight := [], runs := [], parked := [], seeds := [], recompQ := [], exactQ := [], exactBusy := none
    boundary := 0, nextB := 0, spills := 0, evicts := 0 }

/-- Whether an address lies in the protected region (R329). (DESIGN CHOICE, log entry 47) -/
def protectedAt (a : Nat) : Bool := protBase ≤ a && a < ctxBase

/-- A stack after a reset that keeps power: its fence and its rows stay, and its counters restart. (DESIGN CHOICE, log entry 47) -/
def perstStack (k : Stack) : Stack := { k with corrected := 0 }

/-- A reset of the whole device that keeps power (R475); `flr` keeps the PCIe link and the device fence. (DESIGN CHOICE, log entry 46) -/
def resetDevice (s : State) (flr : Bool) : State :=
  let up := s.host.linkUp
  let s := match s.img.load with
    | some ⟨_, none, _⟩ => abortLoad s
    | _ => s
  let s := resetRegs (dropWork s) false
  let why := if flr then s.flt.devFenceWhy else s.flt.devFenceWhy / 2 * 2
  { s with
    time.cadences := []
    tile.tiles := tabMap (fun _ t => perstTile t) s.tile.tiles
    img := { s.img with loadReason := 0, loadStage := 0, loadDone := false, progress := 0 }
    mem := { cells := s.mem.cells.filter fun (a, _) => protectedAt a
             poison := s.mem.poison.filter fun l => protectedAt (l * 64)
             stackTab := tabMap (fun _ k => perstStack k) s.mem.stackTab }
    host := { s.host with scrub := true, linkUp := up && flr }
    flt := { s.flt with devFenceWhy := why, devFence := why != 0 } }

/-- PERST_N_FALL (R188, R366, R474, R475). -/
def execPerstNFall (s : State) : Out :=
  if s.host.perst then .next s
  else
    let s := setCause (resetDevice s false) 1
    .next { s with host.perst := true }

/-- PERST_N_RISE (R469 step 15, R470): link training starts once the host interface is usable. -/
def execPerstNRise (s : State) : Out :=
  if s.host.perst then .next { s with host.perst := false, host.linkUp := domUsable s 42 } else .next s

/-- PF_FLR (R366, R474, R475). (DESIGN CHOICE, log entry 47) -/
def execPfFlr (s : State) : Out := if fnUp s 0 then .next (setCause (resetDevice s true) 2) else .next s

/-- PERST_SCRUB_DONE (R475). (DESIGN CHOICE, log entry 47) -/
def execPerstScrubDone (s : State) : Out := if s.host.scrub then .next { s with host.scrub := false } else .next s

/-! ## Power-on (R469, R474, R475) -/

/-- The device after P12AUX has qualified and the Keep has started: what the calibration store, the OTP store and the
arrays hold, and nothing else. A zeroise that was cut off resumes (R142). -/
def powerOn (s : State) (copyA copyB : Bool) : State :=
  let cold : State := {}
  bootKeep { cold with
    pending := s.pending
    now := s.now
    free := s.free
    tile := { tiles := tabMap (fun _ t => { coldTile s.now t with fenced := false, fenceWhy := 0 }) s.tile.tiles, tmap := s.tile.tmap }
    img := { anchors := s.img.anchors, policyBoth := s.img.policyBoth, zeroise := s.img.zeroiseFlag
             zeroiseFlag := s.img.zeroiseFlag, calGen := s.img.calGen, userSets := s.img.userSets }
    flt := { devFence := s.img.zeroiseFlag, devFenceWhy := if s.img.zeroiseFlag then 2 else 0 }
    pwr := { domAt := (upFrom 0 47).map fun d => (d, s.now) }
    keep := { fwNew := s.keep.fwNew, fwGen := s.keep.fwGen, starts := s.keep.starts + 1 }
    host := { perst := s.host.perst } } copyA copyB

/-- The I3C static address of the Keep (R477): a change of MODID takes effect at the next power-on. -/
def i3cAddress (s : State) : Nat := 0x30 + (Config.modid s.keep.starts).toNat

/-- P12AUX_QUALIFIED (R399, R469 steps 2 to 4, R471). -/
def execP12auxQualified (copyA copyB : Bool) (s : State) : Out :=
  if s.pwr.p12ok then .next s else .next (updAlert (powerOn s copyA copyB))

/-! ## The trip (R417 to R419) -/

/-- The die, sensor and reading that tripped, as THERM.TRIP holds them (R459). -/
def tripWord (die sensor reading : Nat) : W32 := BitVec.ofNat 32 (1 + die * 16 + sensor * 256 + reading * 65536)

/-- The number of a sensor: Spire n at 64n, the Dome at 256, the stacks at 288 (R410). -/
def sensorIx (die sensor : Nat) : Nat := if die < 4 then die * 64 + sensor else if die = 4 then 256 + sensor else 288 + sensor

/-- Whether a comparator may trip: its sensor is not FAILED, and reads at least 113 °C; a stack's signal is its own. (DEDUCED, log entry 48) -/
def mayTrip (s : State) (die sensor : Nat) (reading : W16) : Bool :=
  (tabGet ({} : Sensor) s.pwr.sensors (sensorIx die sensor)).mark != 2 && (die == 5 || decide (904 ≤ toSigned 16 reading.toNat))

/-- THERMAL_TRIP (R417, R419): the first trip sets the latch; every domain goes off, and a request ends with
PWR_TRIP. -/
def execThermalTrip (die : BitVec 4) (sensor : Byte) (reading : W16) (s : State) : Out :=
  if s.pwr.p12ok = false ∨ s.pwr.trip = true ∨ 5 < die.toNat ∨ mayTrip s die.toNat sensor.toNat reading = false then .next s
  else
    let busy := s.pwr.domBusy
    let s := losePower s
    let s := { s with pwr.trip := true, pwr.tripInfo := tripWord die.toNat sensor.toNat reading.toNat, pwr.tripCool := none }
    let s := match busy with
      | some d => domRefuse s d 4
      | none => s
    .next (emitPower s actFenced unitKeep 7 0 die.toNat sensor.toNat reading.toNat)

/-- TRIP_CLEAR (R418): every valid sensor has read below 90 °C for 30 s. -/
def execTripClear (s : State) : Out :=
  match s.pwr.tripCool with
  | some t =>
    if s.pwr.trip && decide (t + 30 * 40000000000 ≤ s.now) then
      .next (beginUp (setCause { s with pwr.trip := false, pwr.tripInfo := s.pwr.tripInfo &&& 0xFFFFFFFE#32, pwr.tripCool := none } 4))
    else .next s
  | none => .next s

end Sys2Proof.Machine
end

