-- ==== Sys2Proof/Machine/HostIo.lean ====
section
/-! DEFINITION. The host interface: BAR4 (R351, R363), CXL.mem (R356), completions of the device's own requests (R337,
R341), and MSI-X vectors (R354). -/

namespace Sys2Proof.Machine

open Sys2Proof

/-! ## BAR4 (R186, R335, R341, R351, R363, R475) -/

/-- Whether a function reaches a range of device memory through BAR4. -/
def bar4Open (s : State) (fn : Inst) (a len : Nat) : Bool := instEnabled s fn && inInstStacked s fn a len

/-- The bytes of device memory that the host reads: a line with an uncorrectable error gives bytes that the
specification does not name (R335, R336). (DESIGN CHOICE, log entry 18) -/
def hostView (s : State) (a len : Nat) : List Byte :=
  (upFrom a len).map fun x => if lineBad s x then Config.undefByte s.free x else rdByte s x

/-- A read returns data to the host. (DESIGN CHOICE, log entry 18) -/
def hostAnswer (s : State) (l : List Byte) : State := bumpFree { s with host.readOut := l }

/-- BAR4_READ (R351, R363, R475). -/
def execBar4Read (fn : Inst) (a : W64) (len : Nat) (s : State) : Out :=
  if !fnUp s fn then .next s
  else if s.host.scrub then .next (hostAnswer s (List.replicate len 0))
  else if bar4Open s fn a.toNat len then .next (hostAnswer s (hostView s a.toNat len))
  else .next (hostAnswer (accessError s fn) (List.replicate len 0xFF))

/-- BAR4_WRITE (R341, R351, R363): a TLP received whole is applied whole, in ascending order. -/
def execBar4Write (fn : Inst) (a : W64) (data : List Byte) (s : State) : Out :=
  if !fnUp s fn then .next s
  else if bar4Open s fn a.toNat data.length then .next (wrStacked s a.toNat data)
  else .next (accessError s fn)

/-! ## CXL.mem (R356) -/

def getHdm (s : State) (i : Nat) : Hdm := tabGet {} s.host.hdms i

/-- The committed decoder that covers a host address, and the device address. -/
def hdmHit (s : State) (a : Nat) : Option (Hdm × Nat) :=
  match firstOf (fun i => (getHdm s i).committed && (getHdm s i).base.toNat ≤ a && a < (getHdm s i).base.toNat + (getHdm s i).size.toNat)
      (upFrom 0 4) with
  | some i => some (getHdm s i, (getHdm s i).dev.toNat + (a - (getHdm s i).base.toNat))
  | none => none

/-- Whether a decoder may be committed: units of 256 MiB, and user memory of its one instance. (PRESUMED, log entry 10) -/
def hdmOk (s : State) (h : Hdm) : Bool :=
  h.base.toNat % 2 ^ 28 == 0 && h.size.toNat % 2 ^ 28 == 0 && h.dev.toNat % 2 ^ 28 == 0 && h.size != 0 &&
    decide (h.base.toNat + h.size.toNat ≤ 2 ^ 64) && inUser s h.inst h.dev.toNat h.size.toNat

/-- HDM_COMMIT (R356): a decoder outside its instance's memory is refused. -/
def execHdmCommit (i : Fin 4) (base size dev : W64) (inst : Inst) (s : State) : Out :=
  let h : Hdm := ⟨true, base, size, dev, inst⟩
  if fnUp s 0 && hdmOk s h then .next { s with host.hdms := tabPut s.host.hdms i h } else .next s

/-- CXL_MEM_READ (R356): 64 bytes through a decoder; memory that its instance has lost meanwhile gives bytes that the
specification does not name. (DESIGN CHOICE, log entry 18) -/
def execCxlMemRead (a : W64) (s : State) : Out :=
  match if fnUp s 0 then hdmHit s (a.toNat / 64 * 64) else none with
  | none => .next s
  | some (h, d) =>
    if inUser s h.inst d 64 then .next (hostAnswer s (hostView s d 64))
    else .next (hostAnswer s ((upFrom d 64).map (Config.undefByte s.free)))

/-- CXL_MEM_WRITE (R356): 64 bytes through a decoder. (DESIGN CHOICE, log entry 18) -/
def execCxlMemWrite (a : W64) (data : List Byte) (s : State) : Out :=
  match if fnUp s 0 then hdmHit s (a.toNat / 64 * 64) else none with
  | none => .next s
  | some (h, d) => if inUser s h.inst d 64 then .next (wrStacked s d data) else .next s

/-! ## The device as requester (R206, R333, R337, R341) -/

/-- The thread whose load a request carries, unless the thread or its instance has ended since (R341). -/
def loadOf (s : State) (tag : Nat) : Option (Nat × HostLoad) :=
  if tabHas s.host.reqs tag then
    let r := tabGet (⟨0, 0, none, none⟩ : HostReq) s.host.reqs tag
    match r.tid with
    | some t =>
      match (getThr s t.toNat).hostLoad with
      | some h => if h.tag = tag ∧ r.gen = (getInst s r.inst).gen then some (t.toNat, h) else none
      | none => none
    | none => none
  else none

/-- A host load returns its value (R206). (DESIGN CHOICE, log entry 19) -/
def loadDone (s : State) (t : Nat) (h : HostLoad) (data : List Byte) : State :=
  setThr s t (retired { gWr (getThr s t) h.dest (extend h.size h.sx (ofBytes data)) with hostLoad := none })

/-- A host load fails (R337); a thread that is SUSPENDED meanwhile stays so (R219). (DESIGN CHOICE, log entry 19) -/
def loadFailed (s : State) (t : Nat) (h : HostLoad) : State :=
  let th := getThr s t
  let s := except (setThr s t { th with hostLoad := none }) t 0x05 h.addr 8
  let after := getThr s t
  if th.st == .suspended && live after then setThr s t { after with st := .suspended, prior := some (after.st, after.wait) } else s

/-- The read of an operation that a request carries, unless its engine has abandoned it (R340). -/
def readerOf (s : State) (tag : Nat) : Option HostReader :=
  if tabHas s.host.reqs tag then
    match (tabGet (⟨0, 0, none, none⟩ : HostReq) s.host.reqs tag).reader with
    | some x => if tagLive s x.tag then some x else none
    | none => none
  else none

/-- HOST_COMPLETION (R337, R341). What an operation has read comes with its BURST_DONE or ATTN_BLOCK. (DESIGN CHOICE, log
entry 67) -/
def execHostCompletion (tag : Fin 1024) (ok : Bool) (data : List Byte) (s : State) : Out :=
  match loadOf s tag with
  | none =>
    match readerOf s tag with
    | some x => if ok then .next s else .next (readerFailed (freeReq s tag) x)
    | none => .next (freeReq s tag)
  | some (t, h) =>
    if ok && data.length == h.size then .next (loadDone (freeReq s tag) t h data) else .next (loadFailed (freeReq s tag) t h)

/-- COMPLETION_TIMEOUT (R337). -/
def execCompletionTimeout (tag : Fin 1024) (s : State) : Out :=
  match loadOf s tag with
  | none =>
    match readerOf s tag with
    | some x => .next (readerFailed (freeReq s tag) x)
    | none => .next (freeReq s tag)
  | some (t, h) => .next (loadFailed (freeReq s tag) t h)

/-! ## MSI-X (R354) -/

/-- MSIX_UNMASK (R354): a pending vector is delivered. -/
def execMsixUnmask (fn : Inst) (v : Fin 2048) (s : State) : Out :=
  if !fnUp s fn || regFld s (.inst fn) 0x01C 16 12 ≤ v.val then .next s
  else
    let m : Msi := ⟨fn, v⟩
    let s := if s.host.unmasked.contains m then s else { s with host.unmasked := m :: s.host.unmasked }
    if s.host.msixPend.contains m then
      .next { s with host.msixPend := s.host.msixPend.filter (· != m), host.msix := m :: s.host.msix }
    else .next s

end Sys2Proof.Machine
end

