-- ==== Sys2Proof/Machine/Doe.lean ====
section
/-! DEFINITION. The DOE mailbox of the physical function (R355): DOE Discovery and the SPDM responder. The specification
names the requests and what the answers carry; the response codes and the places of fields are PRESUMED from SPDM 1.3. -/

namespace Sys2Proof.Machine

open Sys2Proof

/-! ## Response codes (PRESUMED: SPDM 1.3) -/

def spdmDigests : Byte := 0x01
def spdmCertificate : Byte := 0x02
def spdmChallengeAuth : Byte := 0x03
def spdmVersionRsp : Byte := 0x04
def spdmMeasurements : Byte := 0x60
def spdmCapabilities : Byte := 0x61
def spdmAlgorithms : Byte := 0x63
def spdmError : Byte := 0x7F

/-- An answer put into the mailbox. -/
def doePut (s : State) (kind : Byte) (data : List Byte) : State :=
  { s with host.doeOut := s.host.doeOut ++ [⟨kind, data⟩] }

/-- Bytes that the security hardware forms: the specification states no value for them. -/
def secretBytes (s : State) (a n : Nat) : List Byte := (upFrom a n).map (Config.secretByte s.free)

/-- An answer with bytes that the security hardware forms. (PRESUMED, log entry 16) -/
def doeSigned (s : State) (kind : Byte) (data : List Byte) : State := bumpFree (doePut s kind data)

/-- A request reaches the responder while the physical function responds; before GET_VERSION it is answered with an
error. (PRESUMED, log entry 16) -/
def spdm (s : State) (f : State → State) : State :=
  if !fnUp s 0 then s else if s.host.spdmVersion then f s else doePut s spdmError [0x04]

/-- DOE_DISCOVERY (R355): index 0 is Discovery itself, index 1 CMA/SPDM. -/
def execDoeDiscovery (index : Byte) (s : State) : Out :=
  if !fnUp s 0 then .next s
  else if index = 0 then .next (doePut s 0x00 [0x01, 0x00, 0x00, 0x01])
  else if index = 1 then .next (doePut s 0x00 [0x01, 0x00, 0x01, 0x00])
  else .next (doePut s 0x00 [0xFF, 0xFF, 0x00, 0x00])

/-- GET_VERSION (R355): SPDM 1.3. -/
def execGetVersion (s : State) : Out :=
  if fnUp s 0 then .next (doePut { s with host.spdmVersion := true } spdmVersionRsp [0x13]) else .next s

/-- GET_CAPABILITIES (R355): certificates, challenges and signed measurements. -/
def execGetCapabilities (s : State) : Out := .next (spdm s fun s => doePut s spdmCapabilities [0x16])

/-- NEGOTIATE_ALGORITHMS (R355): ECDSA P-384 and SHA-384, or an error when the requester offers neither or one. -/
def execNegotiateAlgorithms (p384 sha384 : Bool) (s : State) : Out :=
  .next (spdm s fun s => if p384 && sha384 then doePut s spdmAlgorithms [0x80, 0x02] else doePut s spdmError [0x01])

/-- The device identity chain in slot 0, from byte `off` on, at most `len` bytes (R355). -/
def chainPart (off len : Nat) : List Byte := (upFrom off (min len (Config.chainLen - off))).map Config.chainByte

/-- The SHA-384 digest of the chain in slot 0 (R355). -/
def chainDigest : List Byte := sha384 (chainPart 0 Config.chainLen)

/-- GET_DIGESTS (R355). -/
def execGetDigests (s : State) : Out := .next (spdm s fun s => doePut s spdmDigests (0x01 :: chainDigest))

/-- GET_CERTIFICATE (R355): a part of the device identity chain in slot 0. -/
def execGetCertificate (slot : BitVec 4) (off len : W16) (s : State) : Out :=
  .next (spdm s fun s =>
    if slot = 0 then doePut s spdmCertificate (chainPart off.toNat len.toNat) else doePut s spdmError [0x01])

/-- CHALLENGE (R355): the nonce comes back with the digest and a P-384 signature. -/
def execChallenge (slot : BitVec 4) (nonce : BitVec 256) (s : State) : Out :=
  .next (spdm s fun s =>
    if slot = 0 then doeSigned s spdmChallengeAuth (chainDigest ++ toBytes nonce.toNat 32 ++ secretBytes s 0 96)
    else doePut s spdmError [0x01])

/-- What measurement `k` covers (R355): the firmware of the Keep as it runs, the firmware of the security engine and the boot
code of the cores, which are this device's own, the active calibration set, and the OTP anchors. (DESIGN CHOICE, log
entry 16) -/
def measured (s : State) (k : Nat) : List Nat :=
  match k with
  | 1 => [b2n s.keep.fwA, if s.keep.fwA then s.keep.fwGen else 0]
  | 4 =>
    match s.img.userSets with
    | x :: _ => x.generation :: x.cells.flatMap fun (a, b) => [a, b.toNat]
    | [] => []
  | 5 => b2n s.img.policyBoth :: s.img.anchors.flatMap fun (n, a) => [n, a.hash.toNat, b2n a.valid, b2n a.revoked, a.floor]
  | _ => []

/-- Measurement `k`. -/
def measurement (s : State) (k : Nat) : List Byte := (upFrom 0 48).map (Config.measureByte k (measured s k))

/-- GET_MEASUREMENTS (R355): the number of measurements, one of the five, or all, with the nonce and a signature. -/
def execGetMeasurements (op : Byte) (nonce : BitVec 256) (s : State) : Out :=
  .next (spdm s fun s =>
    let sign := toBytes nonce.toNat 32 ++ secretBytes s 0 96
    if op = 0 then doeSigned s spdmMeasurements (0x05 :: sign)
    else if op = 0xFF then doeSigned s spdmMeasurements (0x05 :: (upFrom 1 5).flatMap (measurement s) ++ sign)
    else if op.toNat ≤ 5 then doeSigned s spdmMeasurements (0x01 :: measurement s op.toNat ++ sign)
    else doePut s spdmError [0x01])

end Sys2Proof.Machine
end

