-- ==== Sys2Proof/Machine/Thermal.lean ====
section
/-! DEFINITION. Sensors (R410 to R412, R430), throttling (R413 to R416), and temperature compensation (R420, R421). -/

namespace Sys2Proof.Machine

open Sys2Proof

/-- A metrology converter, as converter number. -/
def getMet (s : State) (x : Nat) : Met := tabGet {} s.met.mets x
def setMet (s : State) (x : Nat) (v : Met) : State := { s with met.mets := tabPut s.met.mets x v }

/-- The Keep has measured an input with a filter while no channel held the converter (R425). -/
def metIdle (s : State) (x input filter : Nat) : State :=
  let m := getMet s x
  if m.holder.isSome then s else setMet s x { m with input := some input, filter := filter }

/-! ## Sensors (R410, R411) -/

def getSensor (s : State) (i : Nat) : Sensor := tabGet {} s.pwr.sensors i
def setSensor (s : State) (i : Nat) (v : Sensor) : State := { s with pwr.sensors := tabPut s.pwr.sensors i v }

/-- The die of a sensor number: 0 to 3 a Spire, 4 the Dome, 5 the stacks (R459). -/
def sensorDie (i : Nat) : Nat := if i < 256 then i / 64 else if i < 288 then 4 else 5

/-- The number of a sensor on its die (R410). -/
def sensorNo (i : Nat) : Nat := if i < 256 then i % 64 else if i < 288 then i - 256 else i - 288

/-- A reading in units of 0.125 °C (R411). (DESIGN CHOICE, log entry 11) -/
def reading (x : Sensor) : Int := toSigned 16 x.reading.toNat

/-- Sensors that have been sampled since the Keep started. -/
def sampled (s : State) (i : Nat) : Bool := tabHas s.pwr.sensors i

/-- A sensor becomes SUSPECT or FAILED: its POWER record (R412, R484). -/
def markSensor (s : State) (i : Nat) (mark : BitVec 2) : State :=
  let x := getSensor s i
  if x.mark = mark then s
  else
    emitPower (setSensor s i { x with mark := mark, run := 0 }) actNone unitKeep (if mark = 2 then 4 else 3) 0 (sensorDie i)
      (sensorNo i) (ofSigned 32 (reading x))

/-- A sensor is sampled; a reading outside −40 °C to 150 °C marks it FAILED at once (R411). -/
def sampleSensor (s : State) (r : Nat × W16) : State :=
  if 296 ≤ r.1 then s
  else
    let s := setSensor s r.1 { getSensor s r.1 with reading := r.2, seenAt := s.now }
    let v := toSigned 16 r.2.toNat
    if v < -320 ∨ 1200 < v then markSensor s r.1 2 else s

/-- A stack that has reported before and is on, but has given no reading for more than 1 ms, has stopped reporting:
its sensor is FAILED (R411). (DEDUCED, log entry 11) -/
def silentStack (s : State) (k : Nat) : State :=
  let x := getSensor s (288 + k)
  if !sampled s (288 + k) then s
  else if !domUsable s (28 + k) then setSensor s (288 + k) { x with seenAt := s.now }
  else if x.seenAt + 40000000 < s.now then markSensor s (288 + k) 2
  else s

/-- Whether every valid sensor reads below 90 °C (R418). -/
def allCool (s : State) : Bool := s.pwr.sensors.all fun (_, x) => x.mark == 2 || decide (reading x < 720)

/-- While the trip is latched, the time since which every valid sensor has read below 90 °C is kept (R418). -/
def noteCool (s : State) : State :=
  if !s.pwr.trip then s
  else if allCool s then { s with pwr.tripCool := some (s.pwr.tripCool.getD s.now) }
  else { s with pwr.tripCool := none }

/-- SENSOR_SAMPLE (R411). The Keep samples while it runs. -/
def execSensorSample (readings : List (Nat × W16)) (s : State) : Out :=
  if s.keep.running then .next (updAlert (noteCool ((upFrom 0 8).foldl silentStack (readings.foldl sampleSensor s)))) else .next s

/-! ## Cross-checks (R412, R430) -/

/-- Readings in rising order. -/
def insertInt (v : Int) : List Int → List Int
  | [] => [v]
  | x :: r => if v ≤ x then v :: x :: r else x :: insertInt v r

def sortInts (l : List Int) : List Int := l.foldr insertInt []

/-- The neighbours of a sensor that read: sampled, on its die, and not FAILED (R410). (DESIGN CHOICE, log entry 20) -/
def nearReadings (s : State) (i : Nat) : List Int :=
  sortInts (((Config.neighbours i).filter fun k => sensorDie k == sensorDie i && k != i && sampled s k && (getSensor s k).mark != 2).map
    fun k => reading (getSensor s k))

/-- Twice the median of readings in rising order; of an even number, the sum of the two in the middle. (DESIGN CHOICE, log entry 20) -/
def median2 (l : List Int) : Int := nth 0 l ((l.length - 1) / 2) + nth 0 l (l.length / 2)

/-- The greatest of readings in rising order. -/
def topOf (l : List Int) : Int := nth 0 l (l.length - 1)

/-- Whether a sensor differs from its neighbours by more than 8 °C while they agree within 4 °C (R412 rule 1). -/
def outOfLine (x : Sensor) (near : List Int) : Bool :=
  !near.isEmpty && decide (128 < (2 * reading x - median2 near).natAbs) && decide (topOf near - nth 0 near 0 ≤ 32)

/-- One cross-check of a sensor: SUSPECT at the tenth in a row. (DESIGN CHOICE, log entry 20) -/
def crosscheck (s : State) (i : Nat) : State :=
  let x := getSensor s i
  if x.mark ≠ 0 then s
  else if !outOfLine x (nearReadings s i) then setSensor s i { x with run := 0 }
  else if x.run + 1 < 10 then setSensor s i { x with run := x.run + 1 }
  else markSensor s i 1

/-- SENSOR_CROSSCHECK (R412). -/
def execSensorCrosscheck (s : State) : Out :=
  if s.keep.running then .next (updAlert (((s.pwr.sensors.map Prod.fst).eraseDups).foldl crosscheck s)) else .next s

/-- The value of a diode measured by metrology, when its sensor is SUSPECT (R412 rules 3 and 4). (DESIGN CHOICE, log entry 20) -/
def judgeSuspect (s : State) (i : Nat) (v : W16) : State :=
  let x := getSensor s i
  let m := toSigned 16 v.toNat
  let near := nearReadings s i
  if (m - reading x).natAbs ≤ 16 then setSensor s i { x with mark := 0, run := 0 }
  else if !near.isEmpty && decide ((2 * m - median2 near).natAbs ≤ 32) then
    markSensor (setSensor s i { x with standIn := some v }) i 2
  else s

/-- What stands in for a FAILED sensor: its metrology value, or without a converter the highest neighbour and 4 °C
(R412 rules 4 and 5). -/
def standFor (s : State) (i : Nat) (v : W16) : Option W16 :=
  let near := nearReadings s i
  if domUsable s 46 then some v
  else if near.isEmpty then none
  else some (BitVec.ofNat 16 (ofSigned 16 (topOf near + 32)))

/-! ## Throttling (R401, R413 to R416) -/

/-- The sensors of a throttle group: a Spire, or the Dome with the stacks. -/
def groupSensors (s : State) (g : Nat) : List Sensor :=
  (s.pwr.sensors.filter fun (i, _) => if g < 4 then i / 64 == g else decide (256 ≤ i)).map Prod.snd

/-- T_max of a group: the highest valid or standing-in reading. -/
def hottest (l : List Sensor) : Option Int :=
  match sortInts (l.filterMap fun x => if x.mark = 2 then x.standIn.map fun v => toSigned 16 v.toNat else some (reading x)) with
  | [] => none
  | r => some (topOf r)

/-- r_T × 4,096 for a T_max, against a threshold in °C (R413, R415). -/
def thermalFactor (tmax : Int) (thr : Nat) : Nat := max 256 (((409600 - 3072 * (tmax - 8 * (thr : Int))) / 100).toNat)

/-- r_T × 4,096 of a group; a Spire with more than 8 FAILED sensors is held to one half (R412). -/
def groupFactor (s : State) (g : Nat) : Nat :=
  let l := groupSensors s g
  let thr := regFld s .therm 0x008 0 8
  let r := match hottest l with
    | some t => if t ≤ 8 * (thr : Int) then 4096 else thermalFactor t thr
    | none => 4096
  if g < 4 ∧ 8 < (l.filter fun x => x.mark == 2).length then min 2048 r else r

/-- P_EFF in units of 0.01 W (R401). -/
def effCap (s : State) : Nat := min (regFld s .pwr 0x018 0 11 * 100) (s.pwr.p48.toNat * 26)

/-- The cap factor × 4,096 after an update (R414, R415). -/
def capFactor (r avg eff : Nat) : Nat :=
  if eff < avg then max 256 (r * eff / avg) else if avg * 100 < 97 * eff then min 4096 (r + 40) else r

/-- THROTTLE_UPDATE (R413 to R415). -/
def execThrottleUpdate (pAvg : W16) (p48 : W16) (s : State) : Out :=
  if !s.keep.running then .next s
  else
    let s := { s with pwr.pAvg := pAvg, pwr.p48 := p48 }
    let s := { s with pwr.rT := (upFrom 0 5).map fun g => (g, groupFactor s g), pwr.rP := capFactor s.pwr.rP (pAvg.toNat * 10) (effCap s) }
    .next (updAlert s)

/-! ## Compensation (R420, R421) -/

/-- The valid sensors of a field, as Spire × 4 + field: sensors 12f to 12f + 11 of its Spire. (PRESUMED, log entry 21) -/
def fieldSensors (s : State) (k : Nat) : List Sensor :=
  (s.pwr.sensors.filter fun (i, x) => i / 64 == k / 4 && i % 64 / 12 == k % 4 && decide (i % 64 < 48) && x.mark != 2).map Prod.snd

/-- The mean reading of a field's valid sensors, if it has any. (PRESUMED, log entry 21) -/
def fieldMean (s : State) (k : Nat) : Option W16 :=
  let l := fieldSensors s k
  if l.isEmpty then none
  else some (BitVec.ofNat 16 (ofSigned 16 ((l.map reading).foldl (· + ·) 0 / (l.length : Int))))

/-- A field's converter reference follows its mean temperature (R421). -/
def compensate (s : State) (k : Nat) : State :=
  match fieldMean s k with
  | some m => { s with pwr.fieldRef := tabPut s.pwr.fieldRef k m }
  | none => s

/-- REFERENCE_COMPENSATION (R421). -/
def execReferenceCompensation (s : State) : Out :=
  if s.keep.running then .next ((upFrom 0 16).foldl compensate s) else .next s

/-- OSC_TEMP_READ (R420): while LOCKED a record is kept; in HOLDOVER the fitted value is applied. -/
def execOscTempRead (temp : W16) (s : State) : Out :=
  if !s.keep.running || !domUsable s 46 then .next s
  else
    let s := metIdle { s with pwr.oscTemp := some temp } 4 0x34 0x52
    match s.time.belfry.state with
    | .locked => .next { s with pwr.oscRecs := s.pwr.oscRecs ++ [(temp, s.time.belfry.freqAdj)] }
    | .holdover => .next (bumpFree (setBelfry s { s.time.belfry with freqAdj := clampSteer (Config.oscFit s.free) }))
    | _ => .next s

end Sys2Proof.Machine
end

