-- ==== Sys2Proof/Machine/Metrology.lean ====
section
/-! DEFINITION. Metrology: converters and their settling (R422 to R425), host channels (R431 to R433), SENSE tests
(R427), arbitration (R428), drift calibration (R429), and the thermal fallback (R412, R430). -/

namespace Sys2Proof.Machine

open Sys2Proof

/-! ## Converters (R425, R428) -/

def getChan (s : State) (k : Nat) : Chan := tabGet {} s.met.chans k
def setChan (s : State) (k : Nat) (v : Chan) : State := { s with met.chans := tabPut s.met.chans k v }

/-- The output period of a FILTER byte in units of 25 ps: OSR / 8 µs. -/
def metPeriod (filter : Nat) : Nat := 2 ^ (5 + bits filter 4 4) * 5000

/-- The time to the first settled result of an input and filter (R425). (DESIGN CHOICE, log entry 14) -/
def settleTime (m : Met) (input filter : Nat) : Nat :=
  if m.input ≠ some input then (bits filter 0 2 + 2) * metPeriod filter
  else if m.filter = filter then metPeriod filter
  else (bits filter 0 2 + 1) * metPeriod filter

/-- A measurement begins on a converter. -/
def beginMet (s : State) (x input filter : Nat) (holder : Option (Fin 8)) (reserved : Bool) : State :=
  let m := getMet s x
  setMet s x { m with
    holder := holder, input := some input, filter := filter, reserved := reserved
    settledAt := s.now + settleTime m input filter }

/-- The raised channels of a converter. -/
def metRequests (s : State) (x : Nat) : List ArbReq :=
  (s.met.chans.filter fun (k, c) => k / 8 == x && c.running && c.raised).map fun (k, c) => ⟨c.prio, c.age, k % 8⟩

/-- NTH of a converter's arbiter (R349). -/
def metNth (s : State) (x : Nat) : Nat := regFld s (.met x) 0x00C 0 8

/-- A free converter is granted to one of its channels for one result (R428). -/
def grantMet (s : State) (x : Nat) : State :=
  if (getMet s x).holder.isSome || !domUsable s 46 then s
  else match arbPick s (arbMet x) (metNth s x) (metRequests s x) with
    | none => s
    | some (r, reserved) =>
      let c := getChan s (x * 8 + r.index)
      beginMet (arbCount s (arbMet x) reserved) x c.input c.filter (some (Fin.ofNat 8 r.index)) reserved

/-- A channel raises its request for the next result. -/
def raiseChan (s : State) (k : Nat) : State :=
  grantMet (setChan s k { getChan s k with raised := true, age := s.now, requestedAt := s.now }) (k / 8)

/-- A channel ends, and its converter serves the next. -/
def closeChan (s : State) (k err : Nat) : State := grantMet (endChan s k err) (k / 8)

/-! ## Host channels (R431, R433) -/

/-- Whether a channel measures a SENSE input with tests (R427). -/
def chanProbes (k : Nat) (c : Chan) : Bool := k / 8 == 4 && decide (c.input < 4) && c.probe

/-- The channel that a descriptor describes (R431). -/
def chanOf (l : List Byte) : Chan :=
  { running := true, input := at_ l 0 1, filter := at_ l 1 1, excite := bits (at_ l 2 1) 0 2
    unipolar := bit (at_ l 2 1) 2, probe := bit (at_ l 2 1) 3, prio := at_ l 3 1, count := at_ l 4 4
    interval := at_ l 8 4, ring := BitVec.ofNat 64 (at_ l 0x10 8), log2 := at_ l 0x18 1
    doneCnt := BitVec.ofNat 64 (at_ l 0x20 8) }

/-- Whether a descriptor meets R431, R11 and R184. -/
def chanOk (s : State) (x : Nat) (l : List Byte) : Bool :=
  let c := chanOf l
  (x != 4 || decide (c.input < 64)) && bits c.filter 2 2 == 0 && decide (bits c.filter 4 4 ≤ 11) &&
    decide (at_ l 2 1 < 16) && ((x == 4 && decide (c.input < 4)) || at_ l 2 1 == 0) && decide (c.prio ≤ 5) &&
    at_ l 0x0C 4 == 0 && c.ring.toNat % 64 == 0 && decide (4 ≤ c.log2 ∧ c.log2 ≤ 16) && at_ l 0x19 7 == 0 &&
    c.doneCnt.toNat % 8 == 0 && (c.doneCnt == 0 || inInstStacked s 0 c.doneCnt.toNat 8) && at_ l 0x28 24 == 0

/-- START (R422, R433). (DESIGN CHOICE, log entry 24) -/
def startChan (s : State) (x ch : Nat) : State :=
  let k := x * 8 + ch
  let a := (regAct s (.met x) (0x040 + 16 * ch)).toNat
  let l := rdBytes s a 64
  if (getChan s k).running then s
  else if !inInst s 0 a 64 || lineBad s a then setChan s k { err := 2 }
  else
    let s := bumpFree s
    if !chanOk s x l then setChan s k { err := 1 }
    else
      let c := chanOf l
      let s := setChan s k c
      let s := if chanProbes k c then
          { s with met.senses := tabPut s.met.senses c.input { tabGet ({} : Sense) s.met.senses c.input with probedAt := none } }
        else s
      if domUsable s 46 then raiseChan s k else endChan s k 3

/-- STOP (R433): a channel that holds the converter ends with its result, another at once. (DESIGN CHOICE, log entry 24) -/
def stopChan (s : State) (x ch : Nat) : State :=
  let k := x * 8 + ch
  let c := getChan s k
  if !c.running then s
  else if (getMet s x).holder.any (fun h => h.val == ch) then setChan s k { c with stopping := true }
  else closeChan s k 0

/-- CHANNEL_START (R431, R433). -/
def execChannelStart (by_ : Requester) (c : Fin 5) (ch : Fin 8) (s : State) : Out :=
  .next (orderTo s by_ (.met c) fun s => startChan s c ch)

/-- CHANNEL_STOP (R433). -/
def execChannelStop (by_ : Requester) (c : Fin 5) (ch : Fin 8) (s : State) : Out :=
  .next (orderTo s by_ (.met c) fun s => stopChan s c ch)

/-- CHANNEL_INTERVAL (R431). -/
def execChannelInterval (c : Fin 5) (ch : Fin 8) (s : State) : Out :=
  let k := c.val * 8 + ch.val
  let x := getChan s k
  if x.running && !x.raised && decide (x.requestedAt + x.interval * 40000 ≤ s.now) then .next (raiseChan s k) else .next s

/-! ## Results (R422, R425, R432) -/

/-- The flags of a result (R432). -/
def resultFlags (s : State) (k : Nat) (c : Chan) (clip : Bool) : Nat :=
  let f := tabGet ({} : Sense) s.met.senses c.input
  b2n clip + if chanProbes k c then 2 * b2n f.open_ + 4 * b2n f.short + 8 * b2n f.reversed else 0

/-- The bytes of a ring record (R432). (DESIGN CHOICE, log entry 24) -/
def metRecord (s : State) (k : Nat) (c : Chan) (code : BitVec 24) (clip : Bool) : List Byte :=
  toBytes (nsNow s) 8 ++ toBytes (ofSigned 32 (toSigned 24 code.toNat)) 4 ++ toBytes c.input 1 ++
    toBytes (resultFlags s k c clip) 1 ++ toBytes (c.taken + 1) 2

/-- Whether the device can write a channel's ring: in instance 0's memory, with no line bad. (DESIGN CHOICE, log entry 24) -/
def metRingOk (s : State) (c : Chan) : Bool :=
  let a := c.ring.toNat
  let n := 0x40 + 16 * 2 ^ c.log2
  inInst s 0 a n && !lineBad s a && !lineBad s (a + 0x40 + 16 * (rdNat s a 8 % 2 ^ c.log2))

/-- A record, then PROD; a full ring counts OVERRUN (R432). -/
def putResult (s : State) (k : Nat) (c : Chan) (code : BitVec 24) (clip : Bool) : State :=
  let a := c.ring.toNat
  let prod := rdNat s a 8
  let cons := rdNat s (a + 8) 8
  if (prod + 2 ^ 64 - cons) % 2 ^ 64 = 2 ^ c.log2 then wrNat s 0 (a + 16) 8 (rdNat s (a + 16) 8 + 1)
  else
    let s := wrBytes s 0 (a + 0x40 + 16 * (prod % 2 ^ c.log2)) (metRecord s k c code clip)
    wrNat s 0 a 8 (prod + 1)

/-- What a delivered result means for its channel (R431, R433). -/
def afterResult (s : State) (k : Nat) (c : Chan) : State :=
  let s := setChan s k { c with taken := c.taken + 1, raised := false }
  if c.stopping || (c.count != 0 && c.taken + 1 == c.count) then closeChan s k 0
  else if c.interval = 0 then raiseChan s k
  else grantMet s (k / 8)

/-- MET_RESULT (R422, R425, R428, R432). -/
def execMetResult (c : Fin 5) (code : BitVec 24) (clip : Bool) (s : State) : Out :=
  let m := getMet s c
  match m.holder with
  | none => .next s
  | some h =>
    let k := c.val * 8 + h.val
    let x := getChan s k
    if s.now < m.settledAt ∨ (chanProbes k x && (tabGet ({} : Sense) s.met.senses x.input).probedAt.isNone) = true then .next s
    else
      let s := setMet s c { m with holder := none }
      if metRingOk s x then .next (afterResult (bumpFree (putResult s k x code clip)) k x) else .next (closeChan s k 4)

/-! ## SENSE tests (R427) -/

/-- A test's findings on a pin; the first change issues one record. -/
def noteSense (s : State) (k : Nat) (f : SenseTest) : State :=
  let o := tabGet ({} : Sense) s.met.senses k
  let changed := o.open_ != f.open_ || o.short != f.short || o.reversed != f.reversed
  let n : Sense := ⟨f.open_, f.short, f.reversed, o.reported || changed, some s.now⟩
  let s := { s with met.senses := tabPut s.met.senses k n }
  if changed && !o.reported then
    emitPower s actNone unitKeep 9 k 0 0 (2 * b2n f.open_ + 4 * b2n f.short + 8 * b2n f.reversed)
  else s

/-- The running channel that tests a SENSE input. -/
def probing (s : State) (k : Nat) : Bool := s.met.chans.any fun (i, c) => c.running && chanProbes i c && c.input == k

/-- SENSE_PROBE (R427): before the first result, then every 1 s; the 400 µs of a test count as settling of the next
result. -/
def execSenseProbe (k : Fin 4) (f : SenseTest) (s : State) : Out :=
  let due := match (tabGet ({} : Sense) s.met.senses k).probedAt with
    | some t => decide (t + 40000000000 ≤ s.now)
    | none => true
  if probing s k && due then
    let s := noteSense s k f
    let m := getMet s 4
    if m.holder.any fun h => (getChan s (32 + h.val)).input == k.val then .next (setMet s 4 { m with settledAt := m.settledAt + 16000000 })
    else .next s
  else .next s

/-! ## Drift calibration (R83, R429) -/

/-- A trim that the Keep writes, in force from the next pass boundary of its tile (R83). (DESIGN CHOICE, log entry 23) -/
def writeTrim (f : Nat) (s : State) (w : TrimWrite) : State :=
  let p := f / 4 * 264 + f % 4 * 66 + w.tile.val
  let t := getTile s p
  let a := getArr t w.array
  setTile s p (setArr t w.array { a with newTrims := some (tabPut (a.newTrims.getD a.trims) w.trim.col.val (w.trim.gain, w.trim.offset)) })

/-- Whether a column gain trim of an array, as last written, is beyond ±6 % (R72, R138). -/
def driftedBeyond (x : Arr) : Bool := anyGain 6 (x.newTrims.getD x.trims)

/-- An array whose trims a cycle has written goes to deep recalibration where a gain has moved beyond ±6 %, provided
RECAL_EN is 1 (R72, R130, R138). -/
def recalDrifted (f : Nat) (s : State) (w : TrimWrite) : State :=
  let p := f / 4 * 264 + f % 4 * 66 + w.tile.val
  if regFld s (tileBlk p) 0x00C 4 1 = 1 ∧ driftedBeyond (arrOf s p w.array) = true then startRecal s p w.array 6 else s

/-- DRIFT_CALIBRATION (R429, R138): the cycle of a field ends. (DEDUCED, log entry 22) (DESIGN CHOICE, log entry 23) -/
def execDriftCalibration (f : Fin 16) (trims : List TrimWrite) (s : State) : Out :=
  if s.keep.running && domUsable s 46 then
    let s := metIdle (trims.foldl (recalDrifted f) (trims.foldl (writeTrim f) s)) (f / 4) (0x83 + 4 * (f.val % 4)) 0x51
    let m := match fieldMean s f with
      | some v => [(f.val, s.now, v)]
      | none => []
    .next { s with
      met.driftAt := tabPut s.met.driftAt f s.now
      met.driftRecs := s.met.driftRecs ++ m
      met.missed := s.met.missed.filter (· != f.val) }
  else .next s

/-- DRIFT_MISSED (R429): no cycle within 4 s. (DEDUCED, log entry 22) -/
def execDriftMissed (f : Fin 16) (s : State) : Out :=
  if s.keep.running && !s.met.missed.contains f.val && decide (tabGet 0 s.met.driftAt f + 160000000000 ≤ s.now) then
    .next (emitPower { s with met.missed := f.val :: s.met.missed } actNone unitKeep 8 f 0 0 0)
  else .next s

/-! ## Thermal fallback (R412, R428, R430) -/

/-- The converter and input of a diode (R423, R424). -/
def diodeInput (i : Nat) : Nat × Nat :=
  if i < 256 then (i / 64, 0x90 + i % 64) else if i < 288 then (4, 0x14 + (i - 256)) else (4, 0x0C + (i - 288))

/-- A fallback measurement has taken the converter: a result in progress is measured again, by its holder at once when
its grant was reserved (R428). (DESIGN CHOICE, log entry 25) -/
def takeMet (s : State) (x input : Nat) : State :=
  let m := getMet s x
  let s := arbCount s (arbMet x) (decide (metNth s x ≤ tabGet 0 s.arb (arbMet x) + 1))
  match m.holder with
  | none => metIdle s x input 0x32
  | some h =>
    let s := setMet s x { m with holder := none, input := some input, filter := 0x32 }
    let c := getChan s (x * 8 + h.val)
    if m.reserved then beginMet s x c.input c.filter (some h) true else grantMet s x

/-- FALLBACK_MEASURE (R412, R428, R430): a SUSPECT sensor is cleared, fails, or stays; a FAILED one gets its
stand-in. (DESIGN CHOICE, log entry 25) -/
def execFallbackMeasure (i : Nat) (value : W16) (s : State) : Out :=
  let x := getSensor s i
  let d := diodeInput i
  if !s.keep.running || x.mark == 0 || decide (296 ≤ i) then .next s
  else if x.mark = 2 then
    let s := setSensor s i { x with standIn := standFor s i value }
    .next (if domUsable s 46 then takeMet s d.1 d.2 else s)
  else if domUsable s 46 then .next (updAlert (takeMet (judgeSuspect s i value) d.1 d.2))
  else .next s

end Sys2Proof.Machine
end

