-- ==== Sys2Proof/Machine/RegRead.lean ====
section
/-! DEFINITION. What registers read as (R442 to R445, R447, R455 to R467), and the latches of the two-halves rule (R146,
R452, R453). -/

namespace Sys2Proof.Machine

open Sys2Proof

/-! ## Read-only values (R145, R158, R308, R362, R409, R433, R455 to R467) -/

/-- The sum of numbers. -/
def sumOf (l : List Nat) : Nat := l.foldl (· + ·) 0

/-- Free hot slots of the cores of a Spire that are not fenced. (DESIGN CHOICE, log entry 26) -/
def poolFree (s : State) (n : Nat) : Nat :=
  if s.flt.spireFenced.getLsbD n then 0
  else sumOf (((spireCores n).filter fun c => !(getCore s c).fenced).map fun c => 16 - (slotThreads s c).length)

/-- CMD_STAT (R456). -/
def roKeep (s : State) : Nat → Nat
  | 0x00C => b2n s.keep.busy.isSome + 2 * b2n s.keep.done + s.keep.result.toNat * 2 ^ 8
  | 0x020 => s.flt.evtSeq.toNat
  | 0x024 => s.flt.evtLost.toNat
  | _ => 0

def roGlobal (s : State) : Nat → Nat
  | 0x008 => 0x00200000 + Config.pciDevice 0
  | 0x010 => Config.serial.toNat
  | 0x018 => b2n s.flt.devFence
  | 0x01C => s.reg.resetCause.toNat
  | 0x028 => blkId (.cadence 0)
  | 0x02C => blkId (.cadence 1)
  | _ => 0

def roPwr (s : State) : Nat → Nat
  | 0x008 => b2n s.pwr.domBusy.isSome * 2 ^ 8 + s.pwr.domErr.toNat * 2 ^ 16
  | 0x010 => sumOf ((upFrom 0 47).map fun d => b2n (domUsable s d) * 2 ^ d)
  | 0x01C => s.pwr.short.toNat
  | 0x020 => s.pwr.p48.toNat
  | 0x024 => s.pwr.p12.toNat
  | 0x028 => s.pwr.pAvg.toNat
  | 0x02C => s.pwr.rP
  | 0x030 => alertCauses s
  | _ => 0

/-- SENSi (R459). -/
def sensWord (s : State) (i : Nat) : Nat := (getSensor s i).reading.toNat + (getSensor s i).mark.toNat * 2 ^ 16

def roTherm (s : State) (o : Nat) : Nat :=
  if o = 0x00C then s.pwr.tripInfo.toNat
  else if o = 0x010 then tabGet 4096 s.pwr.rT 4
  else if 0x100 ≤ o then sensWord s (256 + (o - 0x100) / 4)
  else 0

/-- The code of a source in STATUS (R145). -/
def sourceCode : Option RefSource → Nat
  | some .pps => 0 | some .ptp => 1 | some .fabric => 2 | none => 3

def roBelfry (s : State) : Nat → Nat
  | 0x008 => s.time.belfry.ns.toNat
  | 0x010 => s.time.belfry.frac.toNat
  | 0x014 =>
    let b := s.time.belfry
    bCode b.state + sourceCode b.source * 2 ^ 4 + b.refclk.toNat * 2 ^ 6 + b2n b.timeValid * 2 ^ 8 +
      b2n b.holdExpired * 2 ^ 9 + (tabGet 0 s.reg.blockStat (blkBase .belfry)).toNat % 2 * 2 ^ 10 + b2n b.setIgnored * 2 ^ 11 +
      (s.time.launches.filter fun (_, l) => l.st != .free).length * 2 ^ 16
  | 0x038 => s.time.belfry.phaseErr.toNat
  | 0x03C => s.time.belfry.freqAdj.toNat
  | _ => 0

def roCadence (s : State) (i o : Nat) : Nat :=
  let c := getCad s (i * 128 + o / 0x20)
  match o % 0x20 with
  | 0x18 => b2n c.running + 2 * b2n c.cfgErr + c.misses.toNat * 2 ^ 16
  | 0x1C => c.tick.toNat % 2 ^ 32
  | _ => 0

/-- The context word that TI_SEL and TI_OFF name (R460): of a HOT thread, as it was last saved, and of a FREE one, as its
checkpoint slot holds it in the better of its two copies (R332). (DESIGN CHOICE, log entry 26) -/
def tiData (s : State) : Nat :=
  let t := regFld s .sched 0x010 0 22
  let th := getThr s t
  let l := if th.st = .free then (checkpoint s t).getD [] else if th.st = .hot then th.saved else ctxBytes t th
  at_ l (regFld s .sched 0x014 3 7 * 8) 8

def roSched (s : State) : Nat → Nat
  | 0x00C => sumOf ((upFrom 0 4).map (poolFree s))
  | 0x018 => tiData s
  | _ => 0

def roSec (s : State) : Nat → Nat
  | 0x020 => b2n s.img.load.isSome * 2 ^ 8
  | 0x024 => s.img.loadReason.toNat + s.img.loadStage.toNat * 2 ^ 8 + b2n s.img.loadDone * 2 ^ 16
  | 0x030 => s.img.progress % 2 ^ 17
  | _ => 0

/-- CHn_STAT (R433). -/
def roMet (s : State) (x o : Nat) : Nat :=
  if 0x040 ≤ o ∧ o % 0x10 = 0xC then
    let c := getChan s (x * 8 + (o - 0x040) / 0x10)
    b2n c.running + c.err.toNat * 2 ^ 8
  else 0

/-- LINKk_STAT and the counters of FAB (R308, R461). -/
def roFab (s : State) (o : Nat) : Nat :=
  if o = 0x01C then s.fab.sliceDrops.toNat
  else if o = 0x020 then s.fab.discards.toNat
  else if 0x100 ≤ o ∧ o < 0x220 ∧ o % 8 = 4 then
    let k := getLink s ((o - 0x100) / 8)
    linkCode k.st + widthCode k.width * 2 ^ 4 + k.pol.toNat * 2 ^ 6 + k.lmap.toNat * 2 ^ 10 + k.attempts % 16 * 2 ^ 18 +
      b2n k.fecHigh * 2 ^ 22
  else 0

/-- The routing entry that IDX names (R462). -/
def routeIx (s : State) : Nat := regFld s .route 0x008 0 16

def roRoute (s : State) : Nat → Nat
  | 0x018 => (tabGet 0 s.reg.routeAct (routeIx s)).toNat
  | _ => 0

def roMems (s : State) (k : Nat) : Nat → Nat
  | 0x008 => b2n (getStack s k).fenced + 2 * b2n (getStack s k).ppr
  | 0x010 => (getStack s k).corrected.toNat
  | 0x018 => (s.mem.poison.filter fun l => stackOf (l * 64) == k).length
  | 0x01C => (getSensor s (288 + k)).reading.toNat
  | _ => 0

def roXfer (s : State) (o : Nat) : Nat :=
  if 0x100 ≤ o ∧ o % 8 = 0 then
    let x := getXfer s ((o - 0x100) / 8)
    b2n x.op.isSome + 2 * b2n x.fenced + x.gen.toNat * 2 ^ 8 + x.op.getD 0 * 2 ^ 16
  else 0

/-- STATE of an instance (R362). -/
def instCode : IState → Nat
  | .disabled => 0 | .enabled => 1 | .resetting => 2

def roInst (s : State) (n o : Nat) : Nat :=
  let i := getInst s n
  match o with
  | 0x00C => instCode i.st + 4 * b2n i.refused + 8 * b2n (i.scrub || (n == 0 && s.host.scrub)) + 16 * b2n i.conflict +
      i.gen.toNat * 2 ^ 8
  | 0x0D0 => i.accErr.toNat
  | _ => 0

/-- Free spare tiles of a field (R465). -/
def spareCount (s : State) (n f : Nat) : Nat :=
  ((upFrom (n * 264 + 66 * f) 66).filter fun p => (logTile s p).isNone && !(getTile s p).fenced).length

def roSpire (s : State) (n o : Nat) : Nat :=
  if o = 0x008 then b2n (s.flt.spireFenced.getLsbD n)
  else if o = 0x00C then poolFree s n
  else if o = 0x010 then sumOf ((upFrom 0 4).map fun f => min 15 (spareCount s n f) * 2 ^ (4 * f))
  else if 0x400 ≤ o then physTile s (n * 256 + (o - 0x400) / 4) % 264
  else 0

def roSpwr (s : State) (n : Nat) : Nat → Nat
  | 0x008 => sumOf ((upFrom 0 7).map fun d => b2n (domUsable s (7 * n + d)) * 2 ^ d)
  | 0x00C => spireFactor s n
  | _ => 0

def roStherm (s : State) (n o : Nat) : Nat :=
  if o = 0x008 then tabGet 4096 s.pwr.rT n
  else if o = 0x00C then ((groupSensors s n).filter fun x => x.mark == 2).length
  else if 0x100 ≤ o then sensWord s (n * 64 + (o - 0x100) / 4)
  else 0

/-- COREc (R465). (DESIGN CHOICE, log entry 26) -/
def roCores (s : State) (n o : Nat) : Nat :=
  if 0x100 ≤ o then
    let c := n * 64 + (o - 0x100) / 4
    let st := if (getCore s c).fenced || s.flt.spireFenced.getLsbD n then 1 else if domUsable s (7 * n + 5) then 0 else 2
    st + (slotThreads s c).length * 2 ^ 4 + corePinned s c * 2 ^ 9
  else 0

/-- The loop of the program-verify engine (R127): none during the preset and VERIFYING. (DESIGN CHOICE, log entry 26) -/
def pvLoop (now : Nat) (j : Job) : Nat :=
  let n := (now - j.age) / 24000000 + b2n j.touchup
  if j.wrote then 0 else min 12 n

def roTile (s : State) (p o : Nat) : Nat :=
  let t := getTile s p
  if o = 0x014 then ltnFree t + ltnPinned t * 2 ^ 16
  else if o = 0x018 then t.spills
  else if o = 0x01C then t.evicts
  else if 0x020 ≤ o ∧ o < 0x030 then
    sumOf ((upFrom 0 16).map fun i => (varOf t ((o - 0x020) / 4 * 16 + i)).res.toNat * 2 ^ (2 * i))
  else if o = 0x040 then
    match t.pv with
    | some j => j.phys + 2 ^ 7 + pvLoop s.now j * 2 ^ 8
    | none => 0
  else if 0x100 ≤ o ∧ o < 0x210 then
    let a := getArr t ((o - 0x100) / 4)
    arrCode a.st + b2n a.calDone * 2 ^ 3 + satN 8 a.fails * 2 ^ 4 + satN 2 a.touchups * 2 ^ 12
  else if 0x300 ≤ o then physArr t ((o - 0x300) / 4)
  else 0

/-- The RO and W1C fields of a register. -/
def roVal (s : State) (b : Blk) (o : Nat) : Nat :=
  match b with
  | .global => roGlobal s o | .keep => roKeep s o | .pwr => roPwr s o | .therm => roTherm s o
  | .belfry => roBelfry s o | .cadence i => roCadence s i o | .flt => 0 | .sched => roSched s o
  | .sec => roSec s o | .met x => roMet s x o | .fab => roFab s o | .route => roRoute s o
  | .mems k => roMems s k o | .xfer => roXfer s o | .inst n => roInst s n o | .spire n => roSpire s n o
  | .spwr n => roSpwr s n o | .stherm n => roStherm s n o | .cores n => roCores s n o | .tile n t => roTile s (n * 264 + t) o

/-! ## Values by view (R443, R444, R447) -/

/-- Whether some pending value of a block differs from its active value (R444). -/
def blockPending (s : State) (b : Blk) : Bool :=
  ((s.reg.vals.pend ++ s.reg.vals.act).any fun (k, _) =>
    blkBase b ≤ k && k < blkBase b + 0x1000 && regPend s b (k - blkBase b) != regAct s b (k - blkBase b)) ||
    (b == .route && s.reg.routePend.any fun (d, v) => tabGet 0 s.reg.routeAct d != v)

/-- BLOCK_STAT (R444). -/
def blockStat (s : State) (b : Blk) : Nat := (tabGet 0 s.reg.blockStat (blkBase b)).toNat + 2 * b2n (blockPending s b)

/-- The mask of the RW and RWL fields of a register. -/
def rwMask (d : RDesc) : W64 :=
  BitVec.ofNat 64 (clsMask d.flds .imm + clsMask d.flds .pass + clsMask d.flds .step + clsMask d.flds .epoch + clsMask d.flds .disabled)

/-- The entry of the pending bank, or of TILE_OWN, that a register reaches (R462, R464). -/
def windowVal (s : State) (b : Blk) (o : Nat) : Option W64 :=
  match b with
  | .route => if o = 0x010 then some (tabGet 0 s.reg.routePend (routeIx s)) else none
  | .inst n => if o = 0x0B4 then some (BitVec.ofNat 64 (townOf s (regFld s (.inst n) 0x0B0 0 10))) else none
  | _ => none

/-- The values of the RW and RWL fields that a view shows (R447). -/
def rwView (s : State) (b : Blk) (o : Nat) (view : View) : W64 :=
  let act := (windowVal s b o).getD (regAct s b o)
  let pend := (windowVal s b o).getD (regPend s b o)
  match view with
  | .base => act
  | .clr => act
  | .set => pend
  | .tgl => pend ^^^ act

/-- The view of an offset (R439). -/
def viewOf (off : Nat) : View :=
  match off / 0x1000 % 4 with
  | 0 => .base
  | 1 => .set
  | 2 => .clr
  | _ => .tgl

/-- Whether a block has BLOCK_ID and BLOCK_STAT (R445). -/
def hasHeader (b : Blk) : Bool :=
  match b with
  | .cadence _ => false
  | _ => true

/-- What a register shows in a view; a reserved register shows 0 (R11, R442). -/
def regView (s : State) (b : Blk) (o : Nat) (view : View) : W64 :=
  if hasHeader b ∧ o = 0x000 then (if view = .tgl then 0 else BitVec.ofNat 64 (blkId b))
  else if hasHeader b ∧ o = 0x004 then (if view = .tgl then 0 else BitVec.ofNat 64 (blockStat s b))
  else match regDesc b o with
    | none => 0
    | some d => (rwView s b o view &&& rwMask d) ||| (if view = .tgl then 0 else BitVec.ofNat 64 (roVal s b o))

/-! ## Latches (R146, R452, R453) -/

/-- A latch is set: it replaces the requester's own in the block, or the oldest of eight. -/
def putLatch (s : State) (l : Latch) : State :=
  let others := s.reg.latches.filter fun x => !(x.req == l.req && x.block == l.block)
  let mine := others.filter fun x => x.block == l.block
  let others := if mine.length < 8 then others
    else match mine with
      | x :: _ => others.filter (· != x)
      | [] => others
  { s with reg.latches := others ++ [l] }

/-- The latch of a requester in a block that is at most 1 µs old. -/
def latchOf (s : State) (by_ : Requester) (b : Blk) (write : Bool) : Option Latch :=
  firstOf (fun l => l.req == by_ && l.block == blkBase b && l.write == write && decide (s.now ≤ l.at_ + 40000)) s.reg.latches

/-- TORN is set; a cadence block reports it in BELFRY (R445). -/
def setTorn (s : State) (b : Blk) : State := if hasHeader b then setBlockStat s b 0 else setBlockStat s .belfry 0

/-- Whether the register at an offset is 64 bits wide. -/
def isWide (b : Blk) (o : Nat) : Bool := (regDesc b o).any fun d => d.wide

/-- A read of a low half latches the high half (R452); that of NOW latches FRAC too (R146). -/
def readLow (s : State) (by_ : Requester) (b : Blk) (o : Nat) (view : View) : State × W32 :=
  let v := regView s b o view
  (putLatch s ⟨by_, blkBase b, o, view, (v >>> 32).setWidth 32, s.time.belfry.frac, false, s.now⟩, v.setWidth 32)

/-- A read of a high half returns the latched one, or the live one with TORN. -/
def readHigh (s : State) (by_ : Requester) (b : Blk) (o : Nat) (view : View) : State × W32 :=
  match latchOf s by_ b false with
  | some l => if l.reg = o ∧ l.view = view then (s, l.value) else (setTorn s b, (regView s b o view >>> 32).setWidth 32)
  | none => (setTorn s b, (regView s b o view >>> 32).setWidth 32)

/-- A read of NOW_FRAC returns the FRAC latched with NOW, or the live one with TORN (R146). -/
def readFrac (s : State) (by_ : Requester) (view : View) : State × W32 :=
  match latchOf s by_ .belfry false with
  | some l => if l.reg = 0x008 ∧ view ≠ .tgl then (s, l.frac.setWidth 32) else (setTorn s .belfry, (regView s .belfry 0x010 view).setWidth 32)
  | none => (setTorn s .belfry, (regView s .belfry 0x010 view).setWidth 32)

/-- A read of 4 bytes of BAR0 by a requester (R439, R442, R446, R452); blocks it may not read show 0 (R351). -/
def read32 (s : State) (by_ : Requester) (off : Nat) : State × W32 :=
  match blkOf off with
  | none => (s, 0)
  | some b =>
    if !mayRead s by_ b then (s, 0)
    else
      let o := blkReg b off
      let lo := o / 8 * 8
      if isWide b lo then (if o = lo then readLow s by_ b lo (viewOf off) else readHigh s by_ b lo (viewOf off))
      else if b = .belfry ∧ o = 0x010 then readFrac s by_ (viewOf off)
      else (s, (regView s b o (viewOf off)).setWidth 32)

end Sys2Proof.Machine
end

