-- ==== Sys2Proof/Machine/RegOps.lean ====
section
/-! DEFINITION. Writes of registers through BAR0 and BAR2 (R176, R446 to R454, R456 to R467), and the register
instructions of threads (R218). -/

namespace Sys2Proof.Machine

open Sys2Proof

/-! ## One register (R447 to R451) -/

/-- Whether a fenced unit's block ignores a write (R375); during zeroise every tile is fenced (R77). (DESIGN CHOICE, log
entry 27) -/
def blkFenced (s : State) (b : Blk) (o : Nat) : Bool :=
  match b with
  | .tile n t => (getTile s (n * 264 + t)).fenced || s.flt.spireFenced.getLsbD n || s.img.zeroise
  | .mems k => (getStack s k).fenced
  | .xfer => decide (0x100 ≤ o) && (getXfer s ((o - 0x100) / 8)).fenced
  | _ => false

/-- A write to the RW and RWL fields of a register (R447, R448, R451). -/
def plainWrite (s : State) (b : Blk) (o : Nat) (d : RDesc) (view : View) (v : Nat) : State :=
  if locked s b o then setBlockStat s b 3
  else storeReg s b o d (BitVec.ofNat 64 (mergeFlds view (regPend s b o).toNat v d.flds fun _ _ => true))

/-- BLOCK_STAT: TORN, SIZE_ERR and DENIED are cleared by ones in the base view (R444). (DESIGN CHOICE, log entry 27) -/
def clearBlockStat (s : State) (b : Blk) (v : Nat) : State :=
  let old := tabGet 0 s.reg.blockStat (blkBase b)
  { s with reg.blockStat := tabPut s.reg.blockStat (blkBase b) (old &&& ~~~(BitVec.ofNat 4 v)) }

/-- GLOBAL (R455). -/
def writeGlobal (s : State) (o : Nat) (d : RDesc) (view : View) (v : Nat) : State :=
  if o = 0x01C then
    (if view = .base then { s with reg.resetCause := s.reg.resetCause &&& ~~~(BitVec.ofNat 5 v) } else s)
  else plainWrite s .global o d view v

/-- KEEP (R456): OWNER only from the management network, and no command while BUSY is 1. -/
def writeKeep (s : State) (by_ : Requester) (o : Nat) (d : RDesc) (view : View) (v : Nat) : State :=
  if o = 0x008 then
    (if view = .base then keepCmd s by_ (keepDo by_ (v % 256) (regAct s .keep 0x010)) else s)
  else if o = 0x018 ∧ by_ ≠ .keep then setBlockStat s .keep 3
  else plainWrite s .keep o d view v

/-- PWR (R409, R458): OP with DOMAIN as the write leaves it. -/
def writePwr (s : State) (by_ : Requester) (o : Nat) (d : RDesc) (view : View) (v : Nat) : State :=
  let s := plainWrite s .pwr o d view v
  if o = 0x008 ∧ view = .base ∧ bits v 6 2 = 1 then domainCtl s by_ (bits v 0 6) true
  else if o = 0x008 ∧ view = .base ∧ bits v 6 2 = 2 then domainCtl s by_ (bits v 0 6) false
  else s

/-- BELFRY (R145, R152). -/
def writeBelfry (s : State) (o : Nat) (d : RDesc) (view : View) (v : Nat) : State :=
  if o = 0x014 then
    if view = .base then
      let s := if bit v 10 then clearBlockStat s .belfry 1 else s
      if bit v 11 then setBelfry s { s.time.belfry with setIgnored := false } else s
    else s
  else if o = 0x020 then
    let t := plainWrite s .belfry o d view v
    let set := regAct t .belfry 0x020
    if setTimeIgnored s set then setBelfry s { s.time.belfry with setIgnored := true } else setTimeWrite t set
  else if o = 0x01C then trySelect (plainWrite s .belfry o d view v)
  else plainWrite s .belfry o d view v

/-- A cadence (R158): CLR_MISS. -/
def writeCadence (s : State) (i o : Nat) (d : RDesc) (view : View) (v : Nat) : State :=
  if o % 0x20 = 0x18 then
    let c := i * 128 + o / 0x20
    if view = .base ∧ bit v 2 = true then setCad s c { getCad s c with misses := 0 } else s
  else plainWrite s (.cadence i) o d view v

/-- SEC (R124, R460): GO. (DEDUCED, log entry 34) -/
def writeSec (s : State) (by_ : Requester) (o : Nat) (d : RDesc) (view : View) (v : Nat) : State :=
  let s := plainWrite s .sec o d view v
  if o = 0x020 ∧ view = .base ∧ bit v 4 = true then
    match regFld s .sec 0x020 0 2 with
    | 0 => startLoad s by_ .full
    | 1 => startLoad s by_ .rolling
    | _ => startLoad s by_ .unlock
  else s

/-- METx (R433, R466): START, then STOP. -/
def writeMet (s : State) (x o : Nat) (d : RDesc) (view : View) (v : Nat) : State :=
  if 0x040 ≤ o ∧ o % 0x10 = 0x8 then
    let ch := (o - 0x040) / 0x10
    let s := if view = .base ∧ bit v 0 = true then startChan s x ch else s
    if view = .base ∧ bit v 1 = true then stopChan s x ch else s
  else plainWrite s (.met x) o d view v

/-- FAB (R308, R461). -/
def writeFab (s : State) (o : Nat) (d : RDesc) (view : View) (v : Nat) : State :=
  if 0x100 ≤ o ∧ o < 0x220 ∧ o % 8 = 4 then
    let l := (o - 0x100) / 8
    if view = .base ∧ bit v 22 = true then setLink s l { getLink s l with fecHigh := false } else s
  else
    let s := plainWrite s .fab o d view v
    if 0x100 ≤ o ∧ o < 0x220 then linkCfgWritten s ((o - 0x100) / 8) (view == .base && bit v 3) else s

/-- ROUTE (R319, R462): PEND names the entry at IDX, which INC then advances; bit 15 of an entry is reserved (R11, R316). -/
def writeRoute (s : State) (o : Nat) (d : RDesc) (view : View) (v : Nat) : State :=
  if o = 0x010 then
    let i := routeIx s
    let old := tabGet 0 s.reg.routePend i
    let new := BitVec.ofNat 64 (viewBits view old.toNat v) &&& ~~~0x8000#64
    let s := { s with
      reg.routePend := tabPut s.reg.routePend i new
      reg.routeAt := if new = old then s.reg.routeAt else tabPut s.reg.routeAt i s.now }
    if regFld s .route 0x008 16 1 = 1 then setFld s .route 0x008 0 16 ((i + 1) % 2 ^ 16) else s
  else plainWrite s .route o d view v

/-- INSTn (R357 to R362, R464). -/
def writeInst (s : State) (n o : Nat) (view : View) (v : Nat) : State :=
  let n' : Inst := Fin.ofNat 32 n
  if o = 0x008 then
    let old := (regAct s (.inst n) 0x008).toNat % 2
    let new := viewBits view old v % 2
    let zero := match view with
      | .base => !bit v 0
      | .set => false
      | .clr => bit v 0
      | .tgl => bit v 0 && old == 1
    let s := if view = .base ∧ bit v 1 = true then askReset s n' 1 else s
    if zero then disableInst s n' else if new = 1 then enableInst s n' else s
  else if o = 0x00C then
    if view = .base then
      let i := getInst s n
      setInst s n { i with refused := i.refused && !bit v 2, conflict := i.conflict && !bit v 4 }
    else s
  else if o = 0x0B4 then townWrite s n view v
  else instWrite s n o view v

/-- The effect of a write to a register in a view: the block's own registers. -/
def takeWrite (s : State) (by_ : Requester) (b : Blk) (o : Nat) (view : View) (v : Nat) : State :=
  if hasHeader b ∧ o = 0x004 then (if view = .base then clearBlockStat s b v else s)
  else match regDesc b o with
    | none => s
    | some d =>
      if blkFenced s b o then s
      else match b with
        | .global => writeGlobal s o d view v
        | .keep => writeKeep s by_ o d view v
        | .pwr => writePwr s by_ o d view v
        | .belfry => writeBelfry s o d view v
        | .cadence i => writeCadence s i o d view v
        | .sec => writeSec s by_ o d view v
        | .met x => writeMet s x o d view v
        | .fab => writeFab s o d view v
        | .route => writeRoute s o d view v
        | .inst n => writeInst s n o view v
        | _ => plainWrite s b o d view v

/-- The pending value of a register, that of the entry it reaches included. -/
def pendVal (s : State) (b : Blk) (o : Nat) : W64 := (windowVal s b o).getD (regPend s b o)

/-- Whether a write is one of the containing orders (R372): ENABLE = 0 or RESET of an instance. -/
def containing (b : Blk) (o : Nat) (view : View) (old v : Nat) : Bool :=
  match b with
  | .inst _ => o == 0x008 && ((view == .base && bit v 1) || (viewBits view old v % 2 == 0 && old % 2 == 1))
  | _ => false

/-- A write to a register in a view, by a master that may make it: it meets the other orders of its cycle (R372), and the
bits left to it take effect. -/
def writeReg (s : State) (by_ : Requester) (b : Blk) (o : Nat) (view : View) (v : Nat) : State :=
  viewTo s by_ b o (((regDesc b o).map writable).getD 0) view (pendVal s b o).toNat v
    (containing b o view (pendVal s b o).toNat v) fun s v => takeWrite s by_ b o view v

/-! ## Halves and sizes (R446, R453) -/

/-- The value whose write in a view acts on the high half alone: the low half's pending value stays (R453). -/
def highOnly (s : State) (b : Blk) (o : Nat) (view : View) (v : W32) : Nat :=
  match view with
  | .base => (v ++ (pendVal s b o).setWidth 32 : W64).toNat
  | _ => (v ++ (0 : W32) : W64).toNat

/-- A write of a low half is held for its requester. -/
def holdLow (s : State) (by_ : Requester) (b : Blk) (o : Nat) (view : View) (v : W32) : State :=
  putLatch s ⟨by_, blkBase b, o, view, v, 0, true, s.now⟩

/-- The latch of a requester in a block is used up. -/
def dropLatch (s : State) (by_ : Requester) (b : Blk) : State :=
  { s with reg.latches := s.reg.latches.filter fun x => !(x.req == by_ && x.block == blkBase b && x.write) }

/-- A write of a high half completes the register: with the held low half, or with the pending one and TORN. -/
def writeHigh (s : State) (by_ : Requester) (b : Blk) (o : Nat) (view : View) (v : W32) : State :=
  match latchOf s by_ b true with
  | some l =>
    if l.reg = o ∧ l.view = view then writeReg (dropLatch s by_ b) by_ b o view (v ++ l.value : W64).toNat
    else writeReg (setTorn s b) by_ b o view (highOnly s b o view v)
  | none => writeReg (setTorn s b) by_ b o view (highOnly s b o view v)

/-- A write of 4 bytes at an aligned offset of a block. -/
def write4 (s : State) (by_ : Requester) (b : Blk) (off : Nat) (v : W32) : State :=
  let o := blkReg b off
  let lo := o / 8 * 8
  if isWide b lo then (if o = lo then holdLow s by_ b lo (viewOf off) v else writeHigh s by_ b lo (viewOf off) v)
  else writeReg s by_ b o (viewOf off) v.toNat

/-- A write of a number of bytes to BAR0 (R446): narrower and misaligned writes are discarded with SIZE_ERR; an 8-byte
write is one write of a 64-bit register, or of two registers, the low one first. -/
def writeBar0 (s : State) (by_ : Requester) (off size : Nat) (v : W64) : State :=
  match blkOf off with
  | none => s
  | some b => orderTo s by_ b fun s =>
    if size = 4 ∧ off % 4 = 0 then write4 s by_ b off (v.setWidth 32)
    else if size = 8 ∧ off % 8 = 0 then
      (if isWide b (blkReg b off) then writeReg s by_ b (blkReg b off) (viewOf off) v.toNat
       else write4 (write4 s by_ b off (v.setWidth 32)) by_ b (off + 4) ((v >>> 32).setWidth 32))
    else setBlockStat s b 2

/-! ## Instance pages (R176) -/

/-- A 64-bit value of which one half is written, or all of it. -/
def partOf (old v : W64) (high whole : Bool) : W64 :=
  if whole then v
  else if high then v.setWidth 32 ++ old.setWidth 32
  else (old >>> 32).setWidth 32 ++ v.setWidth 32

/-- A write of a half, or of the whole, of a 64-bit register of a page. -/
def pageWrite64 (s : State) (by_ inst : Inst) (off : Nat) (old v : W64) (high whole : Bool) (f : State → W64 → State) : State :=
  let half := 2 ^ 32 - 1
  pageTo s by_ inst off (if whole then 2 ^ 64 - 1 else if high then half * 2 ^ 32 else half) old.toNat (partOf old v high whole).toNat
    fun s v => f s (BitVec.ofNat 64 v)

/-- A write to a page of BAR2, of 4 or 8 bytes. (DESIGN CHOICE, log entry 27) -/
def writePage (s : State) (by_ inst : Inst) (off size : Nat) (v : W64) : State :=
  let whole := decide (size = 8)
  if off < 0x100 then
    let j := off / 0x40
    let r := getRing s inst j
    match off % 0x40 with
    | 0x00 => pageWrite64 s by_ inst off r.base v false whole fun s v => setRing s inst j { getRing s inst j with base := v }
    | 0x04 => if whole then s else pageWrite64 s by_ inst (off - 4) r.base v true false fun s v => setRing s inst j { getRing s inst j with base := v }
    | 0x08 =>
      let s := ctlWrite s by_ inst j (v.toNat % 2 ^ 32)
      if whole ∧ bit v.toNat 34 = true then setRing s inst j (clearStop (getRing s inst j)) else s
    | 0x0C => if !whole && bit v.toNat 2 then setRing s inst j (clearStop r) else s
    | 0x10 => tailWrite s by_ inst j (v.setWidth 32)
    | _ => s
  else match off with
    | 0x100 => pageWrite64 s by_ inst 0x100 (getInst s inst).cntAddr v false whole
        fun s v => setInst s inst { getInst s inst with cntAddr := v }
    | 0x104 => if whole then s else pageWrite64 s by_ inst 0x100 (getInst s inst).cntAddr v true false
        fun s v => setInst s inst { getInst s inst with cntAddr := v }
    | 0x108 =>
      if instEnabled s inst then cntAddWrite s inst (if whole then .full v else .low (v.setWidth 32)) else s
    | 0x10C => if instEnabled s inst && !whole then cntAddWrite s inst (.high (v.setWidth 32)) else s
    | 0x110 => abortTidWrite s by_ inst (v.setWidth 32)
    | _ => s

/-- Whether a write to a page has a size that it takes. -/
def pageSize (off size : Nat) : Bool := (size == 4 && off % 4 == 0) || (size == 8 && off % 8 == 0)

/-! ## The rows (R218, R447, R452, R453, R462) -/

/-- REG_WRITE (R446, R447). The Keep reaches a page of BAR2 for an abort alone (R192). (DESIGN CHOICE, log entry 33) -/
def execRegWrite (by_ : Requester) (w : RegTarget) (size : Nat) (v : W64) (s : State) : Out :=
  match w with
  | .bar0 off => .next (writeBar0 s by_ off.toNat size v)
  | .bar2 inst off =>
    match by_ with
    | .fn n => if reachesPage s n inst && pageSize off.toNat size then .next (writePage s n inst off.toNat size v) else .next s
    | .keep => if s.keep.running && off == 0x110 && size == 4 then .next (abortTidWrite s none inst (v.setWidth 32)) else .next s
    | .thread _ => .next s

/-- A word of a page of BAR2 as it reads (R176). (DESIGN CHOICE, log entry 27) -/
def pageWord (s : State) (inst : Inst) (off : Nat) : W32 :=
  if off < 0x100 then
    let r := getRing s inst (off / 0x40)
    match off % 0x40 with
    | 0x00 => r.base.setWidth 32
    | 0x04 => (r.base >>> 32).setWidth 32
    | 0x08 => BitVec.ofNat 32 (ctlBits r)
    | 0x0C => BitVec.ofNat 32 (b2n (r.enable && !r.stopped) + 2 * b2n r.stopped + r.err.toNat * 2 ^ 8)
    | 0x10 => r.tail
    | 0x14 => r.head
    | _ => 0
  else match off with
    | 0x100 => (getInst s inst).cntAddr.setWidth 32
    | 0x104 => ((getInst s inst).cntAddr >>> 32).setWidth 32
    | _ => 0

/-- A read of a number of bytes at an offset, made of 4-byte reads by `word`, and of atomic 8-byte reads by `pair` where it
answers; `fuel` bounds the parts (R446). -/
def readSpan (word : State → Nat → State × W32) (pair : State → Nat → Option W64) : Nat → State → Nat → Nat → State × List Byte
  | 0, s, _, _ => (s, [])
  | fuel + 1, s, off, n =>
    if n = 0 then (s, [])
    else
      match if off % 8 = 0 ∧ 8 ≤ n then pair s off else none with
      | some v =>
        let (s, l) := readSpan word pair fuel s (off + 8) (n - 8)
        (s, toBytes v.toNat 8 ++ l)
      | none =>
        let m := min n (4 - off % 4)
        let (s, x) := word s (off / 4 * 4)
        let (s, l) := readSpan word pair fuel s (off + m) (n - m)
        (s, ((toBytes x.toNat 4).drop (off % 4)).take m ++ l)

/-- An 8-byte read of a 64-bit register returns both halves of one instant (R146, R446). -/
def read64 (s : State) (by_ : Requester) (off : Nat) : Option W64 :=
  match blkOf off with
  | none => none
  | some b => if isWide b (blkReg b off) then some (if mayRead s by_ b then regView s b (blkReg b off) (viewOf off) else 0) else none

/-- REG64_LOW_READ (R146, R176, R446, R452): a read of a register, or of a page of BAR2, of any size; 4 bytes at the low half of a
64-bit register latch its high half. -/
def execReg64LowRead (by_ : Requester) (off : ReadSpan) (s : State) : Out :=
  let size := off.size
  match off.place with
  | .bar0 off =>
    if reqUp s by_ then
      let r := readSpan (fun s o => read32 s by_ o) (fun s o => read64 s by_ o) size s off.toNat size
      .next { r.1 with host.readOut := r.2 }
    else .next s
  | .bar2 inst off =>
    match by_ with
    | .fn n =>
      if reachesPage s n inst then
        .next { s with host.readOut := (readSpan (fun s o => (s, pageWord s inst o)) (fun _ _ => none) size s off.toNat size).2 }
      else .next s
    | _ => .next s

/-- REG64_HIGH_READ (R146, R452): the half at the offset, or NOW_FRAC. -/
def execReg64HighRead (by_ : Requester) (off : BitVec 26) (s : State) : Out :=
  if reqUp s by_ then
    let frac := blkOf off.toNat == some .belfry && blkReg .belfry off.toNat == 0x010
    let r := read32 s by_ (if frac then off.toNat / 4 * 4 else off.toNat / 8 * 8 + 4)
    .next { r.1 with host.readOut := toBytes r.2.toNat 4 }
  else .next s

/-- REG64_LOW_WRITE (R453). -/
def execReg64LowWrite (by_ : Requester) (off : BitVec 26) (v : W32) (s : State) : Out :=
  .next (writeBar0 s by_ (off.toNat / 8 * 8) 4 (v.setWidth 64))

/-- REG64_HIGH_WRITE (R453). -/
def execReg64HighWrite (by_ : Requester) (off : BitVec 26) (v : W32) (s : State) : Out :=
  .next (writeBar0 s by_ (off.toNat / 8 * 8 + 4) 4 (v.setWidth 64))

/-- REG64_LATCH_EXPIRY (R453). -/
def execReg64LatchExpiry (by_ : Requester) (off : BitVec 26) (s : State) : Out :=
  match blkOf off.toNat with
  | none => .next s
  | some b =>
    let old (l : Latch) : Bool := l.req == by_ && l.block == blkBase b && l.write && decide (l.at_ + 40000 < s.now)
    .next { s with reg.latches := s.reg.latches.filter fun l => !old l }

/-- ROUTE_PEND_WRITE (R462). -/
def execRoutePendWrite (by_ : Requester) (view : View) (v : W64) (s : State) : Out :=
  .next (orderTo s by_ .route fun s => writeReg s by_ .route 0x010 view v.toNat)

/-- SET_TIME (R152, R453): a high half completes a held low half, or the pending one. -/
def execSetTime (by_ : Requester) (v : RegHigh) (s : State) : Out :=
  .next (orderTo s by_ .belfry fun s =>
    match v with
    | .high x => writeHigh s by_ .belfry 0x020 .base x
    | .full x => writeReg s by_ .belfry 0x020 .base x.toNat)

/-- The offset of REG is multiple of 4, inside BAR0, and in a block that the thread may name (R216, R218). (DESIGN CHOICE, log entry 27) -/
def regFault (s : State) (t : Nat) (a : W64) : Option (Nat × W64 × W32) :=
  if a.toNat % 4 ≠ 0 then some (0x03, a, 4)
  else if 0x4000000 ≤ a.toNat then some (0x04, a, 4)
  else
    let n := (getThr s t).inst
    if n = 0 ∨ (blkOf a.toNat).any (assigned s n) = true then none else some (0x04, a, 4)

/-- RDREG (R218). -/
def execRdreg (t : Tid) (g : Guard) (d a : GReg) (s : State) : Out :=
  .next (issueWord s t g 0x3C (upperWord 0x3C g d.toNat a.toNat 0 0) false .instance_ fun s =>
    let x := gRd (getThr s t.toNat) a
    orExcept s t.toNat (regFault s t.toNat x)
      (let r := read32 s (.thread t) x.toNat
       retireG r.1 t d (r.2.setWidth 64)))

/-- WRREG (R218). -/
def execWrreg (t : Tid) (g : Guard) (a b : GReg) (s : State) : Out :=
  .next (issueWord s t g 0x3C (upperWord 0x3C g 0 a.toNat b.toNat 0) false .instance_ fun s =>
    let th := getThr s t.toNat
    let x := gRd th a
    orExcept s t.toNat (regFault s t.toNat x)
      (writeBar0 (retire s t) (.thread t) x.toNat 4 (gRd th b)))

end Sys2Proof.Machine
end

