-- ==== Sys2Proof/Machine/ScalarFloat.lean ====
section
/-! DEFINITION. The scalar float instructions (R204, R205). -/

namespace Sys2Proof.Machine

open Sys2Proof

def execFadd (t : Tid) (g : Guard) (d a b : GReg) (s : State) : Out := .next (issueF s t g 0x10 d a b f32add)

def execFsub (t : Tid) (g : Guard) (d a b : GReg) (s : State) : Out := .next (issueF s t g 0x11 d a b f32sub)

def execFmul (t : Tid) (g : Guard) (d a b : GReg) (s : State) : Out := .next (issueF s t g 0x12 d a b f32mul)

def execFdiv (t : Tid) (g : Guard) (d a b : GReg) (s : State) : Out := .next (issueF s t g 0x13 d a b f32div)

def execFsqrt (t : Tid) (g : Guard) (d a : GReg) (s : State) : Out :=
  .next (issueF s t g 0x14 d a 0 fun x _ => f32sqrt x)

def execFmin (t : Tid) (g : Guard) (d a b : GReg) (s : State) : Out :=
  .next (issueF s t g 0x14 d a b fun x y => ⟨f32min x y, 0⟩)

def execFmax (t : Tid) (g : Guard) (d a b : GReg) (s : State) : Out :=
  .next (issueF s t g 0x14 d a b fun x y => ⟨f32max x y, 0⟩)

def execFabs (t : Tid) (g : Guard) (d a : GReg) (s : State) : Out :=
  .next (issueF s t g 0x14 d a 0 fun x _ => ⟨f32abs x, 0⟩)

def execFneg (t : Tid) (g : Guard) (d a : GReg) (s : State) : Out :=
  .next (issueF s t g 0x14 d a 0 fun x _ => ⟨f32neg x, 0⟩)

/-- The upper word of an FCMP. -/
def fcmpWord (g : Guard) (p : PReg) (a b : GReg) : W32 := upperWord 0x15 g p.toNat a.toNat b.toNat 0xF

/-- Bits 31:0 of a g register, as an FP32 value (R204). -/
def fRd (t : Thread) (r : GReg) : W32 := (gRd t r).setWidth 32

def execFcmpEq (t : Tid) (g : Guard) (p : PReg) (a b : GReg) (s : State) : Out :=
  .next (issueP s t g 0x15 p (fcmpWord g p a b) fun th => f32eq (fRd th a) (fRd th b))

def execFcmpLt (t : Tid) (g : Guard) (p : PReg) (a b : GReg) (s : State) : Out :=
  .next (issueP s t g 0x15 p (fcmpWord g p a b) fun th => f32lt (fRd th a) (fRd th b))

def execFcmpLe (t : Tid) (g : Guard) (p : PReg) (a b : GReg) (s : State) : Out :=
  .next (issueP s t g 0x15 p (fcmpWord g p a b) fun th => f32le (fRd th a) (fRd th b))

def execFcmpUn (t : Tid) (g : Guard) (p : PReg) (a b : GReg) (s : State) : Out :=
  .next (issueP s t g 0x15 p (fcmpWord g p a b) fun th => isNan32 (fRd th a) || isNan32 (fRd th b))

/-- Whether CVT accepts its two codes (R205). -/
def cvtLegal (src dst : BitVec 4) : Bool := 3 ≤ src.toNat && 3 ≤ dst.toNat && dst != 0xC#4

/-- CVT (R205): codes 0x0 to 0x2 in either field, and 0xC in FMT, are undefined words. -/
def execCvt (t : Tid) (g : Guard) (d a : GReg) (src dst : BitVec 4) (s : State) : Out :=
  .next (issueWord s t g 0x16 (upperWord 0x16 g d.toNat a.toNat 0 dst.toNat) (!cvtLegal src dst) .none fun s =>
    let th := getThr s t.toNat
    let (v, f) := cvtWord src.toNat dst.toNat (gRd th a)
    setThr s t.toNat (retired (orFlags (gWr th d v) f)))

end Sys2Proof.Machine
end

