-- ==== Sys2Proof/WellFormed.lean ====
section
/-! DEFINITION. Which commands a sender can present at all. -/

namespace Sys2Proof

/-- A register access of BAR0 or BAR2 has 1 to 8 bytes; wider ones are split (R446). -/
def sizeOk (n : Nat) : Bool := decide (1 ≤ n ∧ n ≤ 8)

/-- A frame's payload has LEN bytes, at most 1,024 (R309). -/
def frameOk (f : Frame) : Bool := f.payload.length == f.len.toNat && decide (f.payload.length ≤ 1024)

/-- The bytes that are not 0 are listed in rising order (R118). -/
def sparseOk : List (Nat × Byte) → Bool
  | [] => true
  | [(_, b)] => b != 0
  | (i, b) :: (j, c) :: r => b != 0 && decide (i < j) && sparseOk ((j, c) :: r)

/-- The Keep commands that R457 lists. -/
def keepCodes : List Byte := [0x01, 0x02, 0x03, 0x04, 0x10, 0x11, 0x12, 0x13]

/-- A conversion is named by its phase, segment and column (R60): 8 × 528 of them, each with one code. -/
def codesOk (l : List (Nat × BitVec 12)) : Bool := l.all fun (i, _) => decide (i < 8 * 528)

/-- A command is well formed when its operands have the shape the specification gives them. -/
def WellFormed : Instr → Bool
  | .regWrite _ _ size _ => sizeOk size
  | .reg64LowRead _ off => sizeOk off.size
  | .undefinedInstruction _ w => !definedWord w
  | .bar4Read _ _ len => decide (1 ≤ len ∧ len ≤ 4096)
  | .bar4Write _ _ data => decide (1 ≤ data.length ∧ data.length ≤ 512)
  | .cxlMemWrite _ data => data.length == 64
  | .hostCompletion _ _ data => decide (data.length ≤ 8)
  | .badCode _ code => !keepCodes.contains code
  | .passResult _ _ codes => codesOk codes
  | .imageCommit f => sparseOk f.weights && sparseOk f.scales
  | .write _ f | .read _ f | .atomic _ f _ | .ack _ f _ | .nak _ f _ | .readData _ f | .atomicData _ f
  | .collPull _ f _ | .collData _ f | .arrive _ f _ | .release _ f _ | .abort _ f _ | .time _ f _
  | .delayReq _ f _ | .delayResp _ f _ | .armed _ f _ | .notArmed _ f _ | .go _ f _ | .nogo _ f _
  | .noVerdict _ f _ | .outcome _ f _ | .ident _ f _ => frameOk f
  | _ => true

end Sys2Proof
end

