-- ==== Sys2Proof/Machine/Dispatch.lean ====
section
/-! DEFINITION. One arm per command: the direct call of its meaning. -/

namespace Sys2Proof.Machine

open Sys2Proof

def exec (i : Instr) (s : State) : Host.Outcome State Fault Refusal :=
  match i with
  | .add t g d a b => Sys2Proof.Machine.execAdd t g d a b s
  | .sub t g d a b => Sys2Proof.Machine.execSub t g d a b s
  | .mul t g d a b => Sys2Proof.Machine.execMul t g d a b s
  | .mulh t g uns d a b => Sys2Proof.Machine.execMulh t g uns d a b s
  | .div t g uns d a b => Sys2Proof.Machine.execDiv t g uns d a b s
  | .rem t g uns d a b => Sys2Proof.Machine.execRem t g uns d a b s
  | .and t g d a b => Sys2Proof.Machine.execAnd t g d a b s
  | .or t g d a b => Sys2Proof.Machine.execOr t g d a b s
  | .xor t g d a b => Sys2Proof.Machine.execXor t g d a b s
  | .shl t g d a b => Sys2Proof.Machine.execShl t g d a b s
  | .shr t g d a b => Sys2Proof.Machine.execShr t g d a b s
  | .sha t g d a b => Sys2Proof.Machine.execSha t g d a b s
  | .min t g d a b => Sys2Proof.Machine.execMin t g d a b s
  | .max t g d a b => Sys2Proof.Machine.execMax t g d a b s
  | .minu t g d a b => Sys2Proof.Machine.execMinu t g d a b s
  | .maxu t g d a b => Sys2Proof.Machine.execMaxu t g d a b s
  | .sel t g d a b p => Sys2Proof.Machine.execSel t g d a b p s
  | .clz t g d a => Sys2Proof.Machine.execClz t g d a s
  | .ctz t g d a => Sys2Proof.Machine.execCtz t g d a s
  | .popc t g d a => Sys2Proof.Machine.execPopc t g d a s
  | .addpc t g d imm => Sys2Proof.Machine.execAddpc t g d imm s
  | .cmpEq t g p a b => Sys2Proof.Machine.execCmpEq t g p a b s
  | .cmpNe t g p a b => Sys2Proof.Machine.execCmpNe t g p a b s
  | .cmpLt t g p a b => Sys2Proof.Machine.execCmpLt t g p a b s
  | .cmpLe t g p a b => Sys2Proof.Machine.execCmpLe t g p a b s
  | .cmpLtu t g p a b => Sys2Proof.Machine.execCmpLtu t g p a b s
  | .cmpLeu t g p a b => Sys2Proof.Machine.execCmpLeu t g p a b s
  | .pand t g p a b => Sys2Proof.Machine.execPand t g p a b s
  | .por t g p a b => Sys2Proof.Machine.execPor t g p a b s
  | .pxor t g p a b => Sys2Proof.Machine.execPxor t g p a b s
  | .pandn t g p a b => Sys2Proof.Machine.execPandn t g p a b s
  | .moviL t g d imm => Sys2Proof.Machine.execMoviL t g d imm s
  | .moviH t g d imm => Sys2Proof.Machine.execMoviH t g d imm s
  | .fadd t g d a b => Sys2Proof.Machine.execFadd t g d a b s
  | .fsub t g d a b => Sys2Proof.Machine.execFsub t g d a b s
  | .fmul t g d a b => Sys2Proof.Machine.execFmul t g d a b s
  | .fdiv t g d a b => Sys2Proof.Machine.execFdiv t g d a b s
  | .fsqrt t g d a => Sys2Proof.Machine.execFsqrt t g d a s
  | .fmin t g d a b => Sys2Proof.Machine.execFmin t g d a b s
  | .fmax t g d a b => Sys2Proof.Machine.execFmax t g d a b s
  | .fabs t g d a => Sys2Proof.Machine.execFabs t g d a s
  | .fneg t g d a => Sys2Proof.Machine.execFneg t g d a s
  | .fcmpEq t g p a b => Sys2Proof.Machine.execFcmpEq t g p a b s
  | .fcmpLt t g p a b => Sys2Proof.Machine.execFcmpLt t g p a b s
  | .fcmpLe t g p a b => Sys2Proof.Machine.execFcmpLe t g p a b s
  | .fcmpUn t g p a b => Sys2Proof.Machine.execFcmpUn t g p a b s
  | .cvt t g d a src dst => Sys2Proof.Machine.execCvt t g d a src dst s
  | .undefinedInstruction t w => Sys2Proof.Machine.execUndefinedInstruction t w s
  | .ld t g d a size sx off => Sys2Proof.Machine.execLd t g d a size sx off s
  | .st t g a b size off => Sys2Proof.Machine.execSt t g a b size off s
  | .prefetch t g a off => Sys2Proof.Machine.execPrefetch t g a off s
  | .amoAdd t g d a b rel => Sys2Proof.Machine.execAmoAdd t g d a b rel s
  | .amoSwap t g d a b rel => Sys2Proof.Machine.execAmoSwap t g d a b rel s
  | .amoCas t g d a b rel => Sys2Proof.Machine.execAmoCas t g d a b rel s
  | .amoAnd t g d a b rel => Sys2Proof.Machine.execAmoAnd t g d a b rel s
  | .amoOr t g d a b rel => Sys2Proof.Machine.execAmoOr t g d a b rel s
  | .amoXor t g d a b rel => Sys2Proof.Machine.execAmoXor t g d a b rel s
  | .amoMin t g d a b rel => Sys2Proof.Machine.execAmoMin t g d a b rel s
  | .amoMax t g d a b rel => Sys2Proof.Machine.execAmoMax t g d a b rel s
  | .amoMinu t g d a b rel => Sys2Proof.Machine.execAmoMinu t g d a b rel s
  | .amoMaxu t g d a b rel => Sys2Proof.Machine.execAmoMaxu t g d a b rel s
  | .fence t g => Sys2Proof.Machine.execFence t g s
  | .fenceR t g => Sys2Proof.Machine.execFenceR t g s
  | .fenceA t g => Sys2Proof.Machine.execFenceA t g s
  | .fenceI t g => Sys2Proof.Machine.execFenceI t g s
  | .br t g imm => Sys2Proof.Machine.execBr t g imm s
  | .brl t g d imm => Sys2Proof.Machine.execBrl t g d imm s
  | .jr t g d a imm => Sys2Proof.Machine.execJr t g d a imm s
  | .exit t g a imm => Sys2Proof.Machine.execExit t g a imm s
  | .nop t g => Sys2Proof.Machine.execNop t g s
  | .step t g => Sys2Proof.Machine.execStep t g s
  | .yield t g => Sys2Proof.Machine.execYield t g s
  | .eret t g => Sys2Proof.Machine.execEret t g s
  | .eretSkip t g => Sys2Proof.Machine.execEretSkip t g s
  | .eretTo t g a => Sys2Proof.Machine.execEretTo t g a s
  | .brk t g imm => Sys2Proof.Machine.execBrk t g imm s
  | .trap t g imm => Sys2Proof.Machine.execTrap t g imm s
  | .csrr t g d n => Sys2Proof.Machine.execCsrr t g d n s
  | .csrw t g a n => Sys2Proof.Machine.execCsrw t g a n s
  | .rdreg t g d a => Sys2Proof.Machine.execRdreg t g d a s
  | .wrreg t g a b => Sys2Proof.Machine.execWrreg t g a b s
  | .tctlSuspend t g d a => Sys2Proof.Machine.execTctlSuspend t g d a s
  | .tctlResume t g d a => Sys2Proof.Machine.execTctlResume t g d a s
  | .tctlAbort t g d a => Sys2Proof.Machine.execTctlAbort t g d a s
  | .restoreFactory t g d => Sys2Proof.Machine.execRestoreFactory t g d s
  | .zeroise t g d => Sys2Proof.Machine.execZeroise t g d s
  | .zarmExpiry t => Sys2Proof.Machine.execZarmExpiry t s
  | .pass t g d a try_ => Sys2Proof.Machine.execPass t g d a try_ s
  | .passX t g d a try_ => Sys2Proof.Machine.execPassX t g d a try_ s
  | .drain t g d a try_ => Sys2Proof.Machine.execDrain t g d a try_ s
  | .ltnLoad t g d a try_ => Sys2Proof.Machine.execLtnLoad t g d a try_ s
  | .ltnRel t g d a try_ => Sys2Proof.Machine.execLtnRel t g d a try_ s
  | .attn t g d a try_ => Sys2Proof.Machine.execAttn t g d a try_ s
  | .sample t g d a try_ => Sys2Proof.Machine.execSample t g d a try_ s
  | .xferCopy t g d a try_ => Sys2Proof.Machine.execXferCopy t g d a try_ s
  | .xferGather t g d a try_ => Sys2Proof.Machine.execXferGather t g d a try_ s
  | .xferPages t g d a try_ => Sys2Proof.Machine.execXferPages t g d a try_ s
  | .xferFill t g d a try_ => Sys2Proof.Machine.execXferFill t g d a try_ s
  | .collAr t g d a try_ => Sys2Proof.Machine.execCollAr t g d a try_ s
  | .collRs t g d a try_ => Sys2Proof.Machine.execCollRs t g d a try_ s
  | .collAg t g d a try_ => Sys2Proof.Machine.execCollAg t g d a try_ s
  | .collA2a t g d a try_ => Sys2Proof.Machine.execCollA2a t g d a try_ s
  | .collBc t g d a try_ => Sys2Proof.Machine.execCollBc t g d a try_ s
  | .collBar t g d a try_ => Sys2Proof.Machine.execCollBar t g d a try_ s
  | .cwait t g d limit => Sys2Proof.Machine.execCwait t g d limit s
  | .waitat t g d a => Sys2Proof.Machine.execWaitat t g d a s
  | .cntwait t g d a b limit => Sys2Proof.Machine.execCntwait t g d a b limit s
  | .arm t g d a b => Sys2Proof.Machine.execArm t g d a b s
  | .armG t g d a b => Sys2Proof.Machine.execArmG t g d a b s
  | .disarm t g d a => Sys2Proof.Machine.execDisarm t g d a s
  | .waitatReturn t => Sys2Proof.Machine.execWaitatReturn t s
  | .waitLimit t => Sys2Proof.Machine.execWaitLimit t s
  | .ringDoorbell by_ inst j tail => Sys2Proof.Machine.execRingDoorbell by_ inst j tail s
  | .launchRecord inst j => Sys2Proof.Machine.execLaunchRecord inst j s
  | .ringEnable by_ inst j ctl => Sys2Proof.Machine.execRingEnable by_ inst j ctl s
  | .clrStop by_ inst j => Sys2Proof.Machine.execClrStop by_ inst j s
  | .cntAdd by_ inst w => Sys2Proof.Machine.execCntAdd by_ inst w s
  | .abortTid by_ inst v => Sys2Proof.Machine.execAbortTid by_ inst v s
  | .swap t => Sys2Proof.Machine.execSwap t s
  | .quantumExpiry t => Sys2Proof.Machine.execQuantumExpiry t s
  | .counterPoll t => Sys2Proof.Machine.execCounterPoll t s
  | .coreFault c bad => Sys2Proof.Machine.execCoreFault c bad s
  | .threadRestart t => Sys2Proof.Machine.execThreadRestart t s
  | .operationStart e => Sys2Proof.Machine.execOperationStart e s
  | .waitExpired e => Sys2Proof.Machine.execWaitExpired e s
  | .operationComplete e => Sys2Proof.Machine.execOperationComplete e s
  | .positionWrite t p => Sys2Proof.Machine.execPositionWrite t p s
  | .passBoundary t => Sys2Proof.Machine.execPassBoundary t s
  | .passResult t a codes => Sys2Proof.Machine.execPassResult t a codes s
  | .blockDrainEnd t b => Sys2Proof.Machine.execBlockDrainEnd t b s
  | .seed t => Sys2Proof.Machine.execSeed t s
  | .quantiseRendezvous e v => Sys2Proof.Machine.execQuantiseRendezvous e v s
  | .seal e => Sys2Proof.Machine.execSeal e s
  | .exactPassDone t => Sys2Proof.Machine.execExactPassDone t s
  | .recomputeDone t => Sys2Proof.Machine.execRecomputeDone t s
  | .ltnCommit t e => Sys2Proof.Machine.execLtnCommit t e s
  | .attnBlock e row => Sys2Proof.Machine.execAttnBlock e row s
  | .sampleRow e lane => Sys2Proof.Machine.execSampleRow e lane s
  | .compactionCopy e => Sys2Proof.Machine.execCompactionCopy e s
  | .burstDone x d => Sys2Proof.Machine.execBurstDone x d s
  | .transferEngineFault x => Sys2Proof.Machine.execTransferEngineFault x s
  | .write l f => Sys2Proof.Machine.execWrite l f s
  | .read l f => Sys2Proof.Machine.execRead l f s
  | .atomic l f m => Sys2Proof.Machine.execAtomic l f m s
  | .ack l f m => Sys2Proof.Machine.execAck l f m s
  | .nak l f m => Sys2Proof.Machine.execNak l f m s
  | .readData l f => Sys2Proof.Machine.execReadData l f s
  | .atomicData l f => Sys2Proof.Machine.execAtomicData l f s
  | .collPull l f m => Sys2Proof.Machine.execCollPull l f m s
  | .collData l f => Sys2Proof.Machine.execCollData l f s
  | .arrive l f m => Sys2Proof.Machine.execArrive l f m s
  | .release l f m => Sys2Proof.Machine.execRelease l f m s
  | .abort l f m => Sys2Proof.Machine.execAbort l f m s
  | .collTimeout e => Sys2Proof.Machine.execCollTimeout e s
  | .time l f m => Sys2Proof.Machine.execTime l f m s
  | .delayReq l f t1 => Sys2Proof.Machine.execDelayReq l f t1 s
  | .delayResp l f roundTrip => Sys2Proof.Machine.execDelayResp l f roundTrip s
  | .armed l f m => Sys2Proof.Machine.execArmed l f m s
  | .notArmed l f m => Sys2Proof.Machine.execNotArmed l f m s
  | .go l f m => Sys2Proof.Machine.execGo l f m s
  | .nogo l f m => Sys2Proof.Machine.execNogo l f m s
  | .noVerdict l f m => Sys2Proof.Machine.execNoVerdict l f m s
  | .outcome l f m => Sys2Proof.Machine.execOutcome l f m s
  | .ident l f m => Sys2Proof.Machine.execIdent l f m s
  | .credit l pool credits => Sys2Proof.Machine.execCredit l pool credits s
  | .pfcPause l cls xoff => Sys2Proof.Machine.execPfcPause l cls xoff s
  | .retransmit j => Sys2Proof.Machine.execRetransmit j s
  | .pathWaitExpiry dst => Sys2Proof.Machine.execPathWaitExpiry dst s
  | .timeMessageSend  => Sys2Proof.Machine.execTimeMessageSend  s
  | .delayExchange  => Sys2Proof.Machine.execDelayExchange  s
  | .linkEnable by_ l => Sys2Proof.Machine.execLinkEnable by_ l s
  | .linkDisable by_ l => Sys2Proof.Machine.execLinkDisable by_ l s
  | .retrain by_ l => Sys2Proof.Machine.execRetrain by_ l s
  | .signalDetect l => Sys2Proof.Machine.execSignalDetect l s
  | .trainingComplete l pol => Sys2Proof.Machine.execTrainingComplete l pol s
  | .alignComplete l lmap healthy => Sys2Proof.Machine.execAlignComplete l lmap healthy s
  | .linkTimeout l => Sys2Proof.Machine.execLinkTimeout l s
  | .lossOfSignal l => Sys2Proof.Machine.execLossOfSignal l s
  | .laneFault l lanes narrowOk => Sys2Proof.Machine.execLaneFault l lanes narrowOk s
  | .degradeDone l => Sys2Proof.Machine.execDegradeDone l s
  | .backoffEnd l => Sys2Proof.Machine.execBackoffEnd l s
  | .parkExpiry l => Sys2Proof.Machine.execParkExpiry l s
  | .epochBoundary  => Sys2Proof.Machine.execEpochBoundary  s
  | .cadenceTick n => Sys2Proof.Machine.execCadenceTick n s
  | .launchDispatch j => Sys2Proof.Machine.execLaunchDispatch j s
  | .commitPoint j => Sys2Proof.Machine.execCommitPoint j s
  | .verdictDeadline j => Sys2Proof.Machine.execVerdictDeadline j s
  | .outcomeSend j => Sys2Proof.Machine.execOutcomeSend j s
  | .outcomeDeadline j => Sys2Proof.Machine.execOutcomeDeadline j s
  | .ppsEdge refclk frac => Sys2Proof.Machine.execPpsEdge refclk frac s
  | .ptpSync remote remoteFrac => Sys2Proof.Machine.execPtpSync remote remoteFrac s
  | .ptpAnnounce domain chosen exchanged => Sys2Proof.Machine.execPtpAnnounce domain chosen exchanged s
  | .referenceLoss src refclkGone => Sys2Proof.Machine.execReferenceLoss src refclkGone s
  | .sourceRevert  => Sys2Proof.Machine.execSourceRevert  s
  | .setTime by_ v => Sys2Proof.Machine.execSetTime by_ v s
  | .holdoverLimit  => Sys2Proof.Machine.execHoldoverLimit  s
  | .ppsOutPulse  => Sys2Proof.Machine.execPpsOutPulse  s
  | .ppsOutEnd  => Sys2Proof.Machine.execPpsOutEnd  s
  | .imageLoadFull by_ => Sys2Proof.Machine.execImageLoadFull by_ s
  | .imageLoadRolling by_ => Sys2Proof.Machine.execImageLoadRolling by_ s
  | .imageLoadUnlock by_ => Sys2Proof.Machine.execImageLoadUnlock by_ s
  | .imageCommit f => Sys2Proof.Machine.execImageCommit f s
  | .pvGrant t => Sys2Proof.Machine.execPvGrant t s
  | .writingDone t loops => Sys2Proof.Machine.execWritingDone t loops s
  | .verifyingDone t failed => Sys2Proof.Machine.execVerifyingDone t failed s
  | .calDone t a r => Sys2Proof.Machine.execCalDone t a r s
  | .drainingDone t a => Sys2Proof.Machine.execDrainingDone t a s
  | .zeroiseComplete  => Sys2Proof.Machine.execZeroiseComplete  s
  | .instEnable by_ n => Sys2Proof.Machine.execInstEnable by_ n s
  | .instDisable by_ n => Sys2Proof.Machine.execInstDisable by_ n s
  | .instReset by_ n => Sys2Proof.Machine.execInstReset by_ n s
  | .vfFlr n => Sys2Proof.Machine.execVfFlr n s
  | .vfEnableClear  => Sys2Proof.Machine.execVfEnableClear  s
  | .instResetDone n => Sys2Proof.Machine.execInstResetDone n s
  | .quotaWrite by_ n r view v => Sys2Proof.Machine.execQuotaWrite by_ n r view v s
  | .memRangeWrite by_ n j view v => Sys2Proof.Machine.execMemRangeWrite by_ n j view v s
  | .rangeScrubDone n => Sys2Proof.Machine.execRangeScrubDone n s
  | .tidWrite by_ n view v => Sys2Proof.Machine.execTidWrite by_ n view v s
  | .townDataWrite by_ n v => Sys2Proof.Machine.execTownDataWrite by_ n v s
  | .residueError r => Sys2Proof.Machine.execResidueError r s
  | .unitHardFault u => Sys2Proof.Machine.execUnitHardFault u s
  | .patrolScrub a r => Sys2Proof.Machine.execPatrolScrub a r s
  | .stackZeroed k => Sys2Proof.Machine.execStackZeroed k s
  | .bar4Read fn a len => Sys2Proof.Machine.execBar4Read fn a len s
  | .bar4Write fn a data => Sys2Proof.Machine.execBar4Write fn a data s
  | .cxlMemRead a => Sys2Proof.Machine.execCxlMemRead a s
  | .cxlMemWrite a data => Sys2Proof.Machine.execCxlMemWrite a data s
  | .hdmCommit j base size dev inst => Sys2Proof.Machine.execHdmCommit j base size dev inst s
  | .hostCompletion tag ok data => Sys2Proof.Machine.execHostCompletion tag ok data s
  | .completionTimeout tag => Sys2Proof.Machine.execCompletionTimeout tag s
  | .msixUnmask fn v => Sys2Proof.Machine.execMsixUnmask fn v s
  | .doeDiscovery index => Sys2Proof.Machine.execDoeDiscovery index s
  | .getVersion  => Sys2Proof.Machine.execGetVersion  s
  | .getCapabilities  => Sys2Proof.Machine.execGetCapabilities  s
  | .negotiateAlgorithms p384 sha384 => Sys2Proof.Machine.execNegotiateAlgorithms p384 sha384 s
  | .getDigests  => Sys2Proof.Machine.execGetDigests  s
  | .getCertificate slot off len => Sys2Proof.Machine.execGetCertificate slot off len s
  | .challenge slot nonce => Sys2Proof.Machine.execChallenge slot nonce s
  | .getMeasurements op nonce => Sys2Proof.Machine.execGetMeasurements op nonce s
  | .perstNFall  => Sys2Proof.Machine.execPerstNFall  s
  | .perstNRise  => Sys2Proof.Machine.execPerstNRise  s
  | .pfFlr  => Sys2Proof.Machine.execPfFlr  s
  | .perstScrubDone  => Sys2Proof.Machine.execPerstScrubDone  s
  | .p12auxQualified copyA copyB => Sys2Proof.Machine.execP12auxQualified copyA copyB s
  | .p12auxLoss  => Sys2Proof.Machine.execP12auxLoss  s
  | .p48Qualified v => Sys2Proof.Machine.execP48Qualified v s
  | .p48Warning v => Sys2Proof.Machine.execP48Warning v s
  | .p48Loss v => Sys2Proof.Machine.execP48Loss v s
  | .pinShort p => Sys2Proof.Machine.execPinShort p s
  | .shortRetry p free => Sys2Proof.Machine.execShortRetry p free s
  | .domainOn by_ d => Sys2Proof.Machine.execDomainOn by_ d s
  | .domainOff by_ d => Sys2Proof.Machine.execDomainOff by_ d s
  | .domainUsable d => Sys2Proof.Machine.execDomainUsable d s
  | .sensorSample readings => Sys2Proof.Machine.execSensorSample readings s
  | .sensorCrosscheck  => Sys2Proof.Machine.execSensorCrosscheck  s
  | .throttleUpdate pAvg p48 => Sys2Proof.Machine.execThrottleUpdate pAvg p48 s
  | .thermalTrip die sensor reading => Sys2Proof.Machine.execThermalTrip die sensor reading s
  | .tripClear  => Sys2Proof.Machine.execTripClear  s
  | .referenceCompensation  => Sys2Proof.Machine.execReferenceCompensation  s
  | .oscTempRead temp => Sys2Proof.Machine.execOscTempRead temp s
  | .keepWatchdog copyA copyB => Sys2Proof.Machine.execKeepWatchdog copyA copyB s
  | .metResult c code clip => Sys2Proof.Machine.execMetResult c code clip s
  | .channelStart by_ c ch => Sys2Proof.Machine.execChannelStart by_ c ch s
  | .channelStop by_ c ch => Sys2Proof.Machine.execChannelStop by_ c ch s
  | .senseProbe k f => Sys2Proof.Machine.execSenseProbe k f s
  | .driftCalibration f trims => Sys2Proof.Machine.execDriftCalibration f trims s
  | .driftMissed f => Sys2Proof.Machine.execDriftMissed f s
  | .fallbackMeasure k value => Sys2Proof.Machine.execFallbackMeasure k value s
  | .regWrite by_ w size v => Sys2Proof.Machine.execRegWrite by_ w size v s
  | .reg64LowRead by_ off => Sys2Proof.Machine.execReg64LowRead by_ off s
  | .reg64HighRead by_ off => Sys2Proof.Machine.execReg64HighRead by_ off s
  | .reg64LowWrite by_ off v => Sys2Proof.Machine.execReg64LowWrite by_ off v s
  | .reg64HighWrite by_ off v => Sys2Proof.Machine.execReg64HighWrite by_ off v s
  | .reg64LatchExpiry by_ off => Sys2Proof.Machine.execReg64LatchExpiry by_ off s
  | .routePendWrite by_ view v => Sys2Proof.Machine.execRoutePendWrite by_ view v s
  | .keepRestoreFactory by_ => Sys2Proof.Machine.execKeepRestoreFactory by_ s
  | .restoreFactoryDone  => Sys2Proof.Machine.execRestoreFactoryDone  s
  | .keepZeroise by_ arg => Sys2Proof.Machine.execKeepZeroise by_ arg s
  | .sweepConverter by_ => Sys2Proof.Machine.execSweepConverter by_ s
  | .sweepSensor by_ ref => Sys2Proof.Machine.execSweepSensor by_ ref s
  | .sweepOscillator by_ => Sys2Proof.Machine.execSweepOscillator by_ s
  | .sweepReference by_ => Sys2Proof.Machine.execSweepReference by_ s
  | .sweepDone cells => Sys2Proof.Machine.execSweepDone cells s
  | .retest by_ arg => Sys2Proof.Machine.execRetest by_ arg s
  | .retestDone ok => Sys2Proof.Machine.execRetestDone ok s
  | .otpAnchor by_ arg => Sys2Proof.Machine.execOtpAnchor by_ arg s
  | .otpRevoke by_ arg => Sys2Proof.Machine.execOtpRevoke by_ arg s
  | .otpFloor by_ arg => Sys2Proof.Machine.execOtpFloor by_ arg s
  | .otpPolicyBoth by_ => Sys2Proof.Machine.execOtpPolicyBoth by_ s
  | .badCode by_ code => Sys2Proof.Machine.execBadCode by_ code s
  | .keepCommandTimeout  => Sys2Proof.Machine.execKeepCommandTimeout  s
  | .pldmFirmwareUpdate verifies => Sys2Proof.Machine.execPldmFirmwareUpdate verifies s
  | .vfEnableSet  => Sys2Proof.Machine.execVfEnableSet  s
  | .p48WarningEnd v => Sys2Proof.Machine.execP48WarningEnd v s
  | .channelInterval c ch => Sys2Proof.Machine.execChannelInterval c ch s

end Sys2Proof.Machine
end

