-- ==== Sys2Proof/Machine/Step.lean ====
section
/-! DEFINITION. One step: the command at the front of the queue, or a Dome cycle of idling. -/

namespace Sys2Proof.Machine

open Sys2Proof

/-- The command at the front of the queue takes its effect on the rest; with no command waiting, one Dome
cycle passes. (DESIGN CHOICE, log entry 1) (DESIGN CHOICE, log entry 2) -/
def step (s : State) : Host.Outcome State Fault Refusal :=
  match s.pending with
  | [] => .next (idle s)
  | c :: r => exec c { s with pending := r }

/-- The state with the command that a table word spells at the front of its queue. (DESIGN CHOICE, log entry 1) -/
def State.withFetchWord (s : State) (nbits w : Nat) : State :=
  match decodeTableWord nbits w with
  | some c => { s with pending := c :: s.pending }
  | none => s

end Sys2Proof.Machine
end

