-- ==== Sys2Proof/Safety.lean ====
section
/-! DEFINITION. The terms in which claims are stated: what counts as a safe step, when a thread issues a word, and what
a frame leaves as it was. -/

namespace Sys2Proof.Safety

open Sys2Proof Sys2Proof.Machine

/-- A step is safe when the machine goes on. -/
def goesOn (s : State) : Prop := ∃ t, step s = .next t

/-- A command completes with an effect. -/
def Does (c : Instr) (s : State) (p : State → Prop) : Prop := ∃ s', exec c s = .next s' ∧ p s'

/-- A thread issues a word whose guard is true: it is HOT on a core in service, whose turn it is (R171), and its fetch meets
no exception (R170, R195, R196). -/
def Issues (s : State) (t : Tid) (g : Guard) : Prop :=
  canIssue s t.toNat = true ∧ fetchFault s t.toNat = none ∧ guardOf (getThr s t.toNat) g = true

/-- Everything but threads, cores and the count of free values is the same. -/
structure SameElsewhere (s s' : State) : Prop where
  pending : s'.pending = s.pending
  now : s'.now = s.now
  time : s'.time = s.time
  op : s'.op = s.op
  tile : s'.tile = s.tile
  img : s'.img = s.img
  mem : s'.mem = s.mem
  host : s'.host = s.host
  reg : s'.reg = s.reg
  insts : s'.insts = s.insts
  flt : s'.flt = s.flt
  fab : s'.fab = s.fab
  pwr : s'.pwr = s.pwr
  met : s'.met = s.met
  keep : s'.keep = s.keep
  arb : s'.arb = s.arb

/-- The frame of an instruction that acts on its own thread alone: every other thread, every ring and group, all memory
and every unit is the same, and a core differs at most in the lines of its instruction cache and in whose turn it is to issue (R171). -/
structure ThreadFrame (s s' : State) (t : Tid) : Prop where
  elsewhere : SameElsewhere s s'
  threads : ∀ u, u ≠ t.toNat → getThr s' u = getThr s u
  cores : ∀ c, { getCore s' c with icache := [], turn := none } = { getCore s c with icache := [], turn := none }
  rings : s'.mbx.rings = s.mbx.rings
  gsteps : s'.mbx.gsteps = s.mbx.gsteps

/-- What retirement changes in a thread is set aside. -/
def core (th : Thread) : Thread := { th with g := [], pc := 0, retired := 0 }

/-- One instruction further: PC + 8, one more retired (R195, R180 c21). -/
def Advanced (th th' : Thread) : Prop := th'.pc = th.pc + 8 ∧ th'.retired = th.retired + 1

/-- The command retires with `v` in g[d]; g0 discards it, and every other register and field of the thread is the same
(R180). -/
def GWrites (c : Instr) (s : State) (t : Tid) (d : GReg) (v : W64) : Prop :=
  Does c s fun s' =>
    ThreadFrame s s' t ∧ Advanced (getThr s t.toNat) (getThr s' t.toNat) ∧
      core (getThr s' t.toNat) = core (getThr s t.toNat) ∧
      ∀ r, gRd (getThr s' t.toNat) r = if r = d ∧ r ≠ 0 then v else gRd (getThr s t.toNat) r

/-- The command retires with an FP32 value in g[d], its upper half 0, and flags ORed into c8 (R204). -/
def FWrites (c : Instr) (s : State) (t : Tid) (d : GReg) (v : W32) (f : BitVec 4) : Prop :=
  Does c s fun s' =>
    let th := getThr s t.toNat
    let th' := getThr s' t.toNat
    ThreadFrame s s' t ∧ Advanced th th' ∧ core th' = { core th with aflags := th.aflags ||| f } ∧
      ∀ r, gRd th' r = if r = d ∧ r ≠ 0 then v.setWidth 64 else gRd th r

/-- The command retires with `v` in p[p]; p0 discards it (R180, R203). -/
def PWrites (c : Instr) (s : State) (t : Tid) (p : PReg) (v : Bool) : Prop :=
  Does c s fun s' =>
    let th := getThr s t.toNat
    let th' := getThr s' t.toNat
    ThreadFrame s s' t ∧ Advanced th th' ∧ core th' = { core th with pred := th'.pred } ∧
      (∀ r, gRd th' r = gRd th r) ∧ ∀ q, pRd th' q = if q = p ∧ q ≠ 0 then v else pRd th q

/-- A thread's exception entry (R189): the exception registers, IN_HANDLER, and the handler's address. -/
def Entered (th th' : Thread) (code : Byte) (addr : W64) (info : W32) : Prop :=
  th'.exc = { th.exc with pc := th.pc, addr := addr, info := info, code := code } ∧ th'.inHandler = true ∧
    th'.pc = th.handler ∧ th'.g = th.g ∧ th'.pred = th.pred ∧ th'.retired = th.retired

/-- A thread can take an exception: it has a handler and is not in it (R189). -/
def CanEnter (th : Thread) : Prop := th.handler ≠ 0 ∧ th.inHandler = false

/-- The exception of a command ends the thread, which is FREE: it has no handler, or is in it (R189, R175). -/
def Ends (c : Instr) (s : State) (t : Tid) : Prop := Does c s fun s' => (getThr s' t.toNat).st = .free

/-- Every byte of stacked memory outside `[a, a + n)` is the same. -/
def SameOutside (s s' : State) (a n : Nat) : Prop :=
  ∀ x, (x < a ∨ a + n ≤ x) → cellGet s'.mem.cells x = cellGet s.mem.cells x

/-- Memory holds the bytes of a number at an address. -/
def Holds (s : State) (a n v : Nat) : Prop := ∀ k, k < n → cellGet s.mem.cells (a + k) = BitVec.ofNat 8 (v / 256 ^ k)

/-- No order has been given before in the cycle in progress, so none stands against the next one (R372). -/
def FirstOrder (s : State) : Prop := ∀ o ∈ s.reg.orders, o.at_ ≠ s.now

/-- An order has lost to one given before it in its cycle, which contradicts it and wins over it (R372). -/
def Loses (s : State) (o : Order) : Prop := ∃ r ∈ s.reg.orders, contradicts o r = true ∧ beats r o = true

/-- The address of an order that a requester may make: it is there, and the block takes its orders (R359, R371, R454); and
it is the first order of its cycle (R372). -/
def MayOrder (s : State) (by_ : Requester) (b : Blk) : Prop := reqUp s by_ = true ∧ mayWrite s by_ b = true ∧ FirstOrder s

/-- The operations of R223 that a thread issues, with the KIND of their descriptors. -/
def opKinds (t : Tid) (g : Guard) (d a : GReg) (try_ : Bool) : List (Instr × Nat) :=
  [(.pass t g d a try_, 0x80), (.passX t g d a try_, 0x81), (.drain t g d a try_, 0x90), (.ltnLoad t g d a try_, 0xA0),
   (.ltnRel t g d a try_, 0xA1), (.attn t g d a try_, 0xB0), (.sample t g d a try_, 0xC0),
   (.xferCopy t g d a try_, 0xD0), (.xferGather t g d a try_, 0xD1), (.xferPages t g d a try_, 0xD2),
   (.xferFill t g d a try_, 0xD3), (.collAr t g d a try_, 0xE0), (.collRs t g d a try_, 0xE1),
   (.collAg t g d a try_, 0xE2), (.collA2a t g d a try_, 0xE3), (.collBc t g d a try_, 0xE4), (.collBar t g d a try_, 0xE5)]

/-- A descriptor's header passes every check at issue (R224). -/
def HeaderOk (s : State) (inst : Inst) (a kind : Nat) (lg : Nat → Bool) : Prop := ∀ u, headerFault s inst a kind u lg = none

/-- A tile's number, Spire × 264 + physical tile. -/
def tileNo (t : TileId) : Nat := t.spire.val * 264 + t.tile.val

/-- Nothing waits in a tile but what is in flight, and its exact unit has no request. -/
def Quiet (t : Tile) : Prop := t.todo = [] ∧ t.exactQ = [] ∧ t.recompQ = [] ∧ t.exactBusy = none

/-- A pass whose run is one pass: the only one of its list and of its K range, with sums that go to its block, which
other runs have still to fill; its operation goes on (R85, R86). -/
def OneStep (s : State) (p : Nat) (q : PassReq) : Prop :=
  (getOp s q.op).used = true ∧ (getOp s q.op).result = none ∧ findRun (getTile s p) q = none ∧ q.firstK = 0 ∧
    q.kblock = 0 ∧ q.lastK = 0 ∧ q.listLast = 0 ∧ ∃ w n, passOf s q.op = some w ∧ logTile s p = some n ∧
      (fillOf (getBlock (getTile s p) q.blk) q.op).final.length + 1 ≠
        (tileObs w.items n).length * groupVectors w (fillOf (getBlock (getTile s p) q.blk) q.op).group

/-- The sums that a pass leaves in its slot: 0 and the column results, added (R86, R87). -/
def SumsInSlot (s : State) (p : Nat) (q : PassReq) (v : List W32) : Prop :=
  tabGet [] (getBlock (getTile s p) q.blk).slots (q.slotV * 32 + q.oix) = fvVals (addRows zeroRow v)

/-- A frame arrives for this device on an ACTIVE link, in order, in a slice that holds an instance and reaches its
source (R309, R317). -/
def Arrives (s : State) (l : Link) (f : Frame) : Prop :=
  linkActive s l = true ∧ f.fcsOk = true ∧ f.version = 1 ∧ f.reservedSet = false ∧ f.dst.toNat = ownDev s ∧
    reaches s f.slice.toNat f.src.toNat = true ∧ sliceInsts s f.slice.toNat ≠ []

end Sys2Proof.Safety
end

