-- ==== Sys2Proof/Certificates/Slice0/Obligations.lean ====
section
/-! DEFINITION. The statements for the provers. -/

open Sys2Proof Sys2Proof.Machine Sys2Proof.Safety

/-- O1. Asked of a block in place of a processor's fetch rule: the command at the front of the queue takes its effect on
the state with the queue's rest. The queue is the model's own (log entry 1). -/
def Obligations.StepRunsFrontCommand : Prop :=
  ∀ (s : State) (c : Instr) (r : List Instr), s.pending = c :: r → step s = exec c { s with pending := r }

/-- O2. The model's choice (log entry 2): on an empty queue one Dome cycle of 25 × 25 ps passes; no thread's registers,
no register, no operation and no unit changes, and the queue stays empty. -/
def Obligations.IdleCyclePassesTime : Prop :=
  ∀ s : State, s.pending = [] → ∃ s', step s = .next s' ∧ s'.now = s.now + 25 ∧ s'.pending = [] ∧
    s'.mbx.threads = s.mbx.threads ∧ s'.reg = s.reg ∧ s'.op = s.op ∧ s'.tile = s.tile ∧ s'.img = s.img ∧
    s'.insts = s.insts ∧ s'.flt = s.flt ∧ s'.fab = s.fab ∧ s'.pwr = s.pwr ∧ s'.keep = s.keep

/-- O3. What reset leaves (R144, R362, R379, R408, R474): RESET_CAUSE holds POWER_ON alone, TIME_VALID is 0 and NS is 0,
every switched domain is off, instance 0 is ENABLED and every other DISABLED, every thread is FREE, no operation is in
the table, the links are DISABLED, and each register named here holds its reset value. Model's part: P12AUX and the Keep
stand as log entry 12 says; no other value named here is the model's. -/
def Obligations.ResetState : Prop :=
  State.reset.reg.resetCause = 1 ∧ State.reset.time.belfry.timeValid = false ∧ State.reset.time.belfry.ns = 0 ∧
    State.reset.pending = [] ∧
    (∀ d, domUsable State.reset d = false) ∧
    (∀ n, (getInst State.reset n).st = if n = 0 then .enabled else .disabled) ∧
    (∀ t, (getThr State.reset t).st = .free) ∧ (∀ e, (getOp State.reset e).used = false) ∧
    (∀ l, (getLink State.reset l).st = .disabled) ∧
    regFld State.reset .pwr 0x018 0 11 = 1000 ∧ regFld State.reset .therm 0x008 0 8 = 95 ∧
    regFld State.reset .sched 0x008 0 16 = 50 ∧ regAct State.reset .fab 0x010 = 0x6543 ∧
    regAct State.reset (.tile 0 0) 0x010 = 0x1037 ∧ regAct State.reset .belfry 0x018 = 0x003C0002

/-- O4. Reset memory lists nothing, so it is in canonical form. Model's part: The form is the model's representation
(log entry 72). -/
def Obligations.ResetMemoryCanonical : Prop := Memory.wf State.reset.mem.cells = true

/-- O5. Memory keeps its canonical form, addresses rising and no listed byte 0, over every step from every state that
has it: whatever command stands in front, and when none does. Model's part: The form is the model's representation of
the bytes (log entry 72). -/
def Obligations.MemoryStaysCanonical : Prop :=
  ∀ s s' : State, Memory.wf s.mem.cells = true → step s = .next s' → Memory.wf s'.mem.cells = true

/-- O6. R201, R202: the scalar integer instructions with their results, modulo 2^64; each advances its thread by one
instruction and changes nothing else. -/
def Obligations.IntegerResults : Prop :=
  ∀ (s : State) (t : Tid) (g : Guard) (d a b : GReg) (y : Src) (p : PReg) (i24 : BitVec 24) (i32 : W32), Issues s t g →
    let th := getThr s t.toNat
    let x := gRd th a
    let z := gRd th b
    let v := srcVal th y
    ∀ q ∈ ([(.add t g d a y, x + v), (.sub t g d a y, x - v), (.mul t g d a y, x * v), (.and t g d a y, x &&& v),
        (.or t g d a y, x ||| v), (.xor t g d a y, x ^^^ v), (.shl t g d a y, x <<< (v.toNat % 64)),
        (.shr t g d a y, x >>> (v.toNat % 64)), (.sha t g d a y, x.sshiftRight (v.toNat % 64)),
        (.mulh t g true d a b, BitVec.ofNat 64 (x.toNat * z.toNat / 2 ^ 64)),
        (.mulh t g false d a b, BitVec.ofInt 64 (x.toInt * z.toInt / 2 ^ 64)),
        (.min t g d a b, if x.toInt ≤ z.toInt then x else z), (.max t g d a b, if z.toInt ≤ x.toInt then x else z),
        (.minu t g d a b, if x.toNat ≤ z.toNat then x else z), (.maxu t g d a b, if z.toNat ≤ x.toNat then x else z),
        (.sel t g d a b p, if pRd th p then x else z), (.addpc t g d i24, th.pc + i24.signExtend 64 * 8),
        (.moviL t g d i32, i32.signExtend 64), (.moviH t g d i32, i32 ++ (gRd th d).setWidth 32)] : List (Instr × W64)),
      GWrites q.1 s t d q.2

/-- O7. R201, R202: DIV and REM round towards zero; a divisor of 0 gives all ones and the dividend, and −2^63 by −1
gives −2^63 and 0. -/
def Obligations.DivisionResults : Prop :=
  ∀ (s : State) (t : Tid) (g : Guard) (d a b : GReg), Issues s t g →
    let x := gRd (getThr s t.toNat) a
    let y := gRd (getThr s t.toNat) b
    GWrites (.div t g true d a b) s t d (if y = 0 then BitVec.allOnes 64 else BitVec.ofNat 64 (x.toNat / y.toNat)) ∧
    GWrites (.div t g false d a b) s t d (if y = 0 then BitVec.allOnes 64 else BitVec.ofInt 64 (x.toInt.tdiv y.toInt)) ∧
    GWrites (.rem t g true d a b) s t d (if y = 0 then x else BitVec.ofNat 64 (x.toNat % y.toNat)) ∧
    GWrites (.rem t g false d a b) s t d (if y = 0 then x else BitVec.ofInt 64 (x.toInt.tmod y.toInt))

/-- O8. R201: CLZ counts the zeros above the highest one bit, CTZ those below the lowest, POPC the one bits; 64 and 64
and 0 for 0. -/
def Obligations.BitCounts : Prop :=
  ∀ (s : State) (t : Tid) (g : Guard) (d a : GReg), Issues s t g →
    let x := (gRd (getThr s t.toNat) a).toNat
    (∃ n, GWrites (.clz t g d a) s t d (BitVec.ofNat 64 n) ∧ (x = 0 → n = 64) ∧
      (x ≠ 0 → n < 64 ∧ 2 ^ (63 - n) ≤ x ∧ x < 2 ^ (64 - n))) ∧
    (∃ n, GWrites (.ctz t g d a) s t d (BitVec.ofNat 64 n) ∧ (x = 0 → n = 64) ∧
      (x ≠ 0 → n < 64 ∧ x % 2 ^ n = 0 ∧ x / 2 ^ n % 2 = 1)) ∧
    GWrites (.popc t g d a) s t d (BitVec.ofNat 64 ((List.range 64).countP fun i => x.testBit i))

/-- O9. R203: the compares and the predicate instructions write one p register; p0 discards the write; PXOR of p0 with
itself gives false and PANDN of p0 the inverse. A compare word with another SUBOP, or with a bit that must be 0, is not
defined. -/
def Obligations.PredicateResults : Prop :=
  (∀ (s : State) (t : Tid) (g : Guard) (p : PReg) (a : GReg) (y : Src) (q r : PReg), Issues s t g →
    let th := getThr s t.toNat
    let x := gRd th a
    let v := srcVal th y
    ∀ c ∈ ([(.cmpEq t g p a y, decide (x = v)), (.cmpNe t g p a y, decide (x ≠ v)),
        (.cmpLt t g p a y, decide (x.toInt < v.toInt)), (.cmpLe t g p a y, decide (x.toInt ≤ v.toInt)),
        (.cmpLtu t g p a y, decide (x.toNat < v.toNat)), (.cmpLeu t g p a y, decide (x.toNat ≤ v.toNat)),
        (.pand t g p q r, pRd th q && pRd th r), (.por t g p q r, pRd th q || pRd th r),
        (.pxor t g p q r, pRd th q != pRd th r), (.pandn t g p q r, pRd th q && !pRd th r),
        (.pxor t g p 0 0, false), (.pandn t g p 0 r, !pRd th r)] : List (Instr × Bool)),
      PWrites c.1 s t p c.2) ∧
  ∀ w : W64,
    let k := wfld w.toNat 27 4
    wfld w.toNat 58 6 = 0x0D →
    (k = 6 ∨ k = 7 ∨ 11 < k ∨ wfld w.toNat 51 3 ≠ 0 ∨
      (8 ≤ k ∧ (wfld w.toNat 31 1 = 1 ∨ wfld w.toNat 45 3 ≠ 0 ∨ wfld w.toNat 39 3 ≠ 0))) →
    definedWord w = false

/-- O10. R204, R205: the scalar float instructions take bits 31:0 of their sources, write the upper half 0, and OR the
flags they raise into c8; the compares set no flag; CVT of accepted codes writes its word and its flags. -/
def Obligations.FloatResults : Prop :=
  ∀ (s : State) (t : Tid) (g : Guard) (d a b : GReg) (p : PReg), Issues s t g →
    let th := getThr s t.toNat
    let x : W32 := (gRd th a).setWidth 32
    let y : W32 := (gRd th b).setWidth 32
    (∀ c ∈ ([(.fadd t g d a b, f32add x y), (.fsub t g d a b, f32sub x y), (.fmul t g d a b, f32mul x y),
        (.fdiv t g d a b, f32div x y), (.fsqrt t g d a, f32sqrt x), (.fmin t g d a b, ⟨f32min x y, 0⟩),
        (.fmax t g d a b, ⟨f32max x y, 0⟩), (.fabs t g d a, ⟨if isNan32 x then nan32 else x &&& 0x7FFFFFFF, 0⟩),
        (.fneg t g d a, ⟨if isNan32 x then nan32 else x ^^^ 0x80000000, 0⟩)] : List (Instr × Fv)),
      FWrites c.1 s t d c.2.v c.2.f) ∧
    (∀ c ∈ ([(.fcmpEq t g p a b, f32eq x y), (.fcmpLt t g p a b, f32lt x y), (.fcmpLe t g p a b, f32le x y),
        (.fcmpUn t g p a b, isNan32 x || isNan32 y)] : List (Instr × Bool)), PWrites c.1 s t p c.2) ∧
    ∀ src dst : BitVec 4, 3 ≤ src.toNat → 3 ≤ dst.toNat → dst ≠ 0xC →
      Does (.cvt t g d a src dst) s fun s' =>
        let th' := getThr s' t.toNat
        let w := cvtWord src.toNat dst.toNat (gRd th a)
        ThreadFrame s s' t ∧ Advanced th th' ∧ core th' = { core th with aflags := th.aflags ||| w.2 } ∧
          ∀ r, gRd th' r = if r = d ∧ r ≠ 0 then w.1 else gRd th r

/-- O11. R194: a word that is not defined raises ILLEGAL with EXC_INFO its bits 63:32, whatever its guard; a thread that
cannot enter its handler ends (R189). -/
def Obligations.UndefinedWordRaisesIllegal : Prop :=
  ∀ (s : State) (t : Tid) (w : W64), canIssue s t.toNat = true → fetchFault s t.toNat = none → definedWord w = false →
    (CanEnter (getThr s t.toNat) →
      Does (.undefinedInstruction t w) s fun s' =>
        Entered (getThr s t.toNat) (getThr s' t.toNat) 0x01 0 ((w >>> 32).setWidth 32) ∧
          (getThr s' t.toNat).st = .hot) ∧
    (¬CanEnter (getThr s t.toNat) → Ends (.undefinedInstruction t w) s t)

/-- O12. R206, R185, R207: an aligned LD of stacked memory in the instance, whose line the core does not hold, whose
thread has no buffered store, and which reads without error, writes the little-endian number to g[d], sign-extended
under SX; memory is the same. PREFETCH retires and changes no memory and no register. Model's part: That a line not held
is read from memory is R185; whether a line is still held is free (log entry 39). -/
def Obligations.LoadsReadMemory : Prop :=
  (∀ (s : State) (t : Tid) (g : Guard) (d a : GReg) (size : BitVec 2) (sx : Bool) (off : BitVec 24) (c : Nat),
    Issues s t g → (sx && size == 3) = false → coreOf (getThr s t.toNat) = some c →
    (∀ e ∈ (getCore s c).stores, e.tid ≠ t) →
    let x := (gRd (getThr s t.toNat) a + off.signExtend 64).toNat
    let n := 2 ^ size.toNat
    x % n = 0 → isStacked x = true → inInst s (getThr s t.toNat).inst x n = true → lineBad s x = false →
    tabHas (getCore s c).dcache (x / 64) = false →
    Does (.ld t g d a size sx off) s fun s' =>
      let th' := getThr s' t.toNat
      let v := rdNat s x n
      SameElsewhere s s' ∧ Advanced (getThr s t.toNat) th' ∧ core th' = core (getThr s t.toNat) ∧
        (∀ u, u ≠ t.toNat → getThr s' u = getThr s u) ∧
        ∀ r, gRd th' r = if r = d ∧ r ≠ 0 then (if sx then BitVec.ofInt 64 (toSigned (8 * n) v) else BitVec.ofNat 64 v)
          else gRd (getThr s t.toNat) r) ∧
  ∀ (s : State) (t : Tid) (g : Guard) (a : GReg) (off : BitVec 24), Issues s t g →
    Does (.prefetch t g a off) s fun s' =>
      SameElsewhere s s' ∧ Advanced (getThr s t.toNat) (getThr s' t.toNat) ∧
        (getThr s' t.toNat).g = (getThr s t.toNat).g ∧ ∀ u, u ≠ t.toNat → getThr s' u = getThr s u

/-- O13. R206, R185: an aligned ST inside the instance's memory retires with its bytes at the end of the core's store
buffer; memory is the same, except that a buffer already holding 32 entries first writes its oldest. -/
def Obligations.StoresEnterTheBuffer : Prop :=
  ∀ (s : State) (t : Tid) (g : Guard) (a b : GReg) (size : BitVec 2) (off : BitVec 24) (c : Nat), Issues s t g →
    coreOf (getThr s t.toNat) = some c →
    let x := gRd (getThr s t.toNat) a + off.signExtend 64
    let n := 2 ^ size.toNat
    x.toNat % n = 0 → inInst s (getThr s t.toNat).inst x.toNat n = true →
    Does (.st t g a b size off) s fun s' =>
      let old := (getCore s c).stores
      Advanced (getThr s t.toNat) (getThr s' t.toNat) ∧ core (getThr s' t.toNat) = core (getThr s t.toNat) ∧
        (getThr s' t.toNat).g = (getThr s t.toNat).g ∧ (∀ u, u ≠ t.toNat → getThr s' u = getThr s u) ∧
        (getCore s' c).stores = (if old.length < 32 then old else old.drop 1) ++ [⟨t, x, n, gRd (getThr s t.toNat) b⟩] ∧
        (old.length < 32 → s'.mem = s.mem) ∧
        ∀ e r, 32 ≤ old.length → old = e :: r → SameOutside s s' e.addr.toNat e.size

/-- O14. R208: an AMO on an aligned word of the instance's stacked memory that reads without error gives g[d] the old
word and memory the new one, and no other byte differs from what memory holds once the stores that the AMO orders before
itself have drained. -/
def Obligations.AtomicsReplaceOneWord : Prop :=
  ∀ (s : State) (t : Tid) (g : Guard) (d a b : GReg) (rel : Bool), Issues s t g →
    let x := (gRd (getThr s t.toNat) a).toNat
    let u := if rel then release (fetched s t.toNat) t.toNat else drainWord (fetched s t.toNat) t.toNat x
    let old := BitVec.ofNat 64 (rdNat u x 8)
    let y := gRd (getThr s t.toNat) b
    amoFault s t.toNat x = none →
    ∀ q ∈ ([(.amoAdd t g d a b rel, old + y), (.amoSwap t g d a b rel, y),
        (.amoCas t g d a b rel, if old = gRd (getThr s t.toNat) d then y else old),
        (.amoAnd t g d a b rel, old &&& y), (.amoOr t g d a b rel, old ||| y), (.amoXor t g d a b rel, old ^^^ y),
        (.amoMin t g d a b rel, if y.toInt < old.toInt then y else old),
        (.amoMax t g d a b rel, if old.toInt < y.toInt then y else old),
        (.amoMinu t g d a b rel, if y.toNat < old.toNat then y else old),
        (.amoMaxu t g d a b rel, if old.toNat < y.toNat then y else old)] : List (Instr × W64)),
      Does q.1 s fun s' =>
        Holds s' x 8 q.2.toNat ∧ SameOutside u s' x 8 ∧
          (∀ r, gRd (getThr s' t.toNat) r = if r = d ∧ r ≠ 0 then old else gRd (getThr s t.toNat) r) ∧
          Advanced (getThr s t.toNat) (getThr s' t.toNat)

/-- O15. R209, R185: FENCE.R leaves none of the thread's stores in its core's buffer, FENCE.A no line in the core's data
cache, FENCE does both, FENCE.I empties the instruction cache; each retires. -/
def Obligations.FencesOrderMemory : Prop :=
  ∀ (s : State) (t : Tid) (g : Guard) (c : Nat), Issues s t g → coreOf (getThr s t.toNat) = some c →
    (∀ q ∈ [(Instr.fence t g, true, true), (.fenceR t g, true, false), (.fenceA t g, false, true)],
      Does q.1 s fun s' =>
        Advanced (getThr s t.toNat) (getThr s' t.toNat) ∧ (getThr s' t.toNat).g = (getThr s t.toNat).g ∧
          (q.2.1 = true → ∀ e ∈ (getCore s' c).stores, e.tid ≠ t) ∧ (q.2.1 = false → s'.mem = s.mem) ∧
          (q.2.2 = true → (getCore s' c).dcache = [])) ∧
    Does (.fenceI t g) s fun s' =>
      Advanced (getThr s t.toNat) (getThr s' t.toNat) ∧ (getThr s' t.toNat).g = (getThr s t.toNat).g ∧
        (getCore s' c).icache = [] ∧ SameElsewhere s s'

/-- O16. R210, R212: BR, BRL and JR with an aligned target in the instance's memory continue there with the link in
g[d]; NOP only advances, and YIELD marks the thread's quantum as over when a READY thread waits for its pool. -/
def Obligations.ControlTransfers : Prop :=
  ∀ (s : State) (t : Tid) (g : Guard) (d a : GReg) (i32 : W32) (i24 : BitVec 24), Issues s t g →
    let th := getThr s t.toNat
    (∀ q ∈ ([(.br t g i32, 0, th.pc + i32.signExtend 64 * 8), (.brl t g d i32, d, th.pc + i32.signExtend 64 * 8),
        (.jr t g d a i24, d, gRd th a + i24.signExtend 64)] : List (Instr × GReg × W64)),
      q.2.2.toNat % 8 = 0 → inInst s th.inst q.2.2.toNat 8 = true →
      Does q.1 s fun s' =>
        let th' := getThr s' t.toNat
        ThreadFrame s s' t ∧ th'.pc = q.2.2 ∧ th'.retired = th.retired + 1 ∧ core th' = core th ∧
          ∀ r, gRd th' r = if r = q.2.1 ∧ r ≠ 0 then th.pc + 8 else gRd th r) ∧
    (Does (.nop t g) s fun s' =>
      let th' := getThr s' t.toNat
      ThreadFrame s s' t ∧ Advanced th th' ∧ core th' = core th ∧ th'.g = th.g) ∧
    Does (.yield t g) s fun s' =>
      let th' := getThr s' t.toNat
      ThreadFrame s s' t ∧ Advanced th th' ∧ th'.g = th.g ∧
        core th' = { core th with quantumOver := th.quantumOver || s.mbx.threads.any fun (_, u) => u.st == .ready && u.home == th.home }

/-- O17. R211, R175: EXIT of a thread without a DONE_CNT makes it FREE, and its status word, at a STATUS_ADDR that is
not 0 and lies on a stack that is not fenced, holds KIND 0, CODE 0 and VALUE the low half of g[a] + IMM32. -/
def Obligations.ExitEndsTheThread : Prop :=
  ∀ (s : State) (t : Tid) (g : Guard) (a : GReg) (imm : W32), Issues s t g →
    let th := getThr s t.toNat
    th.doneCnt = 0 →
    Does (.exit t g a imm) s fun s' =>
      (getThr s' t.toNat).st = .free ∧
        (th.statusAddr ≠ 0 → th.statusAddr.toNat + 8 ≤ 0x6000000000 → th.statusAddr.toNat % 8 = 0 →
          (getStack s (stackOf th.statusAddr.toNat)).fenced = false →
          Holds s' th.statusAddr.toNat 8 (((gRd th a).setWidth 32 + imm).toNat * 2 ^ 32))

/-- O18. R212, R182: STEP adds 1 to the thread's STEP and retires, with none of the thread's stores left in the buffer
of its core. -/
def Obligations.StepCountsAStep : Prop :=
  ∀ (s : State) (t : Tid) (g : Guard) (c : Nat), Issues s t g → coreOf (getThr s t.toNat) = some c →
    Does (.step t g) s fun s' =>
      (getThr s' t.toNat).step = (getThr s t.toNat).step + 1 ∧ Advanced (getThr s t.toNat) (getThr s' t.toNat) ∧
        (getThr s' t.toNat).g = (getThr s t.toNat).g ∧ ∀ e ∈ (getCore s' c).stores, e.tid ≠ t

/-- O19. R213: in the handler, ERET continues at EXC_PC, ERET.SKIP 8 bytes further, and ERET.TO at an aligned g[a] in
the instance's memory; IN_HANDLER becomes 0, and nothing but the thread changes. Another target of ERET.TO ends the
thread. Out of the handler each raises ILLEGAL, with EXC_INFO bits 63:32 of its word. -/
def Obligations.HandlerReturns : Prop :=
  ∀ (s : State) (t : Tid) (g : Guard) (a : GReg), Issues s t g →
    let th := getThr s t.toNat
    let ok (x : W64) := x.toNat % 8 = 0 ∧ inInst s th.inst x.toNat 8 = true
    (th.inHandler = true →
      (∀ q ∈ ([(.eret t g, th.exc.pc), (.eretSkip t g, th.exc.pc + 8), (.eretTo t g a, gRd th a)] : List (Instr × W64)),
        (q.1 = .eretTo t g a → ok q.2) →
        Does q.1 s fun s' =>
          let th' := getThr s' t.toNat
          ThreadFrame s s' t ∧ th'.pc = q.2 ∧ th'.retired = th.retired + 1 ∧ th'.g = th.g ∧
            core th' = { core th with inHandler := false }) ∧
      (¬ok (gRd th a) → Ends (.eretTo t g a) s t)) ∧
    (th.inHandler = false →
      ∀ q ∈ ([(.eret t g, 0), (.eretSkip t g, 0), (.eretTo t g a, a)] : List (Instr × GReg)),
        (th.handler ≠ 0 → Does q.1 s fun s' =>
          Entered th (getThr s' t.toNat) 0x01 0 (upperWord 0x25 g 0 q.2.toNat 0 0)) ∧
        (th.handler = 0 → Ends q.1 s t))

/-- O20. R214, R189: BREAK and TRAP raise CODE 0x07 and 0x08 with EXC_INFO the immediate: the handler is entered with
EXC_PC the instruction's own address, no register changed and no other thread, and a thread that cannot enter it
ends. -/
def Obligations.BreakAndTrapEnterTheHandler : Prop :=
  ∀ (s : State) (t : Tid) (g : Guard) (imm : W16), Issues s t g →
    ∀ q ∈ ([(.brk t g imm, 0x07), (.trap t g imm, 0x08)] : List (Instr × Byte)),
      (CanEnter (getThr s t.toNat) →
        Does q.1 s fun s' =>
          Entered (getThr s t.toNat) (getThr s' t.toNat) q.2 0 (imm.setWidth 32) ∧
            ∀ u, u ≠ t.toNat → getThr s' u = getThr s u) ∧
      (¬CanEnter (getThr s t.toNat) → Ends q.1 s t)

/-- O21. R180, R181, R215, R217: CSRR writes the value of the control register, as the tables of R180 and R217 list them,
to g[d], and 0 for a reserved one; that of c6 also latches FRAC for c7. CSRW of c3, c4, c8, c12, c17 and c49 has the effect
R174, R180, R181 and R217 give it; a read-only register discards the write, a reserved one raises ILLEGAL, and binding to
another instance's cadence ACCESS. ZARM ends at its time. Model's part: the place of ILLEGAL among the checks of a CSRW is
a reading (log entry 30). -/
def Obligations.ControlRegisters : Prop :=
  (∀ (s : State) (t : Tid) (g : Guard) (d a : GReg), Issues s t g →
    let th := getThr s t.toNat
    let v := gRd th a
    let num (n : Nat) : W64 := BitVec.ofNat 64 n
    let may (n : BitVec 6) : Prop := 48 ≤ n.toNat → th.priv = true
    (∀ q ∈ ([(0, num t.toNat), (1, num th.inst), (3, num th.prio.toNat), (4, num (th.cad.toNat + b2n th.bound * 256)),
        (5, th.lastTick), (7, num th.timeFrac.toNat), (8, num th.aflags.toNat), (9, num th.group.toNat), (10, th.step),
        (11, gstep s th.inst th.group.toNat), (12, th.handler), (13, num th.exc.code.toNat), (14, th.exc.pc),
        (15, th.exc.addr), (16, num th.exc.info.toNat), (17, th.exc.save), (18, num (opsHeld s t.toNat)),
        (19, num (instOpq s th.inst - opsUsed s th.inst)), (21, th.retired), (22, th.arg), (23, th.userTag),
        (48, num (b2n (regFld s .keep 0x018 1 1 == 1) + 2 * b2n s.img.zeroise + 4 * b2n s.keep.restoring.isSome)),
        (49, num (b2n (th.zarm.any fun u => decide (s.now < u)))),
        (50, num (th.kstat.toNat + 256 * b2n th.kdone))] : List (BitVec 6 × W64)),
      may q.1 → GWrites (.csrr t g d q.1) s t d q.2) ∧
    (∀ k, th.slot = some k → GWrites (.csrr t g d 2) s t d (num (k / 16 + k % 16 * 2 ^ 8)) ∧
      GWrites (.csrr t g d 20) s t d (num ((s.now - (getCore s (k / 16)).started) / 32))) ∧
    (∀ n : BitVec 6, (24 ≤ n.toNat ∧ n.toNat < 48) ∨ 51 ≤ n.toNat → may n → GWrites (.csrr t g d n) s t d 0) ∧
    (Does (.csrr t g d 6) s fun s' =>
      ThreadFrame s s' t ∧ Advanced th (getThr s' t.toNat) ∧
        core (getThr s' t.toNat) = { core th with timeFrac := s.time.belfry.frac } ∧
        ∀ r, gRd (getThr s' t.toNat) r = if r = d ∧ r ≠ 0 then s.time.belfry.ns else gRd th r) ∧
    (∀ q ∈ ([(3, { notePrio s.now th with prio := BitVec.ofNat 3 (min (v.toNat % 8) (instPrioMax s th.inst)) }),
        (8, { th with aflags := v.setWidth 4 }), (12, { th with handler := v &&& ~~~7 }),
        (17, { th with exc := { th.exc with save := v } }),
        (49, { th with zarm := if v = 0x5A45 then some (s.now + 40000) else none })] : List (BitVec 6 × Thread)), may q.1 →
      Does (.csrw t g a q.1) s fun s' =>
        ThreadFrame s s' t ∧ getThr s' t.toNat = { q.2 with pc := th.pc + 8, retired := th.retired + 1 }) ∧
    (∀ n ∈ ([0, 1, 2, 5, 6, 7, 9, 10, 11, 13, 14, 15, 16, 18, 19, 20, 21, 22, 23, 48, 50] : List (BitVec 6)), may n →
      Does (.csrw t g a n) s fun s' =>
        ThreadFrame s s' t ∧ getThr s' t.toNat = { th with pc := th.pc + 8, retired := th.retired + 1 }) ∧
    (v.getLsbD 8 = false → Does (.csrw t g a 4) s fun s' =>
      ThreadFrame s s' t ∧ getThr s' t.toNat =
        { th with cad := v.setWidth 8, bound := false, tickDue := none, pc := th.pc + 8, retired := th.retired + 1 }) ∧
    (v.getLsbD 8 = true → cadInst s (v.toNat % 256) = th.inst.val → Does (.csrw t g a 4) s fun s' =>
      let th' := getThr s' t.toNat
      ThreadFrame s s' t ∧ Advanced th th' ∧ th'.g = th.g ∧ th'.cad = v.setWidth 8 ∧ th'.bound = true ∧
        th'.lastTick = latestTick s (v.toNat % 256)) ∧
    (CanEnter th → v.getLsbD 8 = true → cadInst s (v.toNat % 256) ≠ th.inst.val → Does (.csrw t g a 4) s fun s' =>
      Entered th (getThr s' t.toNat) 0x04 0 4) ∧
    ∀ n : BitVec 6, (24 ≤ n.toNat ∧ n.toNat < 48) ∨ 51 ≤ n.toNat → may n → CanEnter th →
      Does (.csrw t g a n) s fun s' => Entered th (getThr s' t.toNat) 0x01 0 (upperWord 0x27 g 0 a.toNat 0 0)) ∧
  ∀ (s : State) (t : Tid) (u : Nat), (getThr s t.toNat).zarm = some u → u ≤ s.now →
    Does (.zarmExpiry t) s fun s' =>
      getThr s' t.toNat = { getThr s t.toNat with zarm := none } ∧ SameElsewhere s s' ∧
        ∀ x, x ≠ t.toNat → getThr s' x = getThr s x

/-- O22. R216, R218, R443, R460: a privileged thread of instance 0 reads BLOCK_ID of any block but a cadence's with
RDREG, and with WRREG, the first order of its cycle, sets SCHED.QUANTUM to bits 15:0; a privileged thread of another instance that
names a block not assigned to it raises ACCESS with EXC_INFO 4. -/
def Obligations.RegisterInstructions : Prop :=
  ∀ (s : State) (t : Tid) (g : Guard) (d a b : GReg), Issues s t g → (getThr s t.toNat).priv = true →
    let th := getThr s t.toNat
    let x := (gRd th a).toNat
    (∀ k : Blk, th.inst = 0 → hasHeader k = true → x < 0x4000000 → x % 0x1000 = 0 → x / 0x1000 % 4 = 0 → blkOf x = some k →
      GWrites (.rdreg t g d a) s t d (BitVec.ofNat 64 (blkId k % 2 ^ 32))) ∧
    (th.inst = 0 → x = 0x0020008 → FirstOrder s →
      Does (.wrreg t g a b) s fun s' =>
        regFld s' .sched 0x008 0 16 = (gRd th b).toNat % 2 ^ 16 ∧ Advanced th (getThr s' t.toNat) ∧
          (getThr s' t.toNat).g = th.g ∧ s'.mem = s.mem ∧ s'.op = s.op) ∧
    (th.inst ≠ 0 → x % 4 = 0 → x < 0x4000000 → (blkOf x).any (assigned (fetched s t.toNat) th.inst) = false → CanEnter th →
      ∀ c ∈ [Instr.rdreg t g d a, .wrreg t g a b],
        Does c s fun s' => Entered th (getThr s' t.toNat) 0x04 (gRd th a) 4 ∧ s'.reg = s.reg)

/-- O23. R219, R372, R373: a privileged thread of the target's instance, or of instance 0, suspends, resumes and aborts a
live thread other than itself. The first order of its cycle gives 0 and has its effect: the target SUSPENDED with its wait
kept; in the state that it held before; FREE. A suspension of a SUSPENDED target and a resumption of one that is not give
2, and so does an order that loses to another of its cycle; a target that is not live gives 1; none of these changes it.
Model's part: what resuming finds of a wait is a reading (log entry 29), and the losing order a choice (log entry 73). -/
def Obligations.TctlActsOnItsTarget : Prop :=
  ∀ (s : State) (t : Tid) (g : Guard) (d a : GReg), Issues s t g → (getThr s t.toNat).priv = true →
    let th := getThr s t.toNat
    let x := (gRd th a).toNat % 2 ^ 22
    let y := getThr s x
    (th.inst = 0 ∨ tidInInst s th.inst x = true) → x ≠ t.toNat →
    let gives (c : Instr) (n : W64) (p : State → Prop) : Prop := Does c s fun s' =>
      Advanced th (getThr s' t.toNat) ∧
        (∀ r, gRd (getThr s' t.toNat) r = if r = d ∧ r ≠ 0 then n else gRd th r) ∧ p s'
    let same (s' : State) : Prop := getThr s' x = y ∧ s'.mem = s.mem
    (live y = true → FirstOrder s →
      (y.st ≠ .suspended → gives (.tctlSuspend t g d a) 0 fun s' =>
        getThr s' x = { y with st := .suspended, prior := some (y.st, y.wait) } ∧ s'.mem = s.mem) ∧
      (y.st = .suspended → gives (.tctlSuspend t g d a) 2 same) ∧
      (y.st ≠ .suspended → gives (.tctlResume t g d a) 2 same) ∧
      (y.st = .suspended → y.restart = none → ∀ z w, y.prior = some (z, w) →
        (z ≠ .waiting → gives (.tctlResume t g d a) 0 fun s' =>
          (getThr s' x).st = (if y.slot.isSome then .hot else .ready) ∧ (getThr s' x).prior = none ∧
            (getThr s' x).pc = y.pc ∧ (getThr s' x).g = y.g ∧ s'.mem = s.mem) ∧
        (z = .waiting → w = .time → gives (.tctlResume t g d a) 0 fun s' =>
          getThr s' x = { y with st := .waiting, wait := w, prior := none } ∧ s'.mem = s.mem)) ∧
      (Does (.tctlAbort t g d a) s fun s' => (getThr s' x).st = .free) ∧
      (y.doneCnt = 0 → y.statusAddr = 0 → y.granted = false → (∀ k, coreOf y = some k → (getCore s k).stores = []) →
        gives (.tctlAbort t g d a) 0 fun s' => (getThr s' x).st = .free)) ∧
    (live y = true → ∀ q ∈ ([(.tctlSuspend t g d a, 1), (.tctlResume t g d a, 2), (.tctlAbort t g d a, 4)] : List (Instr × Nat)),
      Loses s (threadOrder s x (some th.inst) q.2 (some (t, d))) → gives q.1 2 same) ∧
    (live y = false → FirstOrder s → ∀ c ∈ [Instr.tctlSuspend t g d a, .tctlResume t g d a, .tctlAbort t g d a], gives c 1 same)

/-- O24. R142, R217, R220, R221, R471: a privileged thread of instance 0. RESTORE_FACTORY that MGMT allows while neither it
nor zeroise runs is accepted with 0, erases both user sets and is in progress; while it is in progress, accepted in an
earlier cycle, another answers 1; ZEROISE, armed, is accepted with 0 and begins: the flag of R142 and the device fence are
set and every image is gone. Without MGMT_EN each answers 2, unarmed ZEROISE 3, and both 4 while a zeroise runs. ZARM is
disarmed whatever ZEROISE answers, every answer also stands in KSTAT with DONE clear, and a refused command starts
nothing. -/
def Obligations.ManagementInstructions : Prop :=
  ∀ (s : State) (t : Tid) (g : Guard) (d : GReg), Issues s t g → (getThr s t.toNat).priv = true →
    (getThr s t.toNat).inst = 0 → FirstOrder s →
    let th := getThr s t.toNat
    let en := regFld s .keep 0x018 1 1
    let running : Bool := s.img.zeroise || s.img.zeroiseFlag
    let answers (s' : State) (n : Nat) : Prop := Advanced th (getThr s' t.toNat) ∧
      (getThr s' t.toNat).kstat.toNat = n ∧ (getThr s' t.toNat).kdone = false ∧
      ∀ r, gRd (getThr s' t.toNat) r = if r = d ∧ r ≠ 0 then BitVec.ofNat 64 n else gRd th r
    let nothing (s' : State) : Prop := s'.keep = { s.keep with restoreBy := s'.keep.restoreBy } ∧
      s'.img = { s.img with zeroiseBy := s'.img.zeroiseBy } ∧ s'.mem = s.mem ∧ s'.tile = s.tile ∧ s'.flt = s.flt
    (en = 1 → s.keep.restoring = none → running = false →
      Does (.restoreFactory t g d) s fun s' =>
        answers s' 0 ∧ s'.keep.restoring = some (epochNo s) ∧ s'.keep.restoreBy.contains t = true ∧ s'.img.userSets = []) ∧
    (en = 1 → zarmed s th = true → running = false →
      (Does (.zeroise t g d) s fun s' =>
        s'.img.zeroise = true ∧ s'.img.zeroiseFlag = true ∧ s'.img.zeroiseBy.contains t = true ∧ s'.img.images = [] ∧
          s'.flt.devFence = true) ∧
      (s.op.table = [] → s.img.load = none → s.time.launches = [] →
        Does (.zeroise t g d) s fun s' => answers s' 0 ∧ (getThr s' t.toNat).zarm = none ∧ s'.img.zeroise = true)) ∧
    (∀ n, ((s.keep.restoring.isSome = true ∧ n = 1) ∨ (s.keep.restoring = none ∧ en ≠ 1 ∧ n = 2) ∨
        (s.keep.restoring = none ∧ en = 1 ∧ running = true ∧ n = 4)) →
      Does (.restoreFactory t g d) s fun s' => answers s' n ∧ nothing s') ∧
    ∀ n, ((en ≠ 1 ∧ n = 2) ∨ (en = 1 ∧ zarmed s th = false ∧ n = 3) ∨
        (en = 1 ∧ zarmed s th = true ∧ running = true ∧ n = 4)) →
      Does (.zeroise t g d) s fun s' => answers s' n ∧ (getThr s' t.toNat).zarm = none ∧ nothing s'

/-- O25. R183, R222 to R225: an operation instruction with an entry left and a header that passes every check takes the
lowest free entry, which holds the thread, the instance, the KIND and the descriptor's address, and writes the handle to
g[d]; beyond the release that comes first, no byte of memory changes. With no entry left the try form writes 0, and the
other leaves the thread WAITING for one at the instruction. Model's part: That the lowest free entry is the
one taken is the model's choice (log entry 31), and so is the first issue number of an instance (log entry 6). -/
def Obligations.OperationsTakeAnEntry : Prop :=
  ∀ (s : State) (t : Tid) (g : Guard) (d a : GReg) (try_ : Bool), Issues s t g →
    let u := release (fetched s t.toNat) t.toNat
    let th := getThr s t.toNat
    let x := (gRd th a).toNat
    ∀ q ∈ opKinds t g d a try_,
      (opAvailable u th.inst t.toNat = true → HeaderOk u th.inst x q.2 (fun lg => lg == 0) →
        Does q.1 s fun s' => ∃ e, freeOpEntry u = some e ∧
          (let o := getOp s' e
           o.used = true ∧ o.tid = t ∧ o.inst = th.inst ∧ o.kind.toNat = q.2 ∧ o.addr.toNat = x ∧ o.started = false ∧
             o.seq = opSeqOf u th.inst ∧ o.issued = s.now ∧
             ∀ r, gRd (getThr s' t.toNat) r =
               if r = d ∧ r ≠ 0 then BitVec.ofNat 64 (e + o.seq.toNat * 2 ^ 12 + 2 ^ 63) else gRd th r) ∧
          (∀ f, f ≠ e → getOp s' f = getOp u f) ∧ Advanced th (getThr s' t.toNat) ∧ s'.mem = u.mem) ∧
      (opAvailable u th.inst t.toNat = false → Does q.1 s fun s' =>
        s'.op = u.op ∧ s'.mem = u.mem ∧
          (try_ = true → Advanced th (getThr s' t.toNat) ∧
            ∀ r, gRd (getThr s' t.toNat) r = if r = d ∧ r ≠ 0 then 0 else gRd th r) ∧
          (try_ = false → (getThr s' t.toNat).st = .waiting ∧ (getThr s' t.toNat).wait = .opEntry ∧
            (getThr s' t.toNat).pc = th.pc ∧ (getThr s' t.toNat).g = th.g))

/-- O26. R163, R164, R250, R251: ARM and ARM.G at least 8 µs before T, with room in both tables, a time that fits and a
descriptor that passes every check, leave an ARMED launch entry with that T for the operation-table entry they take, and
a refused ARM answers its reason and takes no entry; DISARM of a handle of the thread's instance more than 8 µs before T
answers 0 and leaves the entry MISSED, later it answers 1, and for a handle that names nothing 2. Model's part: The order of a group ARM's checks is a reading (log entry 69). -/
def Obligations.ArmAndDisarm : Prop :=
  ∀ (s : State) (t : Tid) (g : Guard) (d a b : GReg), Issues s t g →
    let u := release (fetched s t.toNat) t.toNat
    let th := getThr s t.toNat
    let x := (gRd th a).toNat
    let at_ := (gRd th b).toNat
    let kind := rdNat u x 1
    (∀ grp : Bool, inInst u th.inst x 64 = true → lineBad u x = false →
      HeaderOk u th.inst x kind (fun lg => (lg != 0) == grp) → kindKnown kind = true →
      kind ≠ 0xA0 → kind ≠ 0xA1 → kind ≠ 0xC0 → bit (rdNat u (x + 1) 1) 1 = false →
      (grp = false → ∀ why, armRefusal u t.toNat th.inst kind grp at_ = some why →
        Does (.arm t g d a b) s fun s' =>
          s'.op = u.op ∧ s'.time = u.time ∧ Advanced th (getThr s' t.toNat) ∧
            ∀ r, gRd (getThr s' t.toNat) r = if r = d ∧ r ≠ 0 then BitVec.ofNat 64 why.toNat else gRd th r) ∧
      (armRefusal u t.toNat th.inst kind grp at_ = none →
      (grp = true → groupFault u th.inst (rdNat u (x + 2) 2) = none) →
      Does (if grp then .armG t g d a b else .arm t g d a b) s fun s' => ∃ e i, freeOpEntry u = some e ∧
        freeLaunchEntry u = some i ∧ (getLaunch s' i).st = .armed ∧ (getLaunch s' i).t = gRd th b ∧
        (getLaunch s' i).op = e ∧ (getLaunch s' i).inst = th.inst ∧ (getOp s' e).launch = some i ∧
        (getOp s' e).grouped = grp ∧ Advanced th (getThr s' t.toNat))) ∧
    (armedBy (fetched s t.toNat) th.inst x = none → d ≠ 0 →
      Does (.disarm t g d a) s fun s' => gRd (getThr s' t.toNat) d = 2 ∧ s'.time = s.time ∧ s'.op = s.op) ∧
    ∀ i, armedBy (fetched s t.toNat) th.inst x = some i → d ≠ 0 →
      (nsNow s + 8000 < (getLaunch s i).t.toNat → Does (.disarm t g d a) s fun s' =>
        gRd (getThr s' t.toNat) d = 0 ∧ (getLaunch s' i).st = .missed ∧ (getLaunch s' i).reason = whyDisarmed ∧
          (getOp s' (getLaunch s i).op).used = false) ∧
      ((getLaunch s i).t.toNat ≤ nsNow s + 8000 → Does (.disarm t g d a) s fun s' =>
        gRd (getThr s' t.toNat) d = 1 ∧ s'.time = s.time ∧ s'.op = s.op)

/-- O27. R159, R160, R246 to R249: a wait whose condition holds returns at once with its value, and CWAIT with CAD_OFF on a
cadence that does not run; one whose condition does not hold leaves the thread WAITING with its reason and the PC as it was; a timed wait that is due returns the time, a
counter wait that finds its target returns the count, and a limit that has passed raises WAIT_LIMIT. Model's part: A
cadence's tick is counted as log entry 29 reads R159. -/
def Obligations.WaitsAndReturns : Prop :=
  (∀ (s : State) (t : Tid) (g : Guard) (d a b : GReg) (lim : W32), Issues s t g →
    let th := getThr s t.toNat
    let x := (gRd th a).toNat
    (th.bound = false → d ≠ 0 →
      Does (.cwait t g d lim) s fun s' =>
        gRd (getThr s' t.toNat) d = BitVec.ofNat 64 (2 ^ 62) ∧ Advanced th (getThr s' t.toNat)) ∧
    (∀ k, getCad s th.cad.toNat = k → th.bound = true → th.tickDue = none → d ≠ 0 →
      (th.lastOcc < k.occ → Does (.cwait t g d lim) s fun s' =>
        gRd (getThr s' t.toNat) d = BitVec.ofNat 64 (k.tick.toNat % 2 ^ 32 + min 0xFFFF (k.occ - th.lastOcc - 1) * 2 ^ 32) ∧
          (getThr s' t.toNat).lastTick = k.tick ∧ Advanced th (getThr s' t.toNat)) ∧
      (k.occ ≤ th.lastOcc → k.running = false → Does (.cwait t g d lim) s fun s' =>
        gRd (getThr s' t.toNat) d = BitVec.ofNat 64 (th.lastTick.toNat % 2 ^ 32 + 2 ^ 63) ∧ Advanced th (getThr s' t.toNat))) ∧
    (th.bound = true → th.tickDue = none → (getCad s th.cad.toNat).running = true →
      (getCad s th.cad.toNat).occ ≤ th.lastOcc →
      Does (.cwait t g d lim) s fun s' =>
        let th' := getThr s' t.toNat
        th'.st = .waiting ∧ th'.wait = .cadence ∧ th'.pc = th.pc ∧ th'.waitDest = d ∧
          th'.limitAt = if lim = 0 then none else some (s.now + lim.toNat * 40000)) ∧
    (x ≤ nsNow s → d ≠ 0 →
      Does (.waitat t g d a) s fun s' =>
        gRd (getThr s' t.toNat) d = s.time.belfry.ns ∧ Advanced th (getThr s' t.toNat)) ∧
    (nsNow s < x →
      Does (.waitat t g d a) s fun s' =>
        (getThr s' t.toNat).st = .waiting ∧ (getThr s' t.toNat).wait = .time ∧ (getThr s' t.toNat).waitArg = gRd th a ∧
          (getThr s' t.toNat).pc = th.pc) ∧
    (cntFault s t.toNat x = none →
      ((gRd th b).toNat ≤ rdNat s x 8 → d ≠ 0 →
        Does (.cntwait t g d a b lim) s fun s' =>
          gRd (getThr s' t.toNat) d = BitVec.ofNat 64 (rdNat s x 8) ∧ Advanced th (getThr s' t.toNat)) ∧
      (rdNat s x 8 < (gRd th b).toNat →
        Does (.cntwait t g d a b lim) s fun s' =>
          (getThr s' t.toNat).st = .waiting ∧ (getThr s' t.toNat).wait = .counter ∧
            (getThr s' t.toNat).waitArg = gRd th a ∧ (getThr s' t.toNat).waitVal = gRd th b))) ∧
  ∀ (s : State) (t : Tid),
    let th := getThr s t.toNat
    th.st = .waiting → th.startTick = false → th.waitDest ≠ 0 →
    (th.wait = .time → th.waitArg.toNat ≤ nsNow s →
      Does (.waitatReturn t) s fun s' =>
        gRd (getThr s' t.toNat) th.waitDest = s.time.belfry.ns ∧ Advanced th (getThr s' t.toNat)) ∧
    (th.wait = .counter → lineBad s th.waitArg.toNat = false → th.waitVal.toNat ≤ rdNat s th.waitArg.toNat 8 →
      Does (.counterPoll t) s fun s' =>
        gRd (getThr s' t.toNat) th.waitDest = BitVec.ofNat 64 (rdNat s th.waitArg.toNat 8) ∧ Advanced th (getThr s' t.toNat)) ∧
    ∀ u, th.limitAt = some u → u ≤ s.now → CanEnter th →
      ∀ q ∈ ([(.cadence, 1, 0), (.counter, 2, th.waitArg)] : List (WaitKind × W32 × W64)), th.wait = q.1 →
        Does (.waitLimit t) s fun s' => Entered th (getThr s' t.toNat) 0x0B q.2.2 q.2.1


/-- O28. R176, R192: through a page of BAR2 that it reaches, the host, with the first order of its cycle, moves TAIL of an ENABLED instance's ring, writes
RINGj.CTL with PRIV_OK kept in any instance but 0, clears STOPPED and ERR, adds to the counter at CNT_ADDR with the two
halves or at once, and ends a thread of the instance with ABORT_TID. Model's part: That the two halves of a page
register are written directly is the model's choice (log entry 27). -/
def Obligations.RingPages : Prop :=
  ∀ (s : State) (b n : Inst) (j : Fin 4) (v : W32) (w : W64), reachesPage s b n = true → FirstOrder s →
    let r := getRing s n j
    (∀ q ∈ ([(.ringEnable b n j v, { r with
          enable := v.getLsbD 0, prioMax := v.extractLsb' 1 3, log2 := v.extractLsb' 4 5
          privOk := if n = 0 then v.getLsbD 9 else r.privOk }),
        (.clrStop b n j, { r with stopped := false, err := 0 })] : List (Instr × Ring)),
      Does q.1 s fun s' => ∀ (m : Inst) (k : Fin 4), getRing s' m k = if m = n ∧ k = j then q.2 else getRing s m k) ∧
    (instEnabled s n = true →
      Does (.ringDoorbell b n j v) s fun s' =>
        ∀ (m : Inst) (k : Fin 4), getRing s' m k = if m = n ∧ k = j then { r with tail := v } else getRing s m k) ∧
    (instEnabled s n = true →
      let a := (getInst s n).cntAddr.toNat
      (Does (.cntAdd b n (.low v)) s fun s' => (getInst s' n).cntLow = some v ∧ s'.mem = s.mem) ∧
      (a % 8 = 0 → inInstStacked s n a 8 = true → lineBad s a = false →
        ∀ q ∈ ([(.full w, w), (.high v, v ++ (getInst s n).cntLow.getD 0)] : List (CntWrite × W64)),
          Does (.cntAdd b n q.1) s fun s' => Holds s' a 8 (rdNat s a 8 + q.2.toNat) ∧ SameOutside s s' a 8)) ∧
    (v.getLsbD 31 = true → tidInInst s n (v.toNat % 2 ^ 22) = true → live (getThr s (v.toNat % 2 ^ 22)) = true →
      Does (.abortTid b n v) s fun s' => (getThr s' (v.toNat % 2 ^ 22)).st = .free)

/-- O29. R177 to R179: the record at HEAD of the ring read next is taken: an accepted one makes its thread, at its entry,
with the registers of R179, READY, or under START_TICK of a running cadence waiting for its next tick; a refused one makes no
thread; HEAD advances in both. A ring in error stops with its code, its record not taken. Model's part: That the lowest free thread ID is the one
taken is the model's choice (log entry 31), and the order of two refusals (log entry 33). -/
def Obligations.LaunchRecord : Prop :=
  ∀ (s : State) (n : Inst) (j : Fin 4), nextRing s = some (n.val, j.val) →
    let r := getRing s n j
    let l := launchRec (rdBytes s (r.base.toNat + r.head.toNat % 2 ^ r.log2.toNat * 64) 64)
    (∀ err, ringError s n r = some err →
      Does (.launchRecord n j) s fun s' =>
        getRing s' n j = { r with stopped := true, err := err } ∧ s'.mbx.threads = s.mbx.threads) ∧
    (ringError s n r = none →
      (∀ code, launchRefusal s n j l = some code → l.doneCnt = 0 →
        Does (.launchRecord n j) s fun s' =>
          getRing s' n j = { r with head := r.head + 1 } ∧ s'.mbx.threads = s.mbx.threads) ∧
      (launchRefusal s n j l = none →
        let t := if bit l.flags 0 then (autoTid s n).getD 0 else l.tid
        Does (.launchRecord n j) s fun s' =>
          let th := getThr s' t
          getRing s' n j = { r with head := r.head + 1 } ∧
            (if bit l.flags 4 = true ∧ (getCad s l.cadence).running = true then
              th.st = .waiting ∧ th.wait = .cadence ∧ th.startTick = true
            else th.st = .ready ∧ th.startTick = false) ∧
            th.pc = l.entry ∧ th.inst = n ∧ gRd th 1 = l.arg ∧ gRd th 2 = BitVec.ofNat 64 t ∧ gRd th 3 = l.userTag ∧
            (∀ q : GReg, 3 < q.toNat → gRd th q = 0) ∧ (∀ q : PReg, pRd th q = decide (q = 0)) ∧ th.aflags = 0 ∧
            th.handler = 0 ∧ th.step = gstep s n l.group ∧
            (bit l.flags 2 = true → th.bound = true ∧ th.lastTick = latestTick s l.cadence) ∧
            th.priv = bit l.flags 3 ∧ th.statusAddr = l.statusAddr ∧ th.doneCnt = l.doneCnt ∧
            s'.mem = s.mem ∧ ∀ u, u ≠ t → getThr s' u = getThr s u))

/-- O30. R172, R188, R398: the first READY thread of its pool takes a free slot, or that of the victim R172 names, with
its registers; a thread that has held its slot for SCHED.QUANTUM is marked; a core fault with no bad entry leaves its
core fenced, its store buffer empty; a thread with a restart due and a checkpoint in force takes up its saved context. Model's part:
That the lowest free slot is the one taken is the model's choice (log entry 31). -/
def Obligations.Scheduling : Prop :=
  (∀ (s : State) (t : Tid) (x : Nat × Thread),
    let th := getThr s t.toNat
    th.st = .ready → leastBy servedBefore (placeable s th.home) = some x → x.1 = t.toNat →
    (∀ k, freeSlotIn s th.home th.pin = some k →
      Does (.swap t) s fun s' =>
        let th' := getThr s' t.toNat
        th'.st = .hot ∧ th'.slot = some k ∧ th'.slotSince = s.now ∧ th'.g = th.g ∧ th'.pc = th.pc ∧ s'.mem = s.mem ∧
          ∀ u, u ≠ t.toNat → getThr s' u = getThr s u) ∧
    (∀ v, freeSlotIn s th.home th.pin = none → victimIn s th.home th.prio.toNat th.pin = some v → v.1 ≠ t.toNat →
      Does (.swap t) s fun s' =>
        let th' := getThr s' t.toNat
        th'.st = .hot ∧ th'.slot = some (v.2.slot.getD 0) ∧ th'.g = th.g ∧ th'.pc = th.pc ∧ (getThr s' v.1).slot = none)) ∧
  (∀ (s : State) (t : Tid),
    let th := getThr s t.toNat
    th.st = .hot → th.slotSince + regFld s .sched 0x008 0 16 * 40000 ≤ s.now →
    Does (.quantumExpiry t) s fun s' =>
      getThr s' t.toNat = { th with quantumOver := true } ∧ ∀ u, u ≠ t.toNat → getThr s' u = getThr s u) ∧
  (∀ (s : State) (c : Fin 256), unitFenced s (unitOf 4 c) = false → windowHit s (unitOf 4 c) = none →
    Does (.coreFault c []) s fun s' => (getCore s' c).fenced = true ∧ (getCore s' c).stores = []) ∧
  ∀ (s : State) (t : Tid) (code : Byte) (l : List Byte),
    let th := getThr s t.toNat
    th.restart = some code → checkpoint s t.toNat = some l → laterOps s t.toNat = [] → th.slot = none →
    Does (.threadRestart t) s fun s' =>
      let th' := getThr s' t.toNat
      let h := ctx64 l 0x238
      th'.st = .ready ∧ th'.restart = none ∧ th'.step = ctx64 l 0x230 ∧
        (∀ r : GReg, gRd th' r = if r = 0 then 0 else ctx64 l (8 * r.toNat)) ∧
        th'.pc = (if h = 0 then ctx64 l 0x200 else h) ∧ (h ≠ 0 → th'.exc.code = code ∧ th'.inHandler = true)

/-- O31. R226, R227: a collective that passes every check at its start while no collective engine is free starts and
waits for one, its number in its group one higher; a wait for a counter that has lasted 2^30 ns ends with WAIT_EXPIRED;
a completed operation leaves its entry free, and its status holds its result. Model's part: The numbering of collectives
in a group (log entry 68) and the start of the 2^30 ns (log entry 70) are the model's choice. -/
def Obligations.OperationLife : Prop :=
  (∀ (s : State) (e : OpIx),
    let o := getOp s e
    let k := o.inst.val * 65536 + (collWork (opBody s e) o.kind.toNat).group.toNat
    o.used = true → o.started = false → o.launch = none → o.result = none → o.flags.toNat < 2 →
    s.now < o.issued + 2 ^ 30 * 40 → s.flt.devFence = false →
    (o.body ≠ [] ∨ rangeBad s o.addr.toNat 128 = false) → 0xE0 ≤ o.kind.toNat → freeColl s = none →
    (∀ g, groupRec s o.inst (collWork (opBody s e) o.kind.toNat).group.toNat = some g →
      collFault s o.inst (opBody s e) { collWork (opBody s e) o.kind.toNat with
        members := g.members, rank := g.rank, coord := g.coord, listCrc := g.crc } (some g) = none) →
    (groupRec s o.inst (collWork (opBody s e) o.kind.toNat).group.toNat).isSome = true →
    Does (.operationStart e) s fun s' =>
      (getOp s' e).started = true ∧ (getOp s' e).result = none ∧ (collOf s' e).any (·.engine.isNone) = true ∧
        tabGet 0 s'.op.collSeq k = tabGet 0 s.op.collSeq k + 1 ∧ s'.mem = s.mem) ∧
  (∀ (s : State) (e : OpIx),
    let o := getOp s e
    o.used = true → o.started = false → o.launch = none → o.result = none → o.issued + 2 ^ 30 * 40 ≤ s.now →
    Does (.waitExpired e) s fun s' =>
      getOp s' e = { o with result := some 0x0F, detail := 0xFFFF } ∧ ∀ f, f ≠ e.val → getOp s' f = getOp s f) ∧
  ∀ (s : State) (e : OpIx) (r : Byte),
    let o := getOp s e
    o.used = true → o.result = some r → (o.grouped = true → o.outcome.isSome = true) → opBusy s e = false →
    Does (.operationComplete e) s fun s' =>
      (getOp s' e).used = false ∧
        ((∀ w, o.work ≠ .xfer w) → waitingColls s = [] → o.statusAddr ≠ 0 → o.doneCnt = 0 →
          o.statusAddr.toNat + 16 ≤ stackedEnd → o.statusAddr.toNat % 16 = 0 →
          (getStack s (stackOf o.statusAddr.toNat)).fenced = false →
          cellGet s'.mem.cells o.statusAddr.toNat = r ∧ ∀ k, k < 4 →
            cellGet s'.mem.cells (o.statusAddr.toNat + 4 + k) = BitVec.ofNat 8 (o.tag.toNat / 256 ^ k))

/-- O32. R80, R81, R86, R234: the oldest position write for a free position fills it with its 512 codes, scale, vector
and uses; a seed whose vector has no other scale recorded waits in its tile. -/
def Obligations.PositionsAndSeeds : Prop :=
  (∀ (s : State) (t : TileId) (p : Fin 64) (w : PosWrite),
    firstOf (fun w : PosWrite => physTile s w.tile == tileNo t && w.pos == p.val) s.op.posQueue = some w →
    tabHas (getTile s (tileNo t)).positions p = false →
    Does (.positionWrite t p) s fun s' =>
      tabGet {} (getTile s' (tileNo t)).positions p = { data := w.data, scale := w.scale, vec := w.vec, uses := w.uses } ∧
        s'.op.posQueue.length + 1 = s.op.posQueue.length ∧ s'.mem = s.mem ∧
        ∀ q, q ≠ tileNo t → getTile s' q = getTile s q) ∧
  ∀ (s : State) (t : TileId) (m : SeedMsg) (w : PassWork),
    firstOf (fun m : SeedMsg => physTile s m.tile == tileNo t) s.op.seeds = some m → passOf s m.op = some w →
    let x := getTile s (tileNo t)
    (∀ c, recordedScale x m.op ((w.acc + m.vec / w.vb) % 2) (m.vec % w.vb) (m.vec / w.vb) = some c → c = m.scale) →
    Does (.seed t) s fun s' =>
      getTile s' (tileNo t) = { x with seeds := x.seeds ++ [m] } ∧ s'.op.seeds.length + 1 = s.op.seeds.length ∧
        s'.op.table = s.op.table

/-- O33. R64, R81, R98, R485: a pass boundary that is due in a powered tile, whose Lantern write port has nothing to grant
(R112), counts one boundary, frees the positions
without a use, sets the next boundary at least I_T later, and admits a waiting pass that R81 to R105 allow on its
serving array: the position has one use fewer, and the flight holds the vector's codes and one due time. Model's part:
The instant of the boundary and the order in which requests are scanned are the model's choice (log entries 54, 55). -/
def Obligations.PassBoundaryAdmits : Prop :=
  ∀ (s : State) (t : TileId),
    let p := tileNo t
    let x := getTile s p
    tilePowered s p = true → x.nextB ≤ s.now / 32 * 32 → x.rewrites = [] → x.flight = [] → x.exactQ = [] → x.recompQ = [] →
    x.exactBusy = none → x.fullQ = false → servePort s p = s → s.reg.vals.pend = [] →
    (x.todo = [] →
      Does (.passBoundary t) s fun s' =>
        (getTile s' p).boundary = x.boundary + 1 ∧ (getTile s' p).flight = [] ∧
          (getTile s' p).nextB = s.now / 32 * 32 + intervalOf s p * 32 ∧
          (∀ q ∈ (getTile s' p).positions, q.2.uses ≠ 0 ∨ q.2.held ≠ 0) ∧ s'.mem = s.mem ∧ s'.op.table = s.op.table) ∧
    ∀ (q : PassReq) (a : Nat) (w : PassWork), x.todo = [q] → q.exact = false → q.variant = 0 → q.reps = 1 →
      passOf s q.op = some w → admitTest s p q = .go → servingArr x q.array = some a → tileOpen s p = true →
      Does (.passBoundary t) s fun s' =>
        (getTile s' p).boundary = x.boundary + 1 ∧ (getTile s' p).todo = [] ∧
          (tabGet {} (getTile s' p).positions q.pos).uses + 1 = (tabGet {} x.positions q.pos).uses ∧
          ∃ f, (getTile s' p).flight = [f] ∧ f.req = q ∧ f.phys = some a ∧ f.data = (tabGet {} x.positions q.pos).data ∧
            f.scale = (tabGet {} x.positions q.pos).scale ∧ f.due.length = 1 ∧ ∀ d ∈ f.due, s.now / 32 * 32 + 11200 ≤ d

/-- O34. R67, R68, R82, R85, R87, R90, R113: the last conversions of a pass that passes its checks end its flight, and its
sums, each element rounded as stages 1 to 7 say, stand in its slot; those of a pass that fails a check end it too, and its
operation counts a substitution; an exact pass whose segments are over and whose image can be read leaves the reference
result of R51 in its slot. Memory differs at most in image slots that nothing uses any more (R137). Model's part: The code of a conversion that the command does not list is the model's choice (log
entry 53). -/
def Obligations.PassResultsReachTheirSlots : Prop :=
  (∀ (s : State) (t : TileId) (a : Fin 64) (codes : List (Nat × BitVec 12)) (f : Flight),
    let p := tileNo t
    let k := f.phys.getD 0
    let g := gatherRepeat s p f k codes
    firstOf (dueFor s.now a) (getTile s p).flight = some f → Quiet (getTile s p) → OneStep s p f.req →
    f.got + 1 = f.req.reps → (∀ e ∈ f.entries, residueOk e = true) → f.bad = false →
    (f.fail = false → g.2.mask = 0 → Does (.passResult t a codes) s fun s' =>
      (getTile s' p).flight.length + 1 = (getTile s p).flight.length ∧
        SumsInSlot s' p f.req (fvVals (lanternRow f (flightImage s p f).2.2 (meanRow f.req.reps g.1.ysum))) ∧
        ∀ x, (∀ i ∈ s.img.images, x < i.2.base ∨ i.2.base + i.2.size ≤ x) →
          cellGet s'.mem.cells x = cellGet s.mem.cells x) ∧
    (g.2.mask ≠ 0 → Does (.passResult t a codes) s fun s' =>
      (getTile s' p).flight.length + 1 = (getTile s p).flight.length ∧ (getOp s' f.req.op).subst = true)) ∧
  ∀ (s : State) (t : TileId) (x : ExactReq),
    let p := tileNo t
    let q := x.flight.req
    let h := x.home.getD p
    let i := flightImage s h x.flight
    (getTile s p).exactBusy = some x → (getTile s p).exactQ = [] → (getTile s p).recompQ = [] → sharedPasses s p = [] →
    x.for_ ≠ .recompute → exactOver s.now x = true → OneStep s h q → (∀ e ∈ x.flight.entries, residueOk e = true) →
    imageReadable s i.1 i.2.1 q.array = true → x.flight.bad = false →
    Does (.exactPassDone t) s fun s' =>
      (getTile s' p).exactBusy = none ∧ SumsInSlot s' h q (fvVals (exactResult s h x.flight))

/-- O35. R87, R88, R233, R335: a block whose drain ends loses the fill that drained, and with no other fill is free; its
operation has one drain fewer to come; memory is the same where no row goes to it, and with one row is what the converted
row leaves. A residual that cannot be read fails the operation with MEM_ERR, and no memory changes. -/
def Obligations.BlockDrainFreesTheBlock : Prop :=
  ∀ (s : State) (t : TileId) (b : Fin 2) (e n : Nat) (w : PassWork) (x : Fill),
    let p := tileNo t
    let k := getBlock (getTile s p) b
    let rows := drainRows w n x
    drainingFill k = some x → x.op = some e → logTile s p = some n → passOf s e = some w →
    (resReadable s w rows = true → Does (.blockDrainEnd t b) s fun s' =>
      (getBlock (getTile s' p) b).fills = k.fills.filter (fun y => !(y.op == some e && y.draining)) ∧
        (k.fills = [x] → tabHas (getTile s' p).blocks b = false) ∧
        ((passOf s' e).any fun y => y.drainsLeft == w.drainsLeft - 1) = true ∧
        (w.drain.mem = false → w.drain.kv = false → s'.mem = s.mem) ∧
        ∀ v o m, w.drain.mem = true → w.drain.kv = false → w.drain.fmt ≠ 4 → rows = [(v, o, m)] →
          s'.mem = (wrBytes s (getOp s e).inst (w.drain.dst.toNat + v * w.drain.dstStride + o * 512 * outSize w.drain.fmt)
            (elemBytes (outSize w.drain.fmt) (convertRow w.drain.fmt (fvVals (drainRow s w k x n o v m))).1)).mem) ∧
    (resReadable s w rows = false → (getOp s e).result = none → Does (.blockDrainEnd t b) s fun s' =>
      (getOp s' e).result = some 0x0B ∧ s'.mem = s.mem)

/-- O36. R233, R234, R263: once every element of a vector is known, quantise makes one position write for each
position item, with the scale of R233, and writes the scale of FP4 output to memory; a page whose seal is due, with no key
write left to come, and that can be read has DVALID set. -/
def Obligations.QuantiseAndSeal : Prop :=
  (∀ (s : State) (e : OpIx) (v : Fin 32) (w : PassWork),
    let ns := nblocksOf w.items
    let rows := ns.map fun n => tabGet [] w.y (v.val * 65536 + n)
    let q := quantise rows w.drain.rms w.drain.eps
    let a := w.drain.scaleOut.toNat + 4 * v.val
    passOf s e = some w → needsQuant w = true → v.val < w.vectors →
    (∀ n ∈ ns, tabHas w.y (v.val * 65536 + n) = true) → w.quantised.contains v.val = false → (getOp s e).result = none →
    Does (.quantiseRendezvous e v) s fun s' =>
      ((passOf s' e).any fun x => x.quantised.contains v.val) = true ∧
        (w.drain.pos = true → s'.op.posQueue.length = s.op.posQueue.length + w.drain.posItems.length ∧
          s'.op.posQueue.take s.op.posQueue.length = s.op.posQueue ∧
          ∀ x ∈ s'.op.posQueue.drop s.op.posQueue.length, x.op = e.val ∧ x.vec = v.val ∧ x.scale = q.2.2.1) ∧
        (w.drain.pos = false → s'.op.posQueue = s.op.posQueue) ∧
        ((w.drain.mem && w.drain.fmt == 4) = false → s'.mem = s.mem) ∧
        ((w.drain.mem && w.drain.fmt == 4) = true → a % 4 = 0 → a + 4 ≤ stackedEnd →
          (getStack s (stackOf a)).fenced = false → Holds s' a 4 q.2.1.toNat)) ∧
  ∀ (s : State) (e : OpIx) (x : SealDue),
    let r := seqRec s x.seq.toNat
    let a := entAddr r x.entry
    firstOf (fun x : SealDue => x.op == e.val) s.op.seals = some x → keysLeft s e = false →
    rangeBad s ((rdEnt s a).frame * 0x8000) (pageTokens r.kvheads r.hdim * tokenBytes r.kvheads r.hdim) = false → a % 8 = 0 → a + 8 ≤ stackedEnd →
    (getStack s (stackOf a)).fenced = false →
    Does (.seal e) s fun s' => bit (rdNat s' a 8) 50 = true ∧ s'.op.seals.length + 1 = s.op.seals.length

/-- O37. R94, R97, R102 to R107, R112, R381: a set load whose entries the write port has taken commits in a tile as RESIDENT
when every entry of the run has a slot and as PARTIAL when not, and counts the entries placed and spilled; one whose
entries cannot be written fails; a release leaves the variant ABSENT and no slot with an entry of it; the recompute of a
pass that matches frees the exact unit and gives back the use it kept. Model's part: Which counters an eviction and a spill
raise (log entry 36) and what the port takes of a load (log entry 59) are the model's choice. -/
def Obligations.LanternAndRecompute : Prop :=
  (∀ (s : State) (t : TileId) (e : OpIx) (w : LtnWork) (n : Nat),
    let p := tileNo t
    let o := getOp s e
    logTile s p = some n → o.work = .ltn w → o.started = true → o.result = none → w.left.contains n = true →
    ltnEarlier s e n = false → 0 < w.variant →
    (w.load = true → ∀ why, writeFault (servePort s p) w n (tileInt2 s n) = some why →
      Does (.ltnCommit t e) s fun s' =>
        (getOp s' e).result = some why ∧ (getOp s' e).detail = BitVec.ofNat 16 n ∧ s'.mem = s.mem) ∧
    (w.load = true → writeFault (servePort s p) w n (tileInt2 s n) = none → portTook (getTile (servePort s p) p) e = true →
      Does (.ltnCommit t e) s fun s' => ∃ placed spilled, placed + spilled = (dirOf w n).2 ∧
        (varOf (getTile s' p) w.variant).res = (if spilled = 0 then 1 else 2) ∧ (getOp s' e).countA = o.countA + placed ∧
          (getOp s' e).countB = o.countB + spilled ∧ (varOf (getTile s' p) w.variant).entryBase = w.entryBase) ∧
    (w.load = false → tileUsesVar s p w.variant = false →
      Does (.ltnCommit t e) s fun s' =>
        (varOf (getTile s' p) w.variant).res = 0 ∧ (∀ x ∈ (getTile s' p).ltn, holdsVariant w.variant x.2 = false) ∧
          ((w.left.filter fun x => x != n) = [] → (getOp s' e).result = some 0))) ∧
  ∀ (s : State) (t : TileId) (x : ExactReq),
    let p := tileNo t
    let i := flightImage s p x.flight
    (getTile s p).exactBusy = some x → (getTile s p).exactQ = [] → (getTile s p).recompQ = [] → sharedPasses s p = [] →
    x.for_ = .recompute → exactOver s.now x = true → imageReadable s i.1 i.2.1 x.flight.req.array = true → x.flight.mism = false →
    tabHas (getTile s p).positions x.flight.req.pos = true →
    Does (.recomputeDone t) s fun s' =>
      (getTile s' p).exactBusy = none ∧ s'.op.table = s.op.table ∧
        (tabGet {} (getTile s' p).positions x.flight.req.pos).held + 1 =
          max 1 (tabGet {} (getTile s p).positions x.flight.req.pos).held

/-- O38. R268 to R272, R284 to R290, R298: the next block of a row of an ATTN is attended and leaves the row's list, and
the last one ends the row, as does a page that is lost, with its reason; a lane takes the next unit of a SAMPLE and
counts its rows, and advances the CTR of a request of KIND SAMPLE by 1; the first compaction is made, and LEN of its sequence is the accepted length. Model's part: The order of the
checks is the model's choice (log entries 51, 52). -/
def Obligations.AttentionAndSampling : Prop :=
  (∀ (s : State) (e : OpIx) (i : Fin 1024) (w : AttnWork) (r : AttnRow) (b : Nat) (rest : List Nat),
    let o := getOp s e
    let n := min (attnT w) (r.len - b * attnT w)
    o.work = .attn w → o.result = none → w.rows[i.val]? = some r → r.done = false → r.left = b :: rest →
    blockBad s w i r b = false →
    ∀ eng d, blockEngine s w (pageOf s e w r b) b = some eng →
      let x := leastXfer s (stationXfers eng)
      let page := readPage s e i w (pageOf s e w r b) (x.getD 0) b (n * w.kvheads * w.hdim) d
      (mustFetch (pageOf s e w r b) eng = true → x.isSome = true) →
      (∀ pg u, page = .data pg u →
        Does (.attnBlock e ⟨i, d⟩) s fun s' => ∃ w' r', (getOp s' e).work = .attn w' ∧ w'.rows[i.val]? = some r' ∧
          r'.left = rest ∧ r'.done = rest.isEmpty ∧ w'.attended = w.attended + n ∧ r'.lost = r.lost ∧
          (rest ≠ [] → s'.mem = s.mem)) ∧
      ∀ why u, page = .lost why u →
        Does (.attnBlock e ⟨i, d⟩) s fun s' => ∃ w' r', (getOp s' e).work = .attn w' ∧ w'.rows[i.val]? = some r' ∧
          r'.left = [] ∧ r'.done = true ∧ r'.lost = some why) ∧
  (∀ (s : State) (e : OpIx) (lane : Fin 4) (w : SampleWork) (u : SampleUnit),
    let o := getOp s e
    let a := u.recAddr.toNat
    let q := sampleReq s a
    o.work = .sample w → o.result = none → firstOf (fun u : SampleUnit => u.lane == lane.val) w.left = some u →
    laneTaken s e lane = false → s.op.samplerFenced = false → unitBad s w u = false →
    Does (.sampleRow e lane) s fun s' =>
      (q.kind ≠ 2 → (getOp s' e).countA = o.countA + 1 ∧
        (w.left.length = 1 → w.copies = [] → (getOp s' e).result = some 0)) ∧
      (q.kind = 2 → o.countA < (getOp s' e).countA) ∧
      (q.kind = 0 → a % 64 = 0 → a + 64 ≤ stackedEnd → (q.update = false ∨ q.counts = 0) →
        (w.out.toNat + 64 * u.row + 64 ≤ a + 8 ∨ a + 16 ≤ w.out.toNat + 64 * u.row) →
        Holds s' (a + 8) 8 (q.ctr + 1))) ∧
  ∀ (s : State) (e : OpIx) (w : SampleWork) (c : Compaction) (rest : List Compaction),
    let o := getOp s e
    let a := c.seq.toNat + 0x10
    o.work = .sample w → o.result = none → w.copies = c :: rest → compactBad s c = false →
    a % 8 = 0 → a + 8 ≤ stackedEnd → (getStack s (stackOf a)).fenced = false →
    Does (.compactionCopy e) s fun s' =>
      Holds s' a 8 (c.base + c.path.length + 1) ∧ (w.left = [] → rest = [] → (getOp s' e).result = some 0)

/-- O39. R338 to R340, R389: a burst of a COPY within stacked memory copies its bytes; the last one ends the operation
with OK and COUNT_A its length. An engine that fails outside a window is fenced and holds nothing. Model's part: The
instants at which bursts count are the model's choice (log entry 67). -/
def Obligations.Transfers : Prop :=
  (∀ (s : State) (x : Fin 32) (d : BurstIn) (e : Nat) (w : XferWork),
    let o := getOp s e
    let n := burstLen w
    let a := w.src.toNat + w.rd
    let b := w.dst.toNat + w.rd
    (getXfer s x).op = some e → xferOf s e = some w → w.kind = .copy → w.srcDev.toNat = ownDev s → w.dstDev.toNat = ownDev s →
    w.asg = some x.val → w.posLeft = 0 → w.notify = none → w.prog ≤ w.rd → unackedOf s e = [] →
    0 < n → w.rd + n ≤ w.total → w.rd + n ≤ w.prog + 0x40000 → inInst s o.inst a n = true → inInst s o.inst b n = true →
    isStacked a = true → isStacked b = true → rangeBad s a n = false →
    Does (.burstDone x d) s fun s' =>
      s'.mem = (wrStacked s b (rdBytes s a n)).mem ∧
        (w.rd + n = w.total → (getOp s' e).result = some 0 ∧ (getOp s' e).countA = w.total) ∧
        (w.rd + n < w.total → (getOp s' e).result = none)) ∧
  ∀ (s : State) (x : Fin 32), (getXfer s x).fenced = false → windowHit s (unitOf 6 x) = none →
    Does (.transferEngineFault x) s fun s' =>
      (getXfer s' x).fenced = true ∧ (getXfer s' x).op = none ∧ (getXfer s' x).gen = (getXfer s x).gen + 1

/-- O40. R310, R313, R315: a WRITE and an ATOMIC take effect once, a repeated WRITE changes no memory, and READ and
ATOMIC are answered with the bytes read; one whose address the slice does not reach changes no memory and is answered
with a NAK that gives the reason; an ACK takes the copies that it covers, the last of them ends a COPY that has
read everything; a NAK fails its operation with PEER_REFUSED; data reaches the transfer that asked for it. Model's part:
The SEQ and ADDR of an answer (log entry 61) and what a NAK says of an operation (log entry 68) are the model's
choice. -/
def Obligations.MemoryFrames : Prop :=
  ∀ (s : State) (l : Link) (f : Frame), Arrives s l f →
    let q := seqPlace (getRx s f.src f.cls) f.seq
    (∀ i a, reachOf s f.slice.toNat f.addr.toNat f.payload.length = .at_ i a → f.payload ≠ [] →
      (q = .fresh → Does (.write l f) s fun s' =>
        (isStacked a = true → s'.mem = (wrStacked s a f.payload).mem) ∧ (isStacked a = false → s'.mem = s.mem) ∧
          getRx s' f.src f.cls = markRx (getRx s f.src f.cls) f.seq) ∧
      (q = .old → Does (.write l f) s fun s' => s'.mem = s.mem ∧ s'.fab.rx = s.fab.rx)) ∧
    (∀ i a, let n := ofBytes (f.payload.take 4)
      reachOf s f.slice.toNat f.addr.toNat n = .at_ i a → 0 < n → n ≤ 1024 → rangeBad s a n = false → q ≠ .far →
      Does (.read l f) s fun s' => s'.mem = s.mem ∧
        ∃ x ∈ s'.fab.tx, x.frame.typ = 0x0A ∧ x.frame.dst = f.src ∧ x.frame.seq = f.seq ∧ x.frame.payload = rdBytes s a n) ∧
    (∀ i a (m : AtomicMsg), let old := BitVec.ofNat 64 (rdNat s a 8)
      reachOf s f.slice.toNat f.addr.toNat 8 = .at_ i a → a % 8 = 0 → isStacked a = true → m.aop.toNat ≤ 9 → lineBad s a = false →
      q = .fresh →
      Does (.atomic l f m) s fun s' =>
        s'.mem = (wrStacked s a (toBytes (atomicNew m.aop.toNat old m.operand m.compare).toNat 8)).mem ∧
          ∃ x ∈ s'.fab.tx, x.frame.typ = 0x0B ∧ x.frame.dst = f.src ∧ x.frame.payload = toBytes old.toNat 8) ∧
    (∀ why (m : AtomicMsg), q ≠ .far →
      ∀ x ∈ ([(.write l f, f.payload.length), (.read l f, ofBytes (f.payload.take 4)), (.atomic l f m, 8)] : List (Instr × Nat)),
        0 < x.2 → x.2 ≤ 1024 → reachOf s f.slice.toNat f.addr.toNat x.2 = .nak why →
        Does x.1 s fun s' => s'.mem = s.mem ∧ ∃ y ∈ s'.fab.tx, y.frame.typ = 0x09 ∧ y.frame.dst = f.src ∧
          y.frame.payload = toBytes f.seq.toNat 4 ++ [why]) ∧
    (∀ (m : AckMsg) (c : TxCopy) (e : Nat) (w : XferWork), s.fab.unacked = [c] → ackCovers f.src m c = true → c.op = some e →
      xferOf s e = some w → w.kind = .copy → w.rd = w.total → w.asg.isSome = true → w.posLeft = 0 → w.notify = none →
      Does (.ack l f m) s fun s' => unackedOf s' e = [] ∧ (getOp s' e).result = some 0) ∧
    (∀ (m : NakMsg) (c : TxCopy) (e : Nat),
      firstOf (fun c : TxCopy => c.dst == f.src && c.frame.cls == m.cls && c.frame.seq == m.seq) s.fab.unacked = some c →
      c.op = some e → (getOp s e).result = none → (∀ w, (getOp s e).work ≠ .coll w) →
      Does (.nak l f m) s fun s' => (getOp s' e).result = some 0x0D ∧ (getOp s' e).detail = f.src) ∧
    (∀ (c : TxCopy) (e : Nat) (w : XferWork),
      firstOf (fun c : TxCopy => c.dst == f.src && c.frame.typ == 0x02 && c.frame.seq == f.seq) s.fab.unacked = some c →
      c.op = some e → (∀ x, c.tag = some x → tagLive s x = true) → xferOf s e = some w → w.kind ≠ .pages →
      Does (.readData l f) s fun s' =>
        s'.mem = s.mem ∧ xferOf s' e = some { w with got := tabPut w.got (gotKey f.src.toNat c.frame.addr.toNat) f.payload }) ∧
    ∀ (c : TxCopy) (e : Nat) (w : XferWork), s.fab.unacked = [c] → c.dst = f.src → c.frame.typ = 0x03 → c.frame.seq = f.seq →
      c.op = some e → xferOf s e = some w → w.kind = .pages → w.rd = w.total → w.ents = w.len → w.asg.isSome = true →
      w.posLeft = 0 → w.notify.isSome = true → w.notifySent = true →
      Does (.atomicData l f) s fun s' => unackedOf s' e = [] ∧ (getOp s' e).result = some 0

/-- O41. R324, R326: a pull for a collective in its phase is answered with its bytes and counted, and one that is early
is kept; data that folds nothing goes to its place; a rank that arrives is marked, and the last one releases the
barrier; RELEASE ends a member's barrier with OK; ABORT, and the timeout of one with a pull unanswered, end with
MEMBER_LOST, and no byte of memory outside DST differs. Model's part: The numbering of collectives in a group, the pull's
name in its data, which pulls count as unanswered and MEMBER_LOST are the model's choice (log entries 61, 68). -/
def Obligations.CollectiveFrames : Prop :=
  (∀ (s : State) (l : Link) (f : Frame) (m : CollMsg), Arrives s l f → collOpen s f = true →
    seqPlace (getRx s f.src f.cls) f.seq = .fresh →
    (findColl s f.slice.toNat m = none → collOver s f.slice.toNat m = false → s.op.earlyColl.length < 65536 →
      s.op.earlyColl.contains (earlyOf 0 f m) = false →
      Does (.collPull l f m) s fun s' => s'.op.earlyColl = s.op.earlyColl ++ [earlyOf 0 f m] ∧ s'.mem = s.mem) ∧
    ∀ e w, findColl s f.slice.toNat m = some (e, w) →
      (let n := min (min 1024 m.len) ((collBlock w m.block).2 * collEs w - f.addr.toNat)
       let a := serveAddr w m.phase m.block f.addr.toNat
       m.listCrc = w.listCrc → canServe w m = true → w.kind ≠ .bar → pullsOut s e ≠ [] → rangeBad s a n = false →
        Does (.collPull l f m) s fun s' => collOf s' e = some { w with served := w.served + 1 } ∧
          ∃ x ∈ s'.fab.tx, x.frame.typ = 0x11 ∧ x.frame.payload = rdBytes s a n) ∧
      (w.kind = .bar → m.listCrc = w.listCrc → w.engine.isSome = true → w.arrived.contains m.rank = false → w.released = false →
        (w.arrived.length + 1 ≠ collN w →
          Does (.arrive l f m) s fun s' => collOf s' e = some { w with arrived := m.rank :: w.arrived }) ∧
        (w.arrived.length + 1 = collN w → 2 ≤ collN w →
          Does (.arrive l f m) s fun s' => ∃ w', collOf s' e = some w' ∧ w'.released = true)) ∧
      (w.kind = .bar → unackedOf s e = [] → w.engine.isSome = true → waitingColls s = [] →
        Does (.release l f m) s fun s' => (getOp s' e).result = some 0) ∧
      (waitingColls s = [] →
        Does (.abort l f m) s fun s' =>
          (getOp s' e).result = some 0x16 ∧ (getOp s' e).countB = (getOp s e).countB + m.missing ∧
            SameOutside s s' w.dst.toNat ((collSizes w).2 * collEs w))) ∧
  (∀ (s : State) (l : Link) (f : Frame) (c : TxCopy) (e : Nat) (w : CollWork), Arrives s l f → collOpen s f = true →
    let hit := fun c : TxCopy => c.frame.typ == 0x10 && c.dst == f.src && c.frame.seq.toNat == f.addr.toNat % 2 ^ 32
    let a := landAddr w (rankOf w f.src) c.frame.addr.toNat
    seqPlace (getRx s f.src f.cls) f.seq = .fresh → firstOf hit s.fab.unacked = some c → c.op = some e →
    collOf s e = some w → collFolds w = false → w.kind ≠ .bar → collPulls w ≤ w.nextPull → isStacked a = true →
    (∃ x ∈ pullsOut s e, hit x = false) →
    Does (.collData l f) s fun s' => s'.mem = (wrStacked s a f.payload).mem ∧ collOf s' e = some w) ∧
  ∀ (s : State) (e : OpIx) (w : CollWork), collOf s e = some w → w.timedAt = none →
    w.startAt + 2 ^ regFld s .fab 0x018 0 6 * 40 ≤ s.now → pullUnanswered s e w = true → waitingColls s = [] →
    Does (.collTimeout e) s fun s' =>
      (getOp s' e).result = some 0x16 ∧ (getOp s' e).countB = (getOp s e).countB + missingOf s e w ∧
        SameOutside s s' w.dst.toNat ((collSizes w).2 * collEs w)

/-- O42. R149, R312, R313, R315, R319, R321: time messages set HOPS and the grandmaster and measure FABRIC, a delay request is
answered and a delay answer gives the link delay; a grandmaster sends its messages each 1 ms; credits are added and
bring a link to ACTIVE, XOFF pauses its class alone; a frame not acknowledged in time is sent again, and after 8 tries,
or when no path has come, its operation, if no collective and no ATTN, fails with PEER_LOST, and with PEER_REFUSED when its
instance may reach the destination no more. Model's part: The credits that a frame costs, the first
sequence number (log entry 60) and the relayed delay (log entry 65) are the model's choice. -/
def Obligations.TimeAndFlowFrames : Prop :=
  (∀ (s : State) (l : Link) (f : Frame), linkActive s l = true → f.fcsOk = true → f.version = 1 → f.reservedSet = false →
    (∀ m, l.val = regFld s .belfry 0x01C 8 6 → f.sync = syncOn s l →
      Does (.time l f m) s fun s' =>
        s'.time.belfry.hops = m.hops + 1 ∧ s'.time.belfry.gm = m.gm ∧ s'.time.belfry.fab.lastSeen = some s.now ∧
          (s.time.belfry.source = some .fabric → refPri s .fabric ≠ 0 →
            s'.time.belfry.phaseErr = BitVec.ofInt 32 (fabricTime s l m - localTime s 0))) ∧
    (∀ t1, Does (.delayReq l f t1) s fun s' => ∃ x ∈ s'.fab.tx, x.via = some l ∧ x.frame.typ = 0x1A ∧
      x.frame.payload = toBytes t1.toNat 8 ++ toBytes (timeFx s) 10 ++ toBytes (timeFx s) 10) ∧
    ∀ rt, Does (.delayResp l f rt) s fun s' => tabGet 0 s'.time.belfry.linkDelay l = rt.toNat / 2) ∧
  (∀ (s : State), regFld s .belfry 0x01C 6 1 = 1 → s.time.belfry.sentAt + 40000000 ≤ s.now →
    Does .timeMessageSend s fun s' =>
      s'.time.belfry.sentAt = s.now ∧ s'.time.belfry.timeSeq = s.time.belfry.timeSeq + 1 ∧
        ∀ l ∈ relayLinks s, ∃ x ∈ s'.fab.tx, x.via.map (·.val) = some l ∧ x.frame.typ = 0x18 ∧ x.frame.sync = syncOn s l) ∧
  (∀ (s : State), relayLinks s ≠ [] → s.time.belfry.exchangedAt + 40000000 ≤ s.now →
    Does .delayExchange s fun s' =>
      s'.time.belfry.exchangedAt = s.now ∧ ∀ l ∈ relayLinks s, ∃ x ∈ s'.fab.tx, x.via.map (·.val) = some l ∧ x.frame.typ = 0x19) ∧
  (∀ (s : State) (l : Link) (p : Fin 8) (n : BitVec 12), isPlane s l = false → (∀ x ∈ s.fab.tx, x.link.isSome = true) →
    let k := getLink s l
    let c := tabPut k.credits p (tabGet 0 k.credits p + n.toNat)
    (k.st = .active → Does (.credit l p n) s fun s' => getLink s' l = { k with credits := c }) ∧
    (k.st = .credit → k.gotPools.length = 7 → k.gotPools.contains p.val = false →
      Does (.credit l p n) s fun s' => (getLink s' l).st = .active ∧ (getLink s' l).credits = c)) ∧
  (∀ (s : State) (l : Link) (c : Fin 4) (xoff : Bool), isPlane s l = true → linkActive s l = true →
    Does (.pfcPause l c xoff) s fun s' => ∀ i : Fin 4,
      (getLink s' l).paused.getLsbD i = if i = c then xoff else (getLink s l).paused.getLsbD i) ∧
  (∀ (s : State) (i : Nat) (c : TxCopy), s.fab.unacked[i]? = some c → tabHas s.fab.pathWait c.dst.toNat = false →
    c.sentAt + regFld s .fab 0x014 0 16 * 40000 ≤ s.now → c.held = false → c.frame.typ.toNat < 0x18 →
    (reaches s c.frame.slice.toNat c.dst.toNat = true → (c.acked = true ∨ c.tries < 8) → Does (.retransmit i) s fun s' =>
      s'.fab.unacked[i]? = some { c with tries := if c.acked then c.tries else c.tries + 1, sentAt := s.now } ∧
        ∃ x ∈ s'.fab.tx, x.frame = c.frame) ∧
    ∀ e, c.op = some e → (getOp s e).result = none → (∀ w, (getOp s e).work ≠ .coll w) →
      (reaches s c.frame.slice.toNat c.dst.toNat = false →
        Does (.retransmit i) s fun s' => (getOp s' e).result = some 0x0D ∧ (getOp s' e).detail = c.dst) ∧
      (reaches s c.frame.slice.toNat c.dst.toNat = true → c.acked = false → 8 ≤ c.tries → (∀ w, (getOp s e).work ≠ .attn w) →
        Does (.retransmit i) s fun s' => (getOp s' e).result = some 0x0E ∧ (getOp s' e).detail = c.dst)) ∧
  ∀ (s : State) (d : W16), tabHas s.fab.pathWait d.toNat = true → tabGet 0 s.fab.pathWait d.toNat ≤ s.now →
    ((pathTo s d.toNat 0).isSome = true → Does (.pathWaitExpiry d) s fun s' =>
      s'.fab.pathWait = tabDel s.fab.pathWait d.toNat ∧ s'.fab.unacked = s.fab.unacked) ∧
    ∀ e, pathTo s d.toNat 0 = none → (∃ c ∈ s.fab.unacked, c.dst = d) → (∀ c ∈ s.fab.unacked, c.dst = d → c.op = some e) →
      (getOp s e).result = none → (∀ w, (getOp s e).work ≠ .coll w) → (∀ w, (getOp s e).work ≠ .attn w) →
      Does (.pathWaitExpiry d) s fun s' => (getOp s' e).result = some 0x0E ∧ (getOp s' e).detail = d

/-- O43. R163 to R167, R250, R317: the coordinator notes what its members tell it; the verdict of the commit point goes to
every member that its instance may reach and to the entries here, and acts 1,000 ns before T; a launch whose instant has
come starts its operation, and under a device fence that came before T is MISSED with FENCED; the outcome goes to every
such member and to the operation of an entry, and is UNKNOWN where none has come. Model's part: The
fields of the launch messages are the model's (log entry 64), and so is when the device fence counts (log entry 69). -/
def Obligations.GroupLaunches : Prop :=
  (∀ (s : State) (l : Link) (f : Frame) (m : LaunchMsg), Arrives s l f →
    (∀ n g, findGroup s f.slice.toNat m = some n → s.time.groups[n]? = some g →
      ((∀ r, groupRec s g.inst g.group.toNat = some r → r.crc = m.listCrc) →
        Does (.armed l f m) s fun s' => s'.time.groups[n]? = some (noteArmed m.rank g) ∧ s'.mem = s.mem) ∧
      (Does (.notArmed l f m) s fun s' => s'.time.groups[n]? = some (noteRefused m.rank m.reason g)) ∧
      (Does (.noVerdict l f m) s fun s' => s'.time.groups[n]? = some (noteMissing m.rank g))) ∧
    ∀ i, memberEntries s f.slice.toNat m = [(i, getLaunch s i)] →
      let x := getLaunch s i
      (∀ q ∈ ([(.go l f m, true), (.nogo l f m, false)] : List (Instr × Bool)), x.st = .armed → x.verdict = none →
        Does q.1 s fun s' => getLaunch s' i = { x with verdict := some q.2 }) ∧
      (x.outcome = none → x.null_ = false → x.held = none → (m.outcome.toNat < 2 ∨ collOf s x.op = none) →
        Does (.outcome l f m) s fun s' =>
          (getLaunch s' i).outcome = some m.outcome ∧ (getOp s' x.op).outcome = some m.outcome)) ∧
  (∀ (s : State) (n : Nat) (g : GroupLaunch), s.time.groups[n]? = some g →
    (g.go = none → g.t.toNat ≤ nsNow s + 3000 →
      let v := (upFrom 0 g.members.length).all fun r => g.armed.contains r
      Does (.commitPoint n) s fun s' => s'.time.groups[n]? = some { g with go := some v } ∧
        ∀ r, r < g.members.length → r ≠ g.rank → reaches s (instSlice s g.inst) (nth 0xFFFF g.members r).toNat = true →
          ∃ x ∈ s'.fab.tx, x.frame.typ = 0x1B ∧
            x.frame.dst = nth 0xFFFF g.members r ∧ nth 0 x.frame.payload 14 = if v then 2 else 3) ∧
    (g.t.toNat + 5000 ≤ nsNow s → s.time.launches = [] →
      Does (.outcomeSend n) s fun s' => s'.time.groups = s.time.groups.eraseIdx n ∧
        ∀ r, r < g.members.length → r ≠ g.rank → reaches s (instSlice s g.inst) (nth 0xFFFF g.members r).toNat = true →
          ∃ x ∈ s'.fab.tx, x.frame.typ = 0x1B ∧ x.frame.dst = nth 0xFFFF g.members r ∧ nth 0 x.frame.payload 14 = 5)) ∧
  ∀ (s : State) (i : LaunchIx),
    let l := getLaunch s i
    (∀ g, l.st = .armed → l.group = some g → l.t.toNat ≤ nsNow s + 1000 →
      (l.verdict = some true → Does (.verdictDeadline i) s fun s' => getLaunch s' i = { l with st := .committed }) ∧
      (l.verdict ≠ some true → l.engine = none → l.null_ = false → (getOp s l.op).result = none →
        Does (.verdictDeadline i) s fun s' => (getLaunch s' i).st = .missed ∧
          (getOp s' l.op).result = some (if l.verdict = none then 0x14 else 0x13))) ∧
    (dispatchable l = true → l.t.toNat + 32 ≤ nsNow s → s.time.belfry.boundary = none → s.flt.devFence = false → l.held = none →
      (l.null_ = true → Does (.launchDispatch i) s fun s' => getLaunch s' i = { l with st := .dispatched } ∧ s'.op = s.op) ∧
      (l.null_ = false → Does (.launchDispatch i) s fun s' =>
        s' = startOp (setLaunch s i { l with st := .dispatched }) l.op (l.engine.map fun x => (x, l.t.toNat)))) ∧
    (dispatchable l = true → l.t.toNat + 32 ≤ nsNow s → s.time.belfry.boundary = none → s.flt.devFence = true →
      s.flt.fenceNs < l.t.toNat → l.held = none → l.engine = none → l.null_ = false → (getOp s l.op).result = none →
      Does (.launchDispatch i) s fun s' => (getLaunch s' i).st = .missed ∧ (getLaunch s' i).reason = whyFenced ∧
        (getOp s' l.op).result = some 0x12) ∧
    (l.st ≠ .free → l.group.isSome = true → l.outcome = none → l.t.toNat + 6500 ≤ nsNow s → l.null_ = false → l.held = none →
      collOf s l.op = none →
      Does (.outcomeDeadline i) s fun s' => (getLaunch s' i).outcome = some 3 ∧ (getOp s' l.op).outcome = some 3)

/-- O44. R302, R304 to R308: a link goes through its states: ENABLE and RETRAIN bring it to DETECT and clearing ENABLE
to DISABLED; signal, training, alignment and a right IDENT bring it on, a wrong one to MISWIRED; the limits of R304 and
the loss of signal bring BACKOFF, a lane fault DEGRADE, which halves the width; BACKOFF and PARKED end in DETECT.
Model's part: The waits of BACKOFF, the last attempt and a fault at width 1 are a reading (log entry 66). -/
def Obligations.LinkTraining : Prop :=
  ∀ (s : State) (l : Link),
    let k := getLink s l
    (∀ by_, MayOrder s by_ .fab → domUsable s (36 + l / 6) = true →
      (k.st = .disabled → Does (.linkEnable by_ l) s fun s' => getLink s' l = { untrained k with attempts := 1, parkNoted := false, st := .detect, since := s.now }) ∧
      (k.st ≠ .disabled → Does (.linkDisable by_ l) s fun s' => getLink s' l = { untrained k with attempts := 0, parkNoted := false, st := .disabled, since := s.now }) ∧
      (linkCfg s l 0 1 = 1 → Does (.retrain by_ l) s fun s' => getLink s' l = { untrained k with attempts := 1, parkNoted := false, st := .detect, since := s.now })) ∧
    (k.st = .detect → k.since + 40000000 ≤ s.now → Does (.signalDetect l) s fun s' => getLink s' l = { k with signal := true, st := .train, since := s.now }) ∧
    (∀ pol, k.st = .train → Does (.trainingComplete l pol) s fun s' => getLink s' l = { k with pol := pol, st := .align, since := s.now }) ∧
    (∀ m h, k.st = .align → widthFor (laneCount h) ≠ 0 →
      Does (.alignComplete l m h) s fun s' =>
        (getLink s' l).st = (if isPlane s l then .active else .ident) ∧ (getLink s' l).width = widthFor (laneCount h)) ∧
    (∀ f m, k.st = .ident → f.fcsOk = true → f.version = 1 → f.reservedSet = false →
      (m.systemId = regAct s .fab 0x008 → otherPartner s l m.dev.toNat = false → m.plane = false →
        Does (.ident l f m) s fun s' => (getLink s' l).st = .credit ∧ (getLink s' l).partner = m.dev ∧
          ∀ p, p < 8 → ∃ x ∈ s'.fab.tx, x.link = some l ∧ x.frame.typ = 0x1D ∧ x.frame.payload = toBytes (poolSize p + p * 4096) 2) ∧
      (m.systemId ≠ regAct s .fab 0x008 → Does (.ident l f m) s fun s' => (getLink s' l).st = .miswired)) ∧
    (∀ t, linkLimit k.st = some t → k.since + t ≤ s.now → (k.st = .ident → 3 ≤ k.tries) →
      Does (.linkTimeout l) s fun s' => (getLink s' l).st = .backoff ∧ (getLink s' l).attempts = k.attempts) ∧
    (k.st = .active → Does (.lossOfSignal l) s fun s' =>
      (getLink s' l).st = .backoff ∧ (getLink s' l).signal = false ∧ (getLink s' l).attempts = k.attempts) ∧
    (∀ h ok, k.st = .active → 1 < k.width → (isPlane s l = false ∨ ok = true) →
      Does (.laneFault l h ok) s fun s' => getLink s' l = { k with lanes := h, fecHigh := true, st := .degrade, since := s.now }) ∧
    (∀ pol m, k.st = .degrade → Does (.degradeDone ⟨l, pol, m⟩) s fun s' => (getLink s' l).st = .active ∧
      (getLink s' l).width = k.width / 2 ∧ (getLink s' l).pol = pol ∧ (getLink s' l).lmap = m) ∧
    (k.st = .backoff → k.since + 2 ^ (k.attempts - 1) * 40000000 ≤ s.now →
      Does (.backoffEnd l) s fun s' => if linkCfg s l 4 4 ≤ k.attempts then (getLink s' l).st = .parked
        else (getLink s' l).st = .detect ∧ (getLink s' l).attempts = k.attempts + 1) ∧
    (k.st = .parked → k.since + linkCfg s l 8 8 * 40000000000 ≤ s.now → Does (.parkExpiry l) s fun s' => (getLink s' l).st = .detect)

/-- O45. R143, R156, R157, R159, R160, R449: at an epoch boundary that APPLY_EPOCH allows, the routing entries and the
EPOCH values written at least 1,024 ns before it take effect; one that it does not allow leaves the routes. A tick that
is due gives its cadence the next number, and its waiting threads consume it. Model's part: That a tick counts as one
occurrence is a reading (log entry 29). -/
def Obligations.EpochsAndTicks : Prop :=
  (∀ (s : State) (w n : Nat), s.time.belfry.boundary = some (w, n) →
    (n / 2 ^ 20 < (regAct s .belfry 0x028).toNat →
      Does .epochBoundary s fun s' => s'.time.belfry.boundary = none ∧ s'.reg.routeAct = s.reg.routeAct) ∧
    ((regAct s .belfry 0x028).toNat ≤ n / 2 ^ 20 →
      Does .epochBoundary s fun s' =>
        s'.time.belfry.boundary = none ∧
          (∀ d at_, (d, at_) ∈ s.reg.routeAt → at_ + 40960 ≤ w → tabGet 0 s'.reg.routeAct d = tabGet 0 s.reg.routePend d) ∧
          ∀ at_, s.reg.pendAt = [(blkBase .fab + 0x010, at_)] → at_ + 40960 ≤ w →
            ∀ j, j < 4 → regFld s' .fab 0x010 (4 * j) 3 = bits (regPend s .fab 0x010).toNat (4 * j) 3)) ∧
  ∀ (s : State) (c : Fin 256),
    let k := getCad s c
    k.running = true → nextTick s c ≤ timeFx s → s.time.belfry.boundary = none → launchOutstanding s = false →
    Does (.cadenceTick c) s fun s' =>
      let k' := getCad s' c
      k'.tick = BitVec.ofNat 64 k.num ∧ k'.occ = k.occ + 1 ∧ k'.j = k.j + 1 ∧ k'.running = true ∧
        ∀ t, waitsOn (getThr s t) .cadence = true → (getThr s t).bound = true → (getThr s t).cad.toNat = c.val →
          (getThr s' t).lastTick = BitVec.ofNat 64 k.num ∧ (getThr s' t).lastOcc = k.occ + 1

/-- O46. R143, R147 to R153, R155: an edge or a time of the selected source gives PHASE_ERR, and NS is stepped where
R152 allows it and slewed within ±200 ppm where not; an announcement with the exchanges of its delay mechanism qualifies PTP; a lost source leaves HOLDOVER when
none is left; a better one is taken back after 10 s; SET_TIME steps, arms a step at a PPS edge, or is ignored; the
holdover limit sets its flag; PPS_OUT rises at a second and falls after 100 µs. The steering value is free (log entry
4). Model's part: The sign of PHASE_ERR, the second that an edge stands for and the 8 ns timestamp are a reading (log entry
65). -/
def Obligations.References : Prop :=
  (∀ (s : State) (c : BitVec 2) (f : Byte),
    let l := localTime s f.toNat
    Does (.ppsEdge c f) s fun s' =>
      s'.time.belfry.pps.lastSeen = some s.now ∧ s'.time.belfry.pps.count = ppsCount s.time.belfry.pps s.now ∧
        (s.time.belfry.source = some .pps → ppsLate s = s → refPri s .pps ≠ 0 → s.time.belfry.stepAtPps = none →
          s'.time.belfry.phaseErr = BitVec.ofInt 32 (nearestSecond l - l)) ∧
        ∀ v : W64, s.time.belfry.source = some .pps → ppsLate s = s → refPri s .pps ≠ 0 →
          s.time.belfry.stepAtPps = some v → mayStep s (setTimeErr s v) = true →
          s'.time.belfry.ns = v ∧ s'.time.belfry.frac = 0 ∧ s'.time.belfry.timeValid = true) ∧
  (∀ (s : State) (r : W64) (rf : W16), s.time.belfry.source = some .ptp →
    let t : Int := r.toNat * 256 + (rf.toNat / 256 : Nat)
    Does (.ptpSync r rf) s fun s' =>
      s'.time.belfry.phaseErr = BitVec.ofInt 32 (t - macStamp s) ∧
        (mayStep s (t - macStamp s) = true → s'.time.belfry.ns = BitVec.ofInt 64 (t / 256) ∧ s'.time.belfry.frac = 0) ∧
        (mayStep s (t - macStamp s) = false → s'.time.belfry.ns = s.time.belfry.ns ∧
          -200000000 ≤ s'.time.belfry.freqAdj.toInt ∧ s'.time.belfry.freqAdj.toInt ≤ 200000000)) ∧
  (∀ (s : State) (d : Byte) (x : Option Bool), d.toNat = regFld s .belfry 0x01C 16 8 →
    Does (.ptpAnnounce d true x) s fun s' =>
      s'.time.belfry.ptp.lastSeen = some s.now ∧
        s'.time.belfry.ptp.qualified = (s.time.belfry.ptp.qualified || x == some (regFld s .belfry 0x01C 7 1 == 1))) ∧
  (∀ (s : State) (r : RefSource) (gone : Bool), (refOf s.time.belfry r).qualified = true → refLost s r gone = true →
    Does (.referenceLoss r gone) s fun s' => (refOf s'.time.belfry r).qualified = false ∧
      (s.time.belfry.source = some r → (∀ q, q ≠ r → (refOf s.time.belfry q).qualified = false) →
        s'.time.belfry.source = none ∧ s'.time.belfry.state = .holdover ∧ s'.time.belfry.holdSince = s.now)) ∧
  (∀ (s : State) (r x : RefSource), s.time.belfry.source = some r → regFld s .belfry 0x018 1 1 = 1 →
    bestRef s (fun q => decide (refPri s r < refPri s q) && decide ((refOf s.time.belfry q).since + 400000000000 ≤ s.now)) = some x →
    Does .sourceRevert s fun s' => s'.time.belfry.source = some x ∧ s'.time.belfry.ns = s.time.belfry.ns) ∧
  (∀ (s : State) (by_ : Requester) (v : W64), MayOrder s by_ .belfry →
    let b := s.time.belfry
    let err : Int := setTimeErr s v
    ((b.state = .freerun ∨ b.state = .holdover) →
      (mayStep s err = true → Does (.setTime by_ (.full v)) s fun s' =>
        s'.time.belfry.ns = v ∧ s'.time.belfry.frac = 0 ∧ s'.time.belfry.timeValid = true) ∧
      (mayStep s err = false → Does (.setTime by_ (.full v)) s fun s' =>
        s'.time.belfry.ns = b.ns ∧ s'.time.belfry.setIgnored = true)) ∧
    ((b.state = .locked ∨ b.state = .acquiring) →
      (b.source = some .pps → v.toNat % 1000000000 = 0 →
        Does (.setTime by_ (.full v)) s fun s' => s'.time.belfry = { b with stepAtPps := some v }) ∧
      (b.source ≠ some .pps ∨ v.toNat % 1000000000 ≠ 0 →
        Does (.setTime by_ (.full v)) s fun s' => s'.time.belfry = { b with setIgnored := true }))) ∧
  ∀ s : State,
    let b := s.time.belfry
    (b.state = .holdover → b.holdExpired = false → b.holdSince + regFld s .belfry 0x018 16 16 * 40000000000 < s.now →
      Does .holdoverLimit s fun s' => s'.time.belfry = { b with holdExpired := true, unfit := true }) ∧
    (regFld s .belfry 0x018 2 1 = 1 → b.timeValid = true → b.ns.toNat % 1000000000 < 2 →
      (b.ppsOut = false ∨ b.ppsRise + 4000000 ≤ s.now) →
      Does .ppsOutPulse s fun s' => s'.time.belfry.ppsOut = true ∧ s'.time.belfry.ppsRise = s.now) ∧
    (b.ppsOut = true → b.ppsRise + 4000000 ≤ s.now → Does .ppsOutEnd s fun s' => s'.time.belfry.ppsOut = false)

/-- O47. R124 to R126, R129: GO starts a load with its mode, or changes nothing of one in progress; a failed check ends
the load with its reason; a FULL image of one array that passes every check is placed in its slot, and its array waits
to be written. Model's part: The slot that an image takes (log entry 38) and the order of the checks (log entry 50) are
the model's choice. -/
def Obligations.ImageLoads : Prop :=
  (∀ (s : State) (by_ : Requester), MayOrder s by_ .sec →
    ∀ q ∈ ([(.imageLoadFull by_, .full), (.imageLoadRolling by_, .rolling), (.imageLoadUnlock by_, .unlock)] : List (Instr × LoadMode)),
      (s.img.load = none → s.img.zeroise = false →
        Does q.1 s fun s' => s'.img = { s.img with load := some { mode := q.2 }, loadReason := 0, loadStage := 1, loadDone := false, progress := 0 }) ∧
      (s.img.load.isSome = true → Does q.1 s fun s' => s'.img = s.img)) ∧
  (∀ (s : State) (f : ImageFile) (m : LoadMode) (o : Option Nat) (r : Nat), s.img.load = some ⟨m, none, o⟩ → loadFault s m f = some r →
    (regAct s .sec 0x028).toNat = 0 →
    Does (.imageCommit f) s fun s' =>
      s'.img.load = none ∧ s'.img.loadDone = true ∧ s'.img.loadReason = BitVec.ofNat 8 r ∧ s'.img.images = s.img.images ∧
        s'.tile = s.tile) ∧
  ∀ (s : State) (f : ImageFile) (o : Option Nat) (k b : Nat) (r : PlaceRec),
    let p := physTile s r.tile.toNat
    let a := physArr (getTile s p) r.array.toNat
    logTile s p = some r.tile.toNat → s.img.load = some ⟨.full, none, o⟩ → loadFault s .full f = none → freeSlot s = some k → slotBase s f.imageLength.toNat = some b →
    f.placement = [r] → (getArr (getTile s p) a).st = .spare →
    Does (.imageCommit f) s fun s' =>
      (getImage s' k).imageId = f.imageId ∧ (getImage s' k).base = b ∧ s'.img.loadStage = 8 ∧
        s'.img.load.map (·.slot) = some (some k) ∧ (getTile s' p).image = some k ∧
        ∃ j ∈ (getTile s' p).jobs, j.kind = .full ∧ j.phys = a ∧ j.slot = some k ∧ j.logical = some r.array.toNat

/-- O48. R25, R55, R65, R76, R77, R127, R128, R141: a granted job takes its array to WRITING with the targets that its
image holds then; written, the array holds those, has one cycle more and is VERIFYING; verified, it is a spare or FENCED after a retest, and CALIBRATING with its
failed pairs kept after a write; calibrated, it holds its trims and the illegal pairs found with CAL_DONE, or is FENCED; drained with nothing to
serve it is a spare; zeroise ends once every array has been erased. Model's part: The state that an erasure leaves an
array in is the model's choice (log entry 35). -/
def Obligations.Programming : Prop :=
  (∀ (s : State) (t : TileId) (j : Job) (n : Nat) (res resW : Bool) (r : ArbReq),
    let p := tileNo t
    pvPick s p = some (j, n, res) → writePick s = some (r, resW) → r.index = p → tooWorn (arrOf s p j.phys) j = false →
    j.kind ≠ .erase →
    Does (.pvGrant t) s fun s' =>
      (arrOf s' p j.phys).st = .writing ∧
        (getTile s' p).pv = some { j with age := s.now, wrote := false, target := cellsOf (jobWts s p j) }) ∧
  (∀ (s : State) (t : TileId) (j : Job) (n : Nat),
    let p := tileNo t
    let x := arrOf s p j.phys
    (getTile s p).pv = some j → j.wrote = false → 0 < n → n ≤ 12 → j.age + writeTime j n ≤ s.now → x.st = .writing →
    Does (.writingDone t n) s fun s' =>
      let x' := arrOf s' p j.phys
      x'.st = .verifying ∧ x'.cells = j.target ∧ x'.cycles = x.cycles + 1 ∧
        (getTile s' p).pv = some { j with wrote := true, age := s.now } ∧ s'.mem = s.mem) ∧
  (∀ (s : State) (t : TileId) (j : Job) (f : List FailedPair),
    let p := tileNo t
    (getTile s p).pv = some j → j.wrote = true → j.age + 1600000 ≤ s.now →
    (j.logical = none → (arrOf s p j.phys).st ≠ .fenced →
      Does (.verifyingDone t f) s fun s' =>
        (arrOf s' p j.phys).st = (if f = [] then .spare else .fenced) ∧ (getTile s' p).pv = none) ∧
    ∀ l : Nat, j.logical = some l → f.length ≤ 32 →
      let x := f.foldl failPair (arrOf s p j.phys)
      let u := setArrOf (setTile s p { getTile s p with pv := none }) p j.phys
        { x with failed := f, failedCount := f.length, mask := checkMask (cellWts j.target) f }
      (stageVerified u p l j (cellWts j.target) f).2 = true →
      Does (.verifyingDone t f) s fun s' =>
        (arrOf s' p j.phys).st = .calibrating ∧ (arrOf s' p j.phys).failed = f ∧ (getTile s' p).pv = none) ∧
  (∀ (s : State) (t : TileId) (a : Fin 68) (r : CalResult),
    let p := tileNo t
    let x := arrOf s p a
    let trims := r.trims.foldl (fun m y => tabPut m y.col.val (y.gain, y.offset)) ([] : Tab (W16 × W16))
    x.st = .calibrating → x.calDone = false → x.job = none → logArr (getTile s p) a = none → tilePowered s p = true →
    x.since + 20000000 ≤ s.now → (∀ j ∈ (getTile s p).jobs, j.phys ≠ a.val) →
    let y := noteIllegal { x with trims := trims, newTrims := none } r.illegal
    (r.selfTestOk = true → y.failed.length ≤ 32 → anyGain 6 trims = false → (∀ z ∈ trims, offsetBeyond z.2.2 = false) →
      anyGain 25 trims = false →
      Does (.calDone t a r) s fun s' => arrOf s' p a = { y with calDone := true, touchups := 0 }) ∧
    (r.selfTestOk = false → Does (.calDone t a r) s fun s' => (arrOf s' p a).st = .fenced)) ∧
  (∀ (s : State) (t : TileId) (a : Fin 68),
    let p := tileNo t
    (arrOf s p a).st = .draining → inFlight (getTile s p) a = false → (arrOf s p a).toFence = false →
    inPlaceOf (getTile s p) a = none → logArr (getTile s p) a = none →
    Does (.drainingDone t a) s fun s' => (arrOf s' p a).st = .spare ∧ (arrOf s' p a).calDone = false) ∧
  ∀ s : State, s.img.zeroise = true → allErased s = true →
    Does .zeroiseComplete s fun s' =>
      s'.img.zeroise = false ∧ s'.img.zeroiseFlag = false ∧ (∀ p, (getTile s' p).erased = []) ∧
        s'.flt.devFence = decide (s.flt.devFenceWhy % 2 ≠ 0) ∧
        (s.keep.busy = some .zeroise → s'.keep.busy = none ∧ s'.keep.done = true ∧ s'.keep.result = 0)

/-- O49. R362, R363, R366, R367: an order that is the first of its cycle to write ENABLE = 1 brings a DISABLED instance to
ENABLED; each trigger of R366, its order the first of its cycle, brings an instance to RESETTING with its generation one higher and aborts its threads; clearing VF Enable does so for instances 1
to 31; the end of the reset leaves its threads FREE, its rings at their reset values, and the instance in the state that
was asked. Model's part: That ENABLE = 0 disables with a reset is a reading (log entry 28). -/
def Obligations.InstanceResets : Prop :=
  (∀ (s : State) (by_ : Requester) (n : Inst), MayOrder s by_ (.inst n) → (getInst s n).st = .disabled →
    Does (.instEnable by_ n) s fun s' =>
      getInst s' n = { getInst s n with st := .enabled } ∧ ∀ m : Inst, m ≠ n → getInst s' m = getInst s m) ∧
  (∀ (s : State) (by_ : Requester) (n : Inst), (getInst s n).st ≠ .resetting → s.op.table = [] → s.time.launches = [] →
    FirstOrder s →
    ∀ q ∈ ([(.instDisable by_ n, reqUp s by_ && mayWrite s by_ (.inst n) && n != 0, 2, .disabled),
        (.instReset by_ n, reqUp s by_ && mayWrite s by_ (.inst n), 1, (getInst s n).st),
        (.vfFlr n, fnUp s n && n != 0, 3, (getInst s n).st)] : List (Instr × Bool × Byte × IState)), q.2.1 = true →
      Does q.1 s fun s' =>
        let i := getInst s' n
        i.st = .resetting ∧ i.gen = (getInst s n).gen + 1 ∧ i.trigger = q.2.2.1 ∧ i.after = q.2.2.2 ∧
          (∀ t, live (getThr s t) = true → (getThr s t).inst = n → (getThr s' t).st = .aborted ∧ (getThr s' t).slot = none) ∧
          ∀ t, (∀ x ∈ s.mbx.threads, x.1 = t → x.2.inst ≠ n) → getThr s' t = getThr s t) ∧
  (∀ s : State, s.host.vfEnable = true → s.host.linkUp = true → s.op.table = [] → s.time.launches = [] →
    Does .vfEnableClear s fun s' => s'.host.vfEnable = false ∧ ∀ n : Inst, n ≠ 0 → (getInst s' n).st = .resetting) ∧
  (∀ s : State, s.host.linkUp = true → Does .vfEnableSet s fun s' => s' = { s with host.vfEnable := true }) ∧
  ∀ (s : State) (n : Inst), (getInst s n).st = .resetting → passesLeft s n = false → s.op.table = [] → s.time.launches = [] →
    Does (.instResetDone n) s fun s' =>
      (getInst s' n).st = (getInst s n).after ∧ (getInst s' n).cntAddr = 0 ∧ (∀ j : Fin 4, getRing s' n j = {}) ∧
        (∀ t, (getThr s t).inst = n → (getThr s' t).st = .free) ∧
        ∀ t, (∀ x ∈ s.mbx.threads, x.1 = t → x.2.inst ≠ n) → getThr s' t = getThr s t

/-- O50. R357, R358, R360, R361, R464, R483: a quota within the device's totals is taken and one beyond them is refused
with REFUSED; a memory range or a range of thread IDs is taken when it keeps the ranges apart and refused when not; what
an instance lost is zeroed; a tile takes its owner, VALID and GROUP, and a new owner finds its blocks and positions
empty. Model's part: When REFUSED is set is a reading (log entry 48). -/
def Obligations.Assignment : Prop :=
  (∀ (s : State) (by_ : Requester) (n : Inst) (v : W32), MayOrder s by_ (.inst n) →
    let a := bits v.toNat 0 13
    let b := bits v.toNat 16 11
    a ≤ 4096 → b ≤ 1024 → quotaSum s n 0x014 16 11 b ≤ 1024 →
    (quotaSum s n 0x014 0 13 a ≤ 4096 →
      Does (.quotaWrite by_ n .quota .base v) s fun s' =>
        bits (regPend s' (.inst n) 0x014).toNat 0 13 = a ∧ bits (regPend s' (.inst n) 0x014).toNat 16 11 = b) ∧
    (4096 < quotaSum s n 0x014 0 13 a → a ≠ bits (regPend s (.inst n) 0x014).toNat 0 13 →
      Does (.quotaWrite by_ n .quota .base v) s fun s' => (getInst s' n).refused = true ∧
        bits (regPend s' (.inst n) 0x014).toNat 0 13 = bits (regPend s (.inst n) 0x014).toNat 0 13)) ∧
  (∀ (s : State) (by_ : Requester) (n : Inst) (i : Fin 8) (v : W32), MayOrder s by_ (.inst n) → assignable s n = true →
    let o := 0x020 + 4 * i.val
    (memOk s n v.toNat = true →
      Does (.memRangeWrite by_ n i .base v) s fun s' =>
        regFld s' (.inst n) o 0 11 = bits v.toNat 0 11 ∧ regFld s' (.inst n) o 12 11 = bits v.toNat 12 11) ∧
    (memOk s n v.toNat = false → bits v.toNat 0 11 ≠ bits (regPend s (.inst n) o).toNat 0 11 →
      Does (.memRangeWrite by_ n i .base v) s fun s' => (getInst s' n).refused = true ∧ s'.reg.vals = s.reg.vals)) ∧
  (∀ (s : State) (by_ : Requester) (n : Inst) (v : W32), MayOrder s by_ (.inst n) → assignable s n = true →
    (tidOk s n v.toNat = true →
      Does (.tidWrite by_ n .base v) s fun s' =>
        regFld s' (.inst n) 0x010 0 11 = bits v.toNat 0 11 ∧ regFld s' (.inst n) 0x010 16 11 = bits v.toNat 16 11) ∧
    (tidOk s n v.toNat = false → bits v.toNat 0 11 ≤ 1024 → bits v.toNat 16 11 ≤ 1024 →
      bits v.toNat 0 11 ≠ bits (regPend s (.inst n) 0x010).toNat 0 11 →
      Does (.tidWrite by_ n .base v) s fun s' => (getInst s' n).refused = true ∧ s'.reg.vals = s.reg.vals)) ∧
  (∀ (s : State) (n : Inst), (getInst s n).scrub = true →
    Does (.rangeScrubDone n) s fun s' => (getInst s' n).scrub = false ∧ (getInst s' n).scrubbing = [] ∧
      ∀ r ∈ (getInst s n).scrubbing, ∀ x, r.1 ≤ x → x < r.1 + r.2 → cellGet s'.mem.cells x = 0) ∧
  ∀ (s : State) (by_ : Requester) (n : Inst) (v : W32), MayOrder s by_ (.inst n) →
    let t := regFld s (.inst n) 0x0B0 0 10
    let old := townOf s t
    bits v.toNat 0 5 ≠ bits old 0 5 → assignable s (bits old 0 5) = true → assignable s (bits v.toNat 0 5) = true →
    tileInUse s t = false →
    Does (.townDataWrite by_ n v) s fun s' =>
      bits (townOf s' t) 0 5 = bits v.toNat 0 5 ∧ bit (townOf s' t) 7 = bit v.toNat 7 ∧
        bits (townOf s' t) 8 8 = bits v.toNat 8 8 ∧ (getTile s' (physTile s t)).blocks = [] ∧
        (getTile s' (physTile s t)).positions = [] ∧ (getTile s' (physTile s t)).variants = []

/-- O51. R335, R376, R377, R389, R469: the first residue error of a unit is noted, and a second one within 1 s fences an
attention engine; a hard fault outside a recovery window, or a fence that the Keep asks for, fences its engine; a scrub that finds an uncorrectable error
poisons the line, and one that finds a corrected error counts it; a stack is zeroed once its domain is usable. Model's
part: That stacks are zeroed at once, and the line and row an error names, are the model's choice (log entries
47, 71). -/
def Obligations.UnitFaults : Prop :=
  (∀ (s : State) (n : Fin 8), s.op.attnFenced.getLsbD n = false → windowHit s (unitOf 5 n) = none →
    (secondError s s.op.lastResidue n = false →
      Does (.residueError (.attention n)) s fun s' =>
        tabGet 0 s'.op.lastResidue n = s.now ∧ s'.op.attnFenced = s.op.attnFenced ∧ s'.op.table = s.op.table) ∧
    (secondError s s.op.lastResidue n = true →
      Does (.residueError (.attention n)) s fun s' => s'.op.attnFenced.getLsbD n = true) ∧
    ∀ asked, Does (.unitHardFault ⟨unitOf 5 n, asked⟩) s fun s' => ∀ m : Fin 8,
      s'.op.attnFenced.getLsbD m = (decide (m = n) || s.op.attnFenced.getLsbD m)) ∧
  (∀ s : State, s.op.samplerFenced = false → windowHit s (unitOf 9 7) = none →
    ∀ asked, Does (.unitHardFault ⟨unitOf 9 7, asked⟩) s fun s' => s'.op.samplerFenced = true ∧ s'.op.table = s.op.table) ∧
  (∀ (s : State) (t : TileId), unitFenced s (unitTile (tileNo t)) = false →
    secondError s (getTile s (tileNo t)).lastResidue 101 = false →
    Does (.residueError (.accumulator t)) s fun s' =>
      tabGet 0 (getTile s' (tileNo t)).lastResidue 101 = s.now ∧ (getTile s' (tileNo t)).fenced = (getTile s (tileNo t)).fenced) ∧
  (∀ (s : State) (a : W64), isStacked a.toNat = true → (getStack s (stackOf a.toNat)).fenced = false →
    (Does (.patrolScrub a .clean) s fun s' => s' = s) ∧
    (Does (.patrolScrub a .corrected) s fun s' =>
      (getStack s' (stackOf a.toNat)).corrected = (getStack s (stackOf a.toNat)).corrected + 1) ∧
    (Does (.patrolScrub a .uncorrectable) s fun s' => lineBad s' a.toNat = true)) ∧
  ∀ (s : State) (k : Fin 8), domUsable s (28 + k.val) = true →
    Does (.stackZeroed k) s fun s' => (getStack s' k).zeroed = true ∧ s'.mem.cells = s.mem.cells

/-- O52. R206, R337, R341, R351, R354, R356: BAR4 and CXL.mem read and write the instance's memory, an access outside it
reads as all ones, writes nothing and is counted; a decoder is committed when it keeps its instance's memory; a
completion gives a host load its value and frees the tag, an error or a timeout raises MEM_ERR; an unmasked vector that
was pending is sent. Model's part: The bytes of a read that R335 and R351 leave open are the model's (log entry 18), and
the state of a decoder and of a vector at reset (log entry 10). -/
def Obligations.HostMemory : Prop :=
  (∀ (s : State) (f : Inst) (a : W64) (len : Nat) (d : List Byte), fnUp s f = true →
    (s.host.scrub = false → bar4Open s f a.toNat len = true → (∀ x, a.toNat ≤ x → x < a.toNat + len → lineBad s x = false) →
      Does (.bar4Read f a len) s fun s' => s'.host.readOut = rdBytes s a.toNat len ∧ s'.mem = s.mem) ∧
    (s.host.scrub = false → bar4Open s f a.toNat len = false →
      Does (.bar4Read f a len) s fun s' =>
        s'.host.readOut = List.replicate len 0xFF ∧ (getInst s' f).accErr = (getInst s f).accErr + 1) ∧
    (bar4Open s f a.toNat d.length = true → Does (.bar4Write f a d) s fun s' => s' = wrStacked s a.toNat d) ∧
    (bar4Open s f a.toNat d.length = false →
      Does (.bar4Write f a d) s fun s' => (getInst s' f).accErr = (getInst s f).accErr + 1)) ∧
  (∀ (s : State) (i : Fin 4) (base size dev : W64) (n : Inst), fnUp s 0 = true →
    (hdmOk s ⟨true, base, size, dev, n⟩ = true →
      Does (.hdmCommit i base size dev n) s fun s' => getHdm s' i = ⟨true, base, size, dev, n⟩) ∧
    (hdmOk s ⟨true, base, size, dev, n⟩ = false → Does (.hdmCommit i base size dev n) s fun s' => s' = s)) ∧
  (∀ (s : State) (a : W64) (h : Hdm) (d : Nat) (l : List Byte), fnUp s 0 = true → hdmHit s (a.toNat / 64 * 64) = some (h, d) →
    inUser s h.inst d 64 = true →
    (s.host.scrub = false → (∀ x, d ≤ x → x < d + 64 → lineBad s x = false) →
      Does (.cxlMemRead a) s fun s' => s'.host.readOut = rdBytes s d 64 ∧ s'.mem = s.mem) ∧
    Does (.cxlMemWrite a l) s fun s' => s' = wrStacked s d l) ∧
  (∀ (s : State) (tag : Fin 1024) (t : Nat) (h : HostLoad) (d : List Byte), loadOf s tag = some (t, h) →
    let th := getThr s t
    (d.length = h.size → Does (.hostCompletion tag true d) s fun s' =>
      let th' := getThr s' t
      th'.hostLoad = none ∧ Advanced th th' ∧ tabHas s'.host.reqs tag = false ∧ s'.mem = s.mem ∧
        ∀ r, gRd th' r = if r = h.dest ∧ r ≠ 0 then extend h.size h.sx (ofBytes d) else gRd th r) ∧
    (CanEnter th → th.st ≠ .suspended →
      ∀ c ∈ [Instr.hostCompletion tag false d, .completionTimeout tag],
        Does c s fun s' => Entered th (getThr s' t) 0x05 h.addr 8 ∧ tabHas s'.host.reqs tag = false)) ∧
  ∀ (s : State) (f : Inst) (v : Fin 2048), fnUp s f = true → v.val < regFld s (.inst f) 0x01C 16 12 →
    Does (.msixUnmask f v) s fun s' => s'.host.unmasked.contains ⟨f, v⟩ = true ∧
      (s.host.msixPend.contains ⟨f, v⟩ = true →
        s'.host.msixPend.contains ⟨f, v⟩ = false ∧ s'.host.msix = ⟨f, v⟩ :: s.host.msix) ∧
      (s.host.msixPend.contains ⟨f, v⟩ = false → s'.host.msix = s.host.msix)

/-- O53. R355: each request of the DOE mailbox is answered once: Discovery and GET_VERSION at any time, the others with
an answer after GET_VERSION and an error before it or for a slot other than 0. The codes of the answers are the model's (log entry 16). -/
def Obligations.DoeAnswers : Prop :=
  ∀ (s : State) (i op : Byte) (a b : Bool) (off len : W16) (nc : BitVec 256), fnUp s 0 = true → (op.toNat ≤ 5 ∨ op = 0xFF) →
    (∀ q ∈ ([(.doeDiscovery i, 0x00), (.getVersion, spdmVersionRsp)] : List (Instr × Byte)),
      Does q.1 s fun s' => s'.host.doeOut.length = s.host.doeOut.length + 1 ∧ s'.host.doeOut.map (·.kind) = s.host.doeOut.map (·.kind) ++ [q.2] ∧
        s'.mem = s.mem ∧ s'.keep = s.keep) ∧
    (∀ slot : BitVec 4, slot ≠ 0 → ∀ c ∈ [Instr.getCertificate slot off len, .challenge slot nc],
      Does c s fun s' => s'.host.doeOut.map (·.kind) = s.host.doeOut.map (·.kind) ++ [spdmError]) ∧
    (Does .getVersion s fun s' => s'.host.spdmVersion = true) ∧
    ∀ q ∈ ([(.getCapabilities, spdmCapabilities), (.negotiateAlgorithms a b, if a && b then spdmAlgorithms else spdmError),
        (.getDigests, spdmDigests), (.getCertificate 0 off len, spdmCertificate), (.challenge 0 nc, spdmChallengeAuth),
        (.getMeasurements op nc, spdmMeasurements)] : List (Instr × Byte)),
      Does q.1 s fun s' => s'.host.doeOut.map (·.kind) = s.host.doeOut.map (·.kind) ++ [if s.host.spdmVersion then q.2 else spdmError] ∧
        s'.host.spdmVersion = s.host.spdmVersion ∧ s'.mem = s.mem

/-- O54. R188, R366, R399, R402, R469 to R475: PERST_N and a PF FLR end every thread and operation, return every
instance to its reset values, keep the protected region and begin to zero the rest, each with its bit of RESET_CAUSE;
PERST_N rising brings the link up once its domain is usable; the loss of P12AUX stops the Keep and the Belfry and leaves
memory empty; power-on starts the Keep on a copy that verifies, and keeps the anchors. Model's part: That PERST_N zeroes
memory at once, and which copy the Keep starts from, are the model's choice (log entries 12, 47). -/
def Obligations.DeviceResets : Prop :=
  (∀ s : State, s.img.load = none →
    ∀ q ∈ ([(.perstNFall, !s.host.perst, 1), (.pfFlr, fnUp s 0, 2)] : List (Instr × Bool × Nat)), q.2.1 = true →
      Does q.1 s fun s' =>
        s'.mbx.threads = [] ∧ s'.op.table = [] ∧ s'.insts = [] ∧ s'.host.scrub = true ∧
          s'.reg.resetCause = s.reg.resetCause ||| BitVec.ofNat 5 (2 ^ q.2.2) ∧
          s'.img.images = s.img.images ∧ s'.keep.running = s.keep.running ∧ s'.time.belfry = s.time.belfry ∧
          ∀ x, cellGet s'.mem.cells x = if protectedAt x then cellGet s.mem.cells x else 0) ∧
  (∀ s : State, s.host.perst = true →
    Does .perstNRise s fun s' => s' = { s with host.perst := false, host.linkUp := domUsable s 42 }) ∧
  (∀ s : State, s.host.scrub = true → Does .perstScrubDone s fun s' => s' = { s with host.scrub := false }) ∧
  (∀ s : State, s.pwr.p12ok = true →
    Does .p12auxLoss s fun s' => s'.pwr.p12ok = false ∧ s'.keep.running = false ∧ s'.time = {} ∧ s'.mem.cells = [] ∧
      s'.mbx.threads = []) ∧
  ∀ (s : State) (a b : Bool), s.pwr.p12ok = false →
    Does (.p12auxQualified a b) s fun s' =>
      s'.pwr.p12ok = true ∧ s'.keep.running = (a || b) ∧ s'.keep.recovery = (!a && !b) ∧ s'.img.anchors = s.img.anchors ∧
        s'.img.zeroise = s.img.zeroiseFlag ∧ s'.mem.cells = [] ∧ s'.reg.resetCause = 1 ∧ s'.pending = s.pending

/-- O55. R399 to R409, R473: P48 qualifies within its range, warns below 40.0 V with ALERT_N, and its loss leaves every
domain off and memory empty; a shorted pin is reported until a retry finds it free; a domain starts on request once
those it depends on are usable, is refused while the trip is latched, goes off when nothing needs it, and is usable in
its turn. Model's part: The effects of a loss of P48 at once, and the uses that hold a domain, are a reading (log
entries 44, 45). -/
def Obligations.SuppliesAndDomains : Prop :=
  (∀ (s : State) (v : W16),
    (s.pwr.p12ok = true → s.pwr.p48ok = false → 3950 ≤ v.toNat → v.toNat ≤ 6050 →
      Does (.p48Qualified v) s fun s' => s'.pwr.p48ok = true ∧ s'.pwr.p48 = v) ∧
    (s.pwr.p48ok = true → s.pwr.p48warn = false → v.toNat < 4000 →
      Does (.p48Warning v) s fun s' => s'.pwr.p48warn = true ∧ s'.pwr.p48 = v ∧ s'.pwr.alert = true) ∧
    (s.pwr.p48warn = true → 4000 ≤ v.toNat → Does (.p48WarningEnd v) s fun s' => s'.pwr.p48warn = false ∧ s'.pwr.p48 = v) ∧
    (s.pwr.p48ok = true → (v.toNat < 3800 ∨ 6100 < v.toNat) →
      Does (.p48Loss v) s fun s' => s'.pwr.p48ok = false ∧ s'.mem.cells = [] ∧ s'.mbx.threads = [] ∧ s'.op.table = [] ∧
        ∀ d, getDom s' d = .off)) ∧
  (∀ (s : State) (p : Fin 9), s.keep.running = true →
    (s.pwr.short.getLsbD p = false → Does (.pinShort p) s fun s' =>
      s'.pwr.alert = true ∧ ∀ q : Fin 9, s'.pwr.short.getLsbD q = (decide (q = p) || s.pwr.short.getLsbD q)) ∧
    (s.pwr.short.getLsbD p = true → Does (.shortRetry p true) s fun s' =>
      ∀ q : Fin 9, s'.pwr.short.getLsbD q = (!decide (q = p) && s.pwr.short.getLsbD q))) ∧
  (∀ (s : State) (by_ : Requester) (d : BitVec 6), MayOrder s by_ .pwr → s.keep.running = true → s.pwr.domBusy = none → d.toNat < 47 →
    (s.pwr.trip = false → getDom s d.toNat = .off → (∀ x ∈ domDeps d.toNat, domUsable s x = true) →
      Does (.domainOn by_ d) s fun s' => getDom s' d.toNat = .starting ∧ s'.pwr.domBusy = some d.toNat) ∧
    (s.pwr.trip = true → Does (.domainOn by_ d) s fun s' => s'.pwr.domErr = 4 ∧ s'.pwr.domains = s.pwr.domains) ∧
    (getDom s d.toNat ≠ .off → domWorks s d.toNat = false → domNeeded s d.toNat = false →
      Does (.domainOff by_ d) s fun s' => getDom s' d.toNat = .off ∧ s'.pwr.domErr = 0) ∧
    (getDom s d.toNat ≠ .off → domWorks s d.toNat = true →
      Does (.domainOff by_ d) s fun s' => s'.pwr.domErr = 1 ∧ s'.pwr.domains = s.pwr.domains)) ∧
  ∀ (s : State) (d : Fin 47), getDom s d = .starting → s.pwr.p48ok = true → s.pwr.trip = false →
    Does (.domainUsable d) s fun s' => getDom s' d = .usable

/-- O56. R411 to R415, R417, R418, R420, R421, R430: a sample gives a sensor its reading and marks one out of range
FAILED; a cross-check marks a sensor SUSPECT at the tenth time in a row; throttling follows the hottest sensor and the
power cap; a trip latches its cause and leaves every domain off, until 30 s of cool sensors clear it; field references
follow their mean, the oscillator's temperature is kept while LOCKED, and metrology clears or fails a SUSPECT sensor.
Model's part: A sensor's neighbours are free values and an even median is the model's choice (log entry 20); a field's
sensors are presumed (log entry 21). -/
def Obligations.SensorsAndTrips : Prop :=
  (∀ (s : State) (i : Nat) (r : W16), s.keep.running = true → i < 296 →
    Does (.sensorSample [(i, r)]) s fun s' => (getSensor s' i).reading = r ∧
      ((toSigned 16 r.toNat < -320 ∨ 1200 < toSigned 16 r.toNat) → (getSensor s' i).mark = 2) ∧
      (-320 ≤ toSigned 16 r.toNat → toSigned 16 r.toNat ≤ 1200 → (getSensor s' i).mark = (getSensor s i).mark)) ∧
  (∀ (s : State) (i : Nat), s.keep.running = true → tabHas s.pwr.sensors i = true →
    (getSensor s i).mark = 0 →
    let x := getSensor s i
    let out := outOfLine x (nearReadings s i)
    Does .sensorCrosscheck s fun s' => (getSensor s' i).mark = (if out ∧ 9 ≤ x.run then 1 else 0) ∧
      (getSensor s' i).run = (if out ∧ x.run < 9 then x.run + 1 else 0)) ∧
  (∀ (s : State) (avg v : W16), s.keep.running = true →
    Does (.throttleUpdate avg v) s fun s' => s'.pwr.pAvg = avg ∧ s'.pwr.p48 = v ∧
      s'.pwr.rP = capFactor s.pwr.rP (avg.toNat * 10) (min (regFld s .pwr 0x018 0 11 * 100) (v.toNat * 26)) ∧
      ∀ g, g < 5 → tabGet 4096 s'.pwr.rT g = groupFactor s g) ∧
  (∀ (s : State) (d : BitVec 4) (k : Byte) (r : W16), s.pwr.p12ok = true → s.pwr.trip = false → d.toNat ≤ 5 →
    mayTrip s d.toNat k.toNat r = true →
    Does (.thermalTrip d k r) s fun s' => s'.pwr.trip = true ∧ s'.pwr.tripInfo = tripWord d.toNat k.toNat r.toNat ∧
      (∀ x, getDom s' x = .off) ∧ s'.mbx.threads = [] ∧ s'.mem.cells = []) ∧
  (∀ (s : State) (t : Nat), s.pwr.tripCool = some t → s.pwr.trip = true → t + 1200000000000 ≤ s.now →
    Does .tripClear s fun s' => s'.pwr.trip = false ∧ s'.reg.resetCause = s.reg.resetCause ||| BitVec.ofNat 5 (2 ^ 4)) ∧
  (∀ s : State, s.keep.running = true →
    Does .referenceCompensation s fun s' => ∀ k, k < 16 → tabGet 0 s'.pwr.fieldRef k = (fieldMean s k).getD (tabGet 0 s.pwr.fieldRef k)) ∧
  (∀ (s : State) (v : W16), s.keep.running = true → domUsable s 46 = true →
    Does (.oscTempRead v) s fun s' => s'.pwr.oscTemp = some v ∧
      (s.time.belfry.state = .locked → s'.pwr.oscRecs = s.pwr.oscRecs ++ [(v, s.time.belfry.freqAdj)])) ∧
  ∀ (s : State) (i : Nat) (v : W16), s.keep.running = true → i < 296 → domUsable s 46 = true →
    let x := getSensor s i
    let near := nearReadings s i
    (x.mark = 1 → Does (.fallbackMeasure i v) s fun s' =>
      let x' := getSensor s' i
      if (toSigned 16 v.toNat - reading x).natAbs ≤ 16 then x'.mark = 0
      else if near ≠ [] ∧ (2 * toSigned 16 v.toNat - median2 near).natAbs ≤ 32 then x'.mark = 2 ∧ x'.standIn = some v
      else x' = x) ∧
    (x.mark = 2 → Does (.fallbackMeasure i v) s fun s' => (getSensor s' i).standIn = some v)

/-- O57. R72, R138, R422, R425, R427 to R429, R431 to R433: a channel with a right descriptor runs and raises its request, one
whose descriptor is out of reach or wrong does not; STOP ends a channel at once or at its result; after INTERVAL it asks
again; a settled result is put in its ring and counted; a SENSE test keeps its findings; drift calibration marks its
field, and sends an ACTIVE array with a gain trim beyond 6 % to deep recalibration under RECAL_EN, and a field that missed its cycle is noted. Model's part: The order of the checks of START (log entry 24), the
instant of a new trim (log entry 23), the duration of a fallback measurement (log entry 25) and the one record of a
missed cycle (log entry 22) are the model's. -/
def Obligations.Metrology : Prop :=
  (∀ (s : State) (by_ : Requester) (c : Fin 5) (ch : Fin 8), MayOrder s by_ (.met c) →
    let k := c.val * 8 + ch.val
    let a := (regAct s (.met c) (0x040 + 16 * ch.val)).toNat
    let l := rdBytes s a 64
    ((getChan s k).running = false →
      (inInst s 0 a 64 = true → lineBad s a = false → chanOk s c l = true → domUsable s 46 = true →
        Does (.channelStart by_ c ch) s fun s' =>
          getChan s' k = { chanOf l with raised := true, age := s.now, requestedAt := s.now } ∧ s'.mem = s.mem) ∧
      ((inInst s 0 a 64 = false ∨ lineBad s a = true) →
        Does (.channelStart by_ c ch) s fun s' => getChan s' k = { err := 2 }) ∧
      (inInst s 0 a 64 = true → lineBad s a = false → chanOk s c l = false →
        Does (.channelStart by_ c ch) s fun s' => getChan s' k = { err := 1 })) ∧
    ((getChan s k).running = true →
      ((getMet s c).holder = some ch → Does (.channelStop by_ c ch) s fun s' => getChan s' k = { getChan s k with stopping := true }) ∧
      ((getMet s c).holder ≠ some ch → (getChan s k).doneCnt = 0 →
        Does (.channelStop by_ c ch) s fun s' => (getChan s' k).running = false ∧ (getChan s' k).err = 0))) ∧
  (∀ (s : State) (c : Fin 5) (ch : Fin 8),
    let k := c.val * 8 + ch.val
    let x := getChan s k
    (x.running = true → x.raised = false → x.requestedAt + x.interval * 40000 ≤ s.now →
      Does (.channelInterval c ch) s fun s' => getChan s' k = { x with raised := true, age := s.now, requestedAt := s.now }) ∧
    ∀ (code : BitVec 24) (clip : Bool), (getMet s c).holder = some ch → (getMet s c).settledAt ≤ s.now → chanProbes k x = false →
      metRingOk s x = true → x.doneCnt = 0 →
      Does (.metResult c code clip) s fun s' => s'.mem = (putResult s k x code clip).mem ∧ (getChan s' k).taken = x.taken + 1) ∧
  (∀ (s : State) (k : Fin 4) (f : SenseTest), probing s k = true →
    (∀ t, (tabGet ({} : Sense) s.met.senses k).probedAt = some t → t + 40000000000 ≤ s.now) →
    Does (.senseProbe k f) s fun s' =>
      let n := tabGet ({} : Sense) s'.met.senses k
      n.open_ = f.open_ ∧ n.short = f.short ∧ n.reversed = f.reversed ∧ n.probedAt = some s.now) ∧
  ∀ (s : State) (f : Fin 16) (l : List TrimWrite), s.keep.running = true →
    let place (y : TrimWrite) : Nat := f.val / 4 * 264 + f.val % 4 * 66 + y.tile.val
    (domUsable s 46 = true → Does (.driftCalibration f l) s fun s' =>
      tabGet 0 s'.met.driftAt f = s.now ∧ s'.met.missed.contains f.val = false ∧
        ((∀ y ∈ l, regFld s (tileBlk (place y)) 0x00C 4 1 = 0) → s'.mem = s.mem) ∧
        ∀ y a, l = [y] → logArr (getTile s (place y)) y.array = some a → (arrOf s (place y) y.array).st = .active →
          rewriteOf (getTile s (place y)) a = none → (getTile s (place y)).rewrites.length < 4 →
          regFld s (tileBlk (place y)) 0x00C 4 1 = 1 → gainBeyond 6 y.trim.gain = true →
          ∃ r ∈ (getTile s' (place y)).rewrites, r.logical = a ∧ r.kind = .recal ∧ r.old = y.array.val) ∧
    (s.met.missed.contains f.val = false → tabGet 0 s.met.driftAt f + 160000000000 ≤ s.now →
      Does (.driftMissed f) s fun s' => s'.met.missed = f.val :: s.met.missed)

/-- O58. R11, R146, R176, R372, R373, R446, R447, R452 to R454, R462: an 8-byte write of an IMM register through each view,
the first order of its cycle, stores what the view says; one that has lost every bit to another order of its cycle stores
nothing and sets its instance's CONFLICT; a block that its writer may not write sets DENIED, a narrow write sets SIZE_ERR,
and neither writes; a ring's BASE is written through its page; an 8-byte read of NOW returns both halves at once; a low
half read latches the high half, which the high half's read returns; a low half written is held, joined by the high half,
and dropped after 1 µs; a PEND write sets the entry at IDX, but for its reserved bit 15, and may advance IDX. Model's part:
What DENIED and SIZE_ERR answer (log entry 27) and which orders meet (log entry 73) are the model's choice. -/
def Obligations.RegisterAccess : Prop :=
  (∀ (s : State) (by_ : Requester) (v : W64), reqUp s by_ = true →
    let p := regPend s .global 0x020
    (mayWrite s by_ .global = true →
      (FirstOrder s → ∀ q ∈ ([(0x0020, v), (0x1020, p ||| v), (0x2020, p &&& ~~~v), (0x3020, p ^^^ v)] : List (BitVec 26 × W64)),
        Does (.regWrite by_ (.bar0 q.1) 8 v) s fun s' =>
          regAct s' .global 0x020 = q.2 ∧ regPend s' .global 0x020 = q.2 ∧ s'.mem = s.mem ∧ s'.pwr = s.pwr) ∧
      (let x := bitOrder s by_ .global 0x020 (2 ^ 64 - 1) v.toNat false
       bitsLost s x = 2 ^ 64 - 1 → Does (.regWrite by_ (.bar0 0x0020) 8 v) s fun s' =>
        s'.reg.vals = s.reg.vals ∧ (getInst s' x.inst).conflict = true) ∧
      Does (.regWrite by_ (.bar0 0x0020) 2 v) s fun s' =>
        s'.reg.vals = s.reg.vals ∧ (tabGet 0 s'.reg.blockStat (blkBase .global)).getLsbD 2 = true) ∧
    (mayWrite s by_ .global = false →
      Does (.regWrite by_ (.bar0 0x0020) 8 v) s fun s' =>
        s'.reg.vals = s.reg.vals ∧ (tabGet 0 s'.reg.blockStat (blkBase .global)).getLsbD 3 = true)) ∧
  (∀ (s : State) (n m : Inst) (j : Fin 4) (v : W64), reachesPage s n m = true → FirstOrder s →
    Does (.regWrite (.fn n) (.bar2 m (BitVec.ofNat 16 (0x40 * j.val))) 8 v) s fun s' =>
      getRing s' m j = { getRing s m j with base := v }) ∧
  (∀ (s : State) (by_ : Requester), reqUp s by_ = true → mayRead s by_ .belfry = true →
    let ns := s.time.belfry.ns
    (Does (.reg64LowRead by_ ⟨.bar0 0x10008, 8⟩) s fun s' => s'.host.readOut = toBytes ns.toNat 8 ∧ s'.reg = s.reg) ∧
    (Does (.reg64LowRead by_ ⟨.bar0 0x10008, 4⟩) s fun s' => s'.host.readOut = toBytes (ns.toNat % 2 ^ 32) 4 ∧
      ∃ l, latchOf s' by_ .belfry false = some l ∧ l.reg = 0x008 ∧ l.view = .base ∧ l.value = ns.extractLsb' 32 32 ∧
        l.frac = s.time.belfry.frac) ∧
    ∀ l, latchOf s by_ .belfry false = some l → l.reg = 0x008 → l.view = .base →
      Does (.reg64HighRead by_ 0x1000C) s fun s' => s' = { s with host.readOut := toBytes l.value.toNat 4 }) ∧
  (∀ (s : State) (by_ : Requester) (v : W32), MayOrder s by_ .global →
    (Does (.reg64LowWrite by_ 0x0020 v) s fun s' => s'.reg.vals = s.reg.vals ∧
      ∃ l, latchOf s' by_ .global true = some l ∧ l.reg = 0x020 ∧ l.value = v) ∧
    ∀ l, latchOf s by_ .global true = some l → l.reg = 0x020 → l.view = .base →
      Does (.reg64HighWrite by_ 0x0020 v) s fun s' => regAct s' .global 0x020 = v ++ l.value ∧ regPend s' .global 0x020 = v ++ l.value) ∧
  (∀ (s : State) (by_ : Requester),
    Does (.reg64LatchExpiry by_ 0x0020) s fun s' => ∀ l, l ∈ s'.reg.latches ↔
      l ∈ s.reg.latches ∧ ¬(l.req = by_ ∧ l.block = blkBase .global ∧ l.write = true ∧ l.at_ + 40000 < s.now)) ∧
  ∀ (s : State) (by_ : Requester) (v : W64), MayOrder s by_ .route →
    let i := regFld s .route 0x008 0 16
    Does (.routePendWrite by_ .base v) s fun s' =>
      tabGet 0 s'.reg.routePend i = v &&& ~~~0x8000 ∧ s'.reg.routeAct = s.reg.routeAct ∧
        regFld s' .route 0x008 0 16 = if regFld s .route 0x008 16 1 = 1 then (i + 1) % 2 ^ 16 else i

/-- O59. R123, R374, R375, R435 to R438, R456, R457, R471: the commands of the Keep: RESTORE_FACTORY and ZEROISE begin,
or fail for a wrong argument; a sweep begins under its condition and fails with CAL_COND without; a new set has the next
generation; a retest begins for a fenced unit and lifts its fence when it passes; the owner revokes, raises a floor,
anchors and sets the policy; an unlisted code, no answer within 10 ms and a restart end a command; firmware is taken up
in recovery at once. Model's part: The instants at which a sweep checks its condition (log entry 49) and what a retest
leaves behind (log entry 42) are the model's choice. -/
def Obligations.KeepCommands : Prop :=
  (∀ (s : State) (by_ : Requester) (arg : W64), MayOrder s by_ .keep → s.keep.busy = none → s.keep.running = true →
    let done (c : Instr) (r : Byte) := Does c s fun s' => s'.keep.busy = none ∧ s'.keep.done = true ∧ s'.keep.result = r
    let k := bits arg.toNat 0 4
    let a := s.img.anchors
    (s.img.zeroise = false → s.img.zeroiseFlag = false → s.keep.restoring = none →
      Does (.keepRestoreFactory by_) s fun s' =>
        s'.keep.busy = some .restoreFactory ∧ s'.img.userSets = [] ∧ s'.keep.restoring = some (epochNo s)) ∧
    (arg ≠ 0x5A45 → done (.keepZeroise by_ arg) 3) ∧
    (s.img.zeroise = false → s.img.zeroiseFlag = false → s.op.table = [] → s.img.load = none →
      Does (.keepZeroise by_ 0x5A45) s fun s' => s'.img.zeroise = true ∧ s'.img.zeroiseFlag = true ∧ s'.img.images = [] ∧
        s'.flt.devFence = true ∧ s'.keep.busy = some .zeroise) ∧
    (∀ ref : W16, s.keep.restoring = none →
      ∀ q ∈ ([(.sweepConverter by_, 0, 0), (.sweepSensor by_ ref, 1, ref), (.sweepOscillator by_, 2, 0),
          (.sweepReference by_, 3, 0)] : List (Instr × Nat × W16)),
        (sweepCond s q.2.1 = true → Does q.1 s fun s' => s'.keep.busy = some (.sweep q.2.1 q.2.2)) ∧
        (sweepCond s q.2.1 = false → done q.1 8)) ∧
    (unitExists (argUnit arg) = true → (argUnit arg).kind ≠ 3 →
      (faultFenced s (argUnit arg) = true → Does (.retest by_ arg) s fun s' => s'.keep.busy = some (.retest (argUnit arg))) ∧
      (faultFenced s (argUnit arg) = false → done (.retest by_ arg) 7)) ∧
    (fromOwner s by_ = true → s.img.zeroise = false → s.img.zeroiseFlag = false →
      (Does (.otpRevoke by_ arg) s fun s' => (getAnchor s' k).revoked = true ∧ (getAnchor s' k).hash = (getAnchor s k).hash) ∧
      ((getAnchor s k).floor ≤ bits arg.toNat 8 7 → bits arg.toNat 8 7 ≤ 64 →
        Does (.otpFloor by_ arg) s fun s' => (getAnchor s' k).floor = bits arg.toNat 8 7) ∧
      (bits arg.toNat 8 7 < (getAnchor s k).floor → Does (.otpFloor by_ arg) s fun s' => s'.img.anchors = a ∧ s'.keep.result = 7) ∧
      (let n := rdNat s arg.toNat 1
       inInst s 0 arg.toNat 64 = true → rangeBad s arg.toNat 64 = false → n < 16 → (getAnchor s n).valid = false →
        Does (.otpAnchor by_ arg) s fun s' => (getAnchor s' n).valid = true ∧
          (getAnchor s' n).hash = BitVec.ofNat 384 (rdNat s (arg.toNat + 16) 48)) ∧
      (Does (.otpPolicyBoth by_) s fun s' => s'.img.policyBoth = true)) ∧
    (fromOwner s by_ = false → ∀ c ∈ [Instr.otpRevoke by_ arg, .otpFloor by_ arg, .otpAnchor by_ arg, .otpPolicyBoth by_], done c 6) ∧
    ∀ c : Byte, c ∉ [0x01, 0x02, 0x03, 0x04, 0x10, 0x11, 0x12, 0x13] → done (.badCode by_ c) 2) ∧
  (∀ (s : State) (e : Nat), s.keep.restoring = some e → s.keep.running = true → e < epochNo s →
    Does .restoreFactoryDone s fun s' => s'.keep.restoring = none ∧
      (s.keep.busy = some .restoreFactory → s'.keep.busy = none ∧ s'.keep.done = true ∧ s'.keep.result = 0)) ∧
  (∀ (s : State) (n : Nat) (ref : W16) (l : List (Nat × Byte)), s.keep.busy = some (.sweep n ref) → s.keep.running = true →
    (sweepCond s n = true → Does (.sweepDone l) s fun s' =>
      s'.img.calGen = s.img.calGen + 1 ∧ (s'.img.userSets.map (·.generation)).head? = some (s.img.calGen + 1) ∧ s'.keep.result = 0 ∧
        s'.keep.busy = none) ∧
    (sweepCond s n = false → Does (.sweepDone l) s fun s' => s'.img = s.img ∧ s'.keep.result = 8 ∧ s'.keep.busy = none)) ∧
  (∀ (s : State) (n : Fin 8) (ok : Bool), s.keep.busy = some (.retest (unitOf 5 n)) → s.keep.running = true →
    Does (.retestDone ok) s fun s' => s'.keep.busy = none ∧ s'.keep.result = (if ok then 0 else 0x0A) ∧
      s'.op.attnFenced.getLsbD n = (!ok && s.op.attnFenced.getLsbD n)) ∧
  (∀ s : State, s.keep.busy = some .unanswered → s.keep.since + 400000000 ≤ s.now →
    Does .keepCommandTimeout s fun s' => s'.keep.busy = none ∧ s'.keep.done = true ∧ s'.keep.result = 5) ∧
  ∀ (s : State) (a b : Bool),
    (s.keep.running = true → Does (.keepWatchdog a b) s fun s' =>
      s'.keep.running = (a || b) ∧ s'.keep.recovery = (!a && !b) ∧ s'.keep.busy = none ∧ s'.mbx = s.mbx ∧
        (s.keep.busy.isSome = true → s'.keep.result = 5)) ∧
    (s.keep.recovery = true → Does (.pldmFirmwareUpdate a) s fun s' => s'.keep.fwA = a ∧ s'.keep.running = a) ∧
    (s.keep.recovery = false → Does (.pldmFirmwareUpdate a) s fun s' => s'.keep.fwA = a ∧ s'.keep.fwNew = true ∧ s'.mbx = s.mbx)

/-- O60. R195, R196, R206, R216, R189: a word whose guard is false retires with no effect; a misaligned LD or ST raises
ALIGN with the address and the size, and one outside the instance's memory raises ACCESS; RDREG, WRREG, TCTL and MGMT of
a thread that is not privileged raise PRIV with their opcode. In each case the handler is entered, no other thread
differs, and memory differs at most by the thread's buffered stores. -/
def Obligations.GuardsAndTraps : Prop :=
  ∀ (s : State) (t : Tid) (g : Guard) (d a b : GReg) (z : BitVec 2) (sx : Bool) (off : BitVec 24),
    let th := getThr s t.toNat
    let x := gRd th a + off.signExtend 64
    let n := 2 ^ z.toNat
    let others (s' : State) := (∀ u, u ≠ t.toNat → getThr s' u = getThr s u) ∧
      ((∀ c, coreOf th = some c → (getCore s c).stores = []) → s'.mem = s.mem)
    (canIssue s t.toNat = true → fetchFault s t.toNat = none → guardOf th g = false →
      ∀ c ∈ [Instr.add t g d a (.reg b), .ld t g d a 0 false off, .st t g a b z off, .amoAdd t g d a b true, .brk t g 0, .yield t g],
        Does c s fun s' => ThreadFrame s s' t ∧ getThr s' t.toNat = { th with pc := th.pc + 8, retired := th.retired + 1 }) ∧
    (Issues s t g → CanEnter th → (sx && z == 3) = false →
      ∀ q ∈ ([(.ld t g d a z sx off, 0), (.st t g a b z off, 1)] : List (Instr × W32)),
        (x.toNat % n ≠ 0 → Does q.1 s fun s' =>
          Entered th (getThr s' t.toNat) 0x03 x (BitVec.ofNat 32 n) ∧ others s') ∧
        (x.toNat % n = 0 → inInst s th.inst x.toNat n = false → Does q.1 s fun s' =>
          Entered th (getThr s' t.toNat) 0x04 x q.2 ∧ others s')) ∧
    (Issues s t g → CanEnter th → th.priv = false →
      ∀ q ∈ ([(.rdreg t g d a, 0x3C), (.wrreg t g a b, 0x3C), (.tctlSuspend t g d a, 0x3D), (.tctlResume t g d a, 0x3D),
          (.tctlAbort t g d a, 0x3D), (.restoreFactory t g d, 0x3E), (.zeroise t g d, 0x3E)] : List (Instr × W32)),
        Does q.1 s fun s' => Entered th (getThr s' t.toNat) 0x02 0 q.2 ∧ others s')
end

