-- ==== Sys2Proof/Laws/Memory.lean ====
section
/-! SUPPORT. The laws of memory: a read after a write, a write leaves every other byte alone, and every memory operation
keeps the canonical form. -/

namespace Sys2Proof.Machine

open Sys2Proof

/-! ## One byte -/

theorem cellGet_cellDel (m : List Host.Cell) (n x : Nat) : cellGet (cellDel m n) x = if x = n then 0 else cellGet m x := by
  induction m with
  | nil => simp [cellDel, cellGet]
  | cons c r ih =>
    obtain ⟨k, w⟩ := c
    simp only [cellDel]
    split
    · subst_vars; simp only [ih, cellGet]; split <;> simp_all
    · simp only [cellGet, ih]; by_cases h : x = k <;> simp [h]
      intro h'; omega

theorem cellGet_cellSet (m : List Host.Cell) (n x : Nat) (v : Byte) :
    cellGet (cellSet m n v) x = if x = n then v else cellGet m x := by
  induction m with
  | nil => simp [cellSet, cellGet]
  | cons c r ih =>
    obtain ⟨k, w⟩ := c
    simp only [cellSet]
    split
    · simp only [cellGet]
    · split
      · subst_vars; simp only [cellGet]; split <;> simp_all
      · simp only [cellGet, ih]; by_cases h : x = k <;> simp [h]
        intro h'; omega

/-- A byte read after a byte written. -/
theorem cellGet_cellPut (m : List Host.Cell) (n x : Nat) (v : Byte) :
    cellGet (cellPut m n v) x = if x = n then v else cellGet m x := by
  unfold cellPut
  split
  · subst_vars; exact cellGet_cellDel m n x
  · exact cellGet_cellSet m n x v

theorem cellGet_filter (m : List Host.Cell) (p : Nat → Bool) (x : Nat) :
    cellGet (m.filter fun c => p c.1) x = if p x then cellGet m x else 0 := by
  induction m with
  | nil => simp [cellGet]
  | cons c r ih =>
    obtain ⟨k, w⟩ := c
    simp only [List.filter_cons]
    split
    · simp only [cellGet, ih]; split <;> simp_all
    · rw [ih]; simp only [cellGet]
      split
      · split
        · simp_all
        · rfl
      · rfl

/-- Zeroing a range reads as 0 there, and as before elsewhere. -/
theorem cellGet_cellsZero (m : List Host.Cell) (a n x : Nat) :
    cellGet (cellsZero m a n) x = if x < a ∨ a + n ≤ x then cellGet m x else 0 := by
  have h := cellGet_filter m (fun k => decide (k < a) || decide (a + n ≤ k)) x
  simpa [cellsZero] using h

/-! ## The canonical form -/

theorem cellsFrom_le {lo lo' : Nat} {m : List Host.Cell} (h : lo ≤ lo') (hm : cellsFrom lo' m = true) :
    cellsFrom lo m = true := by
  cases m with
  | nil => rfl
  | cons c r => simp only [cellsFrom, Bool.and_eq_true, decide_eq_true_eq] at hm ⊢; exact ⟨⟨by omega, hm.1.2⟩, hm.2⟩

theorem cellsFrom_filter {lo : Nat} {m : List Host.Cell} (p : Host.Cell → Bool) (h : cellsFrom lo m = true) :
    cellsFrom lo (m.filter p) = true := by
  induction m generalizing lo with
  | nil => rfl
  | cons c r ih =>
    obtain ⟨k, w⟩ := c
    simp only [cellsFrom, Bool.and_eq_true, decide_eq_true_eq] at h
    simp only [List.filter_cons]
    split
    · simp only [cellsFrom, Bool.and_eq_true, decide_eq_true_eq]; exact ⟨h.1, ih h.2⟩
    · exact cellsFrom_le (by omega) (ih h.2)

theorem cellsFrom_cellDel {lo : Nat} {m : List Host.Cell} (n : Nat) (h : cellsFrom lo m = true) :
    cellsFrom lo (cellDel m n) = true := by
  induction m generalizing lo with
  | nil => rfl
  | cons c r ih =>
    obtain ⟨k, w⟩ := c
    simp only [cellsFrom, Bool.and_eq_true, decide_eq_true_eq] at h
    simp only [cellDel]
    split
    · exact cellsFrom_le (by omega) (ih h.2)
    · simp only [cellsFrom, Bool.and_eq_true, decide_eq_true_eq]; exact ⟨h.1, ih h.2⟩

theorem cellsFrom_cellSet {lo : Nat} {m : List Host.Cell} {n : Nat} {v : Byte} (hn : lo ≤ n) (hv : v ≠ 0)
    (h : cellsFrom lo m = true) : cellsFrom lo (cellSet m n v) = true := by
  induction m generalizing lo with
  | nil => simpa [cellSet, cellsFrom, hn] using hv
  | cons c r ih =>
    obtain ⟨k, w⟩ := c
    simp only [cellsFrom, Bool.and_eq_true, decide_eq_true_eq] at h
    simp only [cellSet]
    split
    · simp only [cellsFrom, Bool.and_eq_true, decide_eq_true_eq, bne_iff_ne, ne_eq]
      exact ⟨⟨hn, hv⟩, ⟨by omega, by simpa using h.1.2⟩, h.2⟩
    · split
      · subst_vars
        simp only [cellsFrom, Bool.and_eq_true, decide_eq_true_eq, bne_iff_ne, ne_eq]
        exact ⟨⟨hn, hv⟩, h.2⟩
      · simp only [cellsFrom, Bool.and_eq_true, decide_eq_true_eq]
        exact ⟨h.1, ih (by omega) h.2⟩

/-- A byte written keeps the canonical form. -/
theorem cellPut_wf {m : List Host.Cell} (n : Nat) (v : Byte) (h : Memory.wf m = true) : Memory.wf (cellPut m n v) = true := by
  unfold Memory.wf cellPut at *
  split
  · exact cellsFrom_cellDel n h
  · exact cellsFrom_cellSet (Nat.zero_le n) ‹_› h

/-- Leaving cells out keeps the canonical form. -/
@[simp] theorem filter_wf {m : List Host.Cell} (p : Host.Cell → Bool) (h : Memory.wf m = true) :
    Memory.wf (m.filter p) = true := cellsFrom_filter p h

@[simp] theorem cellsZero_wf {m : List Host.Cell} (a n : Nat) (h : Memory.wf m = true) :
    Memory.wf (cellsZero m a n) = true := filter_wf _ h

@[simp] theorem nil_wf : Memory.wf [] = true := rfl

/-- In canonical form, equal reads are equal memories. -/
theorem cellGet_below {lo x : Nat} {m : List Host.Cell} (h : cellsFrom lo m = true) (hx : x < lo) : cellGet m x = 0 := by
  induction m generalizing lo with
  | nil => rfl
  | cons c r ih =>
    obtain ⟨k, w⟩ := c
    simp only [cellsFrom, Bool.and_eq_true, decide_eq_true_eq] at h
    simp only [cellGet]
    split
    · omega
    · exact ih h.2 (by omega)

/-! ## Ranges -/

/-- The fold of `wrStacked`: it keeps the canonical form. -/
theorem put_wf (skip : Nat → Bool) (l : List (Byte × Nat)) {m : List Host.Cell} (h : Memory.wf m = true) :
    Memory.wf (l.foldl (fun m (b, x) => if skip x then m else cellPut m x b) m) = true := by
  induction l generalizing m with
  | nil => exact h
  | cons c r ih =>
    obtain ⟨b, x⟩ := c
    simp only [List.foldl_cons]
    apply ih
    split
    · exact h
    · exact cellPut_wf x b h

theorem length_upFrom (a n : Nat) : (upFrom a n).length = n := by
  induction n generalizing a with
  | zero => rfl
  | succ n ih => simp [upFrom, ih]

theorem put_get (skip : Nat → Bool) (bs : List Byte) (a x : Nat) (m : List Host.Cell) :
    cellGet ((bs.zip (upFrom a bs.length)).foldl (fun m (b, y) => if skip y then m else cellPut m y b) m) x =
      if a ≤ x ∧ x < a + bs.length ∧ skip x = false then bs.getD (x - a) 0 else cellGet m x := by
  induction bs generalizing a m with
  | nil => rw [if_neg (by simp only [List.length_nil]; omega)]; rfl
  | cons b r ih =>
    simp only [List.length_cons, upFrom, List.zip_cons_cons, List.foldl_cons]
    have e : cellGet (if skip a = true then m else cellPut m a b) x =
        if x = a ∧ skip a = false then b else cellGet m x := by
      cases hs : skip a <;> simp [cellGet_cellPut]
    rw [ih, e]
    rcases Nat.lt_trichotomy x a with h | h | h
    · rw [if_neg (by omega), if_neg (by omega), if_neg (by omega)]
    · subst h
      rw [if_neg (by omega)]
      cases hs : skip x <;> simp
    · have q : (a + 1 ≤ x ∧ x < a + 1 + r.length ∧ skip x = false) ↔ (a ≤ x ∧ x < a + (r.length + 1) ∧ skip x = false) := by
        constructor <;> rintro ⟨_, _, _⟩ <;> refine ⟨?_, ?_, ?_⟩ <;> first | omega | assumption
      rw [if_neg (show ¬(x = a ∧ skip a = false) by omega)]
      by_cases hq : a + 1 ≤ x ∧ x < a + 1 + r.length ∧ skip x = false
      · rw [if_pos hq, if_pos (q.1 hq), show x - a = (x - (a + 1)) + 1 by omega]; simp
      · rw [if_neg hq, if_neg (fun h => hq (q.2 h))]

/-- What a write to stacked memory does, once and for all: each byte of the range whose stack is in service is the byte
written, every other byte is as before. -/
theorem wrStacked_get (s : State) (a x : Nat) (bs : List Byte) :
    cellGet (wrStacked s a bs).mem.cells x =
      if a ≤ x ∧ x < a + bs.length ∧ (getStack s (stackOf x)).fenced = false then bs.getD (x - a) 0
      else cellGet s.mem.cells x :=
  put_get (fun y => (getStack s (stackOf y)).fenced) bs a x s.mem.cells

@[simp] theorem wrStacked_stackTab (s : State) (a : Nat) (bs : List Byte) :
    (wrStacked s a bs).mem.stackTab = s.mem.stackTab := rfl

@[simp] theorem getStack_wrStacked (s : State) (a k : Nat) (bs : List Byte) : getStack (wrStacked s a bs) k = getStack s k := rfl

@[simp] theorem wrStacked_wf (s : State) (a : Nat) (bs : List Byte) (h : Memory.wf s.mem.cells = true) :
    Memory.wf (wrStacked s a bs).mem.cells = true :=
  put_wf (fun y => (getStack s (stackOf y)).fenced) (bs.zip (upFrom a bs.length)) h

@[simp] theorem wrBytes_wf (s : State) (i : Inst) (a : Nat) (bs : List Byte) (h : Memory.wf s.mem.cells = true) :
    Memory.wf (wrBytes s i a bs).mem.cells = true := by
  unfold wrBytes
  split
  · exact wrStacked_wf s a bs h
  · split <;> exact h

@[simp] theorem wrNat_wf (s : State) (i : Inst) (a n v : Nat) (h : Memory.wf s.mem.cells = true) :
    Memory.wf (wrNat s i a n v).mem.cells = true := wrBytes_wf s i a _ h

@[simp] theorem zeroRange_wf (s : State) (a n : Nat) (h : Memory.wf s.mem.cells = true) :
    Memory.wf (zeroRange s a n).mem.cells = true := cellsZero_wf a n h

/-- A range that is zeroed reads 0, and every other byte as before. -/
theorem zeroRange_get (s : State) (a n x : Nat) :
    cellGet (zeroRange s a n).mem.cells x = if x < a ∨ a + n ≤ x then cellGet s.mem.cells x else 0 :=
  cellGet_cellsZero s.mem.cells a n x

/-! ## Numbers -/

@[simp] theorem length_toBytes (v n : Nat) : (toBytes v n).length = n := by
  induction n generalizing v with
  | zero => rfl
  | succ n ih => simp [toBytes, ih]

theorem toBytes_getD (v n k : Nat) (h : k < n) : (toBytes v n).getD k 0 = BitVec.ofNat 8 (v / 256 ^ k) := by
  induction n generalizing v k with
  | zero => omega
  | succ n ih =>
    cases k with
    | zero => simp [toBytes]
    | succ k =>
      simp only [toBytes, List.getD_cons_succ, ih (v / 256) k (by omega)]
      rw [Nat.div_div_eq_div_mul, Nat.pow_succ, Nat.mul_comm]

/-- A number written to a stack in service reads back byte by byte. -/
theorem wrNat_get (s : State) (i : Inst) (a n v k : Nat) (ha : isStacked a = true) (hk : k < n)
    (hf : (getStack s (stackOf (a + k))).fenced = false) :
    cellGet (wrNat s i a n v).mem.cells (a + k) = BitVec.ofNat 8 (v / 256 ^ k) := by
  unfold wrNat wrBytes
  rw [if_pos ha, wrStacked_get, if_pos ⟨by omega, by simp; omega, hf⟩, show a + k - a = k by omega, toBytes_getD v n k hk]

theorem wrNat_get_other (s : State) (i : Inst) (a n v x : Nat) (h : x < a ∨ a + n ≤ x) :
    cellGet (wrNat s i a n v).mem.cells x = cellGet s.mem.cells x := by
  unfold wrNat wrBytes
  split
  · rw [wrStacked_get, if_neg]; simp only [length_toBytes]; omega
  · split <;> rfl

theorem ofBytes_lt (l : List Byte) : ofBytes l < 256 ^ l.length := by
  induction l with
  | nil => simp [ofBytes]
  | cons b r ih =>
    simp only [ofBytes, List.length_cons, Nat.pow_succ]
    have := b.isLt
    omega

theorem ofBytes_toBytes (v n : Nat) : ofBytes (toBytes v n) = v % 256 ^ n := by
  induction n generalizing v with
  | zero => simp [toBytes, ofBytes, Nat.mod_one]
  | succ n ih =>
    have e : v % 256 ^ (n + 1) = v % 256 + 256 * (v / 256 % 256 ^ n) := by
      rw [Nat.pow_succ, Nat.mul_comm (256 ^ n) 256, Nat.mod_mul]
    rw [e]
    simp only [toBytes, ofBytes, ih, BitVec.toNat_ofNat]

end Sys2Proof.Machine
end

