-- ==== Sys2Proof/Laws/Tab.lean ====
section
/-! SUPPORT. The laws of tables: a read after a write, and a write leaves every other number alone. They hold of every
table, in order or not. -/

namespace Sys2Proof.Machine

variable {α : Type}

theorem tabGet_tabPut (d : α) (t : Tab α) (n m : Nat) (v : α) :
    tabGet d (tabPut t n v) m = if m = n then v else tabGet d t m := by
  induction t with
  | nil => simp [tabPut, tabGet]
  | cons x r ih =>
    obtain ⟨k, w⟩ := x
    simp only [tabPut]
    split
    · subst_vars; simp only [tabGet]; split <;> simp_all
    · split
      · simp only [tabGet]
      · simp only [tabGet, ih]; by_cases h : m = k <;> simp [h]
        intro h'; omega

@[simp] theorem tabGet_tabPut_same (d : α) (t : Tab α) (n : Nat) (v : α) : tabGet d (tabPut t n v) n = v := by
  simp [tabGet_tabPut]

theorem tabGet_tabPut_other (d : α) (t : Tab α) (n m : Nat) (v : α) (h : m ≠ n) :
    tabGet d (tabPut t n v) m = tabGet d t m := by simp [tabGet_tabPut, h]

theorem tabGet_tabDel (d : α) (t : Tab α) (n m : Nat) : tabGet d (tabDel t n) m = if m = n then d else tabGet d t m := by
  induction t with
  | nil => simp [tabDel, tabGet]
  | cons x r ih =>
    obtain ⟨k, w⟩ := x
    simp only [tabDel]
    split
    · subst_vars; simp only [ih, tabGet]; split <;> simp_all
    · simp only [tabGet, ih]; by_cases h : m = k <;> simp [h]
      intro h'; omega

@[simp] theorem tabGet_tabDel_same (d : α) (t : Tab α) (n : Nat) : tabGet d (tabDel t n) n = d := by simp [tabGet_tabDel]

theorem tabHas_iff (t : Tab α) (n : Nat) : tabHas t n = true ↔ ∃ v, (n, v) ∈ t := by
  simp [tabHas]

theorem tabHas_tabDel (t : Tab α) (n m : Nat) : tabHas (tabDel t n) m = (tabHas t m && m != n) := by
  induction t with
  | nil => rfl
  | cons x r ih =>
    obtain ⟨k, w⟩ := x
    simp only [tabHas] at ih
    simp only [tabDel, tabHas]
    by_cases h : n = k
    · rw [if_pos h, ih, ← h, List.any_cons]
      by_cases h' : m = n
      · simp [h']
      · have hb : (n == m) = false := beq_false_of_ne (Ne.symm h')
        simp [hb]
    · rw [if_neg h, List.any_cons, List.any_cons, ih]
      by_cases h' : m = n
      · simp [h', Ne.symm h]
      · have hb : (m != n) = true := bne_iff_ne.mpr h'
        simp [hb]

theorem tabHas_tabPut (t : Tab α) (n m : Nat) (v : α) : tabHas (tabPut t n v) m = (tabHas t m || m == n) := by
  induction t with
  | nil => simp [tabPut, tabHas, Bool.beq_comm]
  | cons x r ih =>
    obtain ⟨k, w⟩ := x
    simp only [tabHas] at ih
    simp only [tabPut, tabHas]
    by_cases h : n = k
    · rw [if_pos h]; subst h
      by_cases h' : n = m
      · simp [h']
      · simp [h', Ne.symm h']
    · rw [if_neg h]
      split
      · simp only [List.any_cons]
        by_cases h' : n = m
        · simp [h']
        · have hb : (m == n) = false := beq_false_of_ne (Ne.symm h')
          have hc : (n == m) = false := beq_false_of_ne h'
          simp [hb, hc]
      · simp only [List.any_cons, ih, Bool.or_assoc]

theorem tabGet_map (d : α) (f : Nat → α → α) (hd : ∀ n, f n d = d) (t : Tab α) (n : Nat) :
    tabGet d (tabMap f t) n = f n (tabGet d t n) := by
  induction t with
  | nil => simp [tabMap, tabGet, hd]
  | cons x r ih =>
    obtain ⟨k, w⟩ := x
    simp only [tabMap, List.map_cons, tabGet] at ih ⊢
    split
    · subst_vars; rfl
    · exact ih

end Sys2Proof.Machine
end

