-- ==== Sys2Proof/Laws/State.lean ====
section
/-! SUPPORT. What each update of one entry changes, field by field; what a read gives after it; what a fold of updates
leaves; and which fields a reading depends on. -/

namespace Sys2Proof.Machine

open Sys2Proof

/-! ## Folds -/

theorem foldl_keeps {α β : Type} (π : State → β) (f : State → α → State) (h : ∀ s x, π (f s x) = π s) (l : List α)
    (s : State) : π (l.foldl f s) = π s := by
  induction l generalizing s with
  | nil => rfl
  | cons a r ih => simp only [List.foldl_cons, ih, h]

/-- A fold of steps that each keep memory canonical keeps it so. -/
@[simp] theorem foldl_wf {α : Type} (f : State → α → State)
    (h : ∀ s x, Memory.wf s.mem.cells = true → Memory.wf (f s x).mem.cells = true) (l : List α) (s : State)
    (hs : Memory.wf s.mem.cells = true) : Memory.wf (l.foldl f s).mem.cells = true := by
  induction l generalizing s with
  | nil => exact hs
  | cons a r ih => exact ih _ (h s a hs)

@[simp] theorem foldl_pending {α : Type} (f : State → α → State) (h : ∀ s x, (f s x).pending = s.pending) (l : List α) (s : State) :
    (l.foldl f s).pending = s.pending := foldl_keeps (·.pending) f h l s
@[simp] theorem foldl_now {α : Type} (f : State → α → State) (h : ∀ s x, (f s x).now = s.now) (l : List α) (s : State) :
    (l.foldl f s).now = s.now := foldl_keeps (·.now) f h l s
@[simp] theorem foldl_free {α : Type} (f : State → α → State) (h : ∀ s x, (f s x).free = s.free) (l : List α) (s : State) :
    (l.foldl f s).free = s.free := foldl_keeps (·.free) f h l s
@[simp] theorem foldl_time {α : Type} (f : State → α → State) (h : ∀ s x, (f s x).time = s.time) (l : List α) (s : State) :
    (l.foldl f s).time = s.time := foldl_keeps (·.time) f h l s
@[simp] theorem foldl_mbx {α : Type} (f : State → α → State) (h : ∀ s x, (f s x).mbx = s.mbx) (l : List α) (s : State) :
    (l.foldl f s).mbx = s.mbx := foldl_keeps (·.mbx) f h l s
@[simp] theorem foldl_op {α : Type} (f : State → α → State) (h : ∀ s x, (f s x).op = s.op) (l : List α) (s : State) :
    (l.foldl f s).op = s.op := foldl_keeps (·.op) f h l s
@[simp] theorem foldl_tile {α : Type} (f : State → α → State) (h : ∀ s x, (f s x).tile = s.tile) (l : List α) (s : State) :
    (l.foldl f s).tile = s.tile := foldl_keeps (·.tile) f h l s
@[simp] theorem foldl_img {α : Type} (f : State → α → State) (h : ∀ s x, (f s x).img = s.img) (l : List α) (s : State) :
    (l.foldl f s).img = s.img := foldl_keeps (·.img) f h l s
@[simp] theorem foldl_mem {α : Type} (f : State → α → State) (h : ∀ s x, (f s x).mem = s.mem) (l : List α) (s : State) :
    (l.foldl f s).mem = s.mem := foldl_keeps (·.mem) f h l s
@[simp] theorem foldl_host {α : Type} (f : State → α → State) (h : ∀ s x, (f s x).host = s.host) (l : List α) (s : State) :
    (l.foldl f s).host = s.host := foldl_keeps (·.host) f h l s
@[simp] theorem foldl_reg {α : Type} (f : State → α → State) (h : ∀ s x, (f s x).reg = s.reg) (l : List α) (s : State) :
    (l.foldl f s).reg = s.reg := foldl_keeps (·.reg) f h l s
@[simp] theorem foldl_insts {α : Type} (f : State → α → State) (h : ∀ s x, (f s x).insts = s.insts) (l : List α) (s : State) :
    (l.foldl f s).insts = s.insts := foldl_keeps (·.insts) f h l s
@[simp] theorem foldl_flt {α : Type} (f : State → α → State) (h : ∀ s x, (f s x).flt = s.flt) (l : List α) (s : State) :
    (l.foldl f s).flt = s.flt := foldl_keeps (·.flt) f h l s
@[simp] theorem foldl_fab {α : Type} (f : State → α → State) (h : ∀ s x, (f s x).fab = s.fab) (l : List α) (s : State) :
    (l.foldl f s).fab = s.fab := foldl_keeps (·.fab) f h l s
@[simp] theorem foldl_pwr {α : Type} (f : State → α → State) (h : ∀ s x, (f s x).pwr = s.pwr) (l : List α) (s : State) :
    (l.foldl f s).pwr = s.pwr := foldl_keeps (·.pwr) f h l s
@[simp] theorem foldl_met {α : Type} (f : State → α → State) (h : ∀ s x, (f s x).met = s.met) (l : List α) (s : State) :
    (l.foldl f s).met = s.met := foldl_keeps (·.met) f h l s
@[simp] theorem foldl_keep {α : Type} (f : State → α → State) (h : ∀ s x, (f s x).keep = s.keep) (l : List α) (s : State) :
    (l.foldl f s).keep = s.keep := foldl_keeps (·.keep) f h l s
@[simp] theorem foldl_arb {α : Type} (f : State → α → State) (h : ∀ s x, (f s x).arb = s.arb) (l : List α) (s : State) :
    (l.foldl f s).arb = s.arb := foldl_keeps (·.arb) f h l s

/-! ## Updates -/

@[simp] theorem setRegAct_pending (s : State) (b : Blk) (o : Nat) (v : W64) : (setRegAct s b o v).pending = s.pending := by rfl
@[simp] theorem setRegAct_now (s : State) (b : Blk) (o : Nat) (v : W64) : (setRegAct s b o v).now = s.now := by rfl
@[simp] theorem setRegAct_free (s : State) (b : Blk) (o : Nat) (v : W64) : (setRegAct s b o v).free = s.free := by rfl
@[simp] theorem setRegAct_time (s : State) (b : Blk) (o : Nat) (v : W64) : (setRegAct s b o v).time = s.time := by rfl
@[simp] theorem setRegAct_mbx (s : State) (b : Blk) (o : Nat) (v : W64) : (setRegAct s b o v).mbx = s.mbx := by rfl
@[simp] theorem setRegAct_op (s : State) (b : Blk) (o : Nat) (v : W64) : (setRegAct s b o v).op = s.op := by rfl
@[simp] theorem setRegAct_tile (s : State) (b : Blk) (o : Nat) (v : W64) : (setRegAct s b o v).tile = s.tile := by rfl
@[simp] theorem setRegAct_img (s : State) (b : Blk) (o : Nat) (v : W64) : (setRegAct s b o v).img = s.img := by rfl
@[simp] theorem setRegAct_mem (s : State) (b : Blk) (o : Nat) (v : W64) : (setRegAct s b o v).mem = s.mem := by rfl
@[simp] theorem setRegAct_host (s : State) (b : Blk) (o : Nat) (v : W64) : (setRegAct s b o v).host = s.host := by rfl
@[simp] theorem setRegAct_insts (s : State) (b : Blk) (o : Nat) (v : W64) : (setRegAct s b o v).insts = s.insts := by rfl
@[simp] theorem setRegAct_flt (s : State) (b : Blk) (o : Nat) (v : W64) : (setRegAct s b o v).flt = s.flt := by rfl
@[simp] theorem setRegAct_fab (s : State) (b : Blk) (o : Nat) (v : W64) : (setRegAct s b o v).fab = s.fab := by rfl
@[simp] theorem setRegAct_pwr (s : State) (b : Blk) (o : Nat) (v : W64) : (setRegAct s b o v).pwr = s.pwr := by rfl
@[simp] theorem setRegAct_met (s : State) (b : Blk) (o : Nat) (v : W64) : (setRegAct s b o v).met = s.met := by rfl
@[simp] theorem setRegAct_keep (s : State) (b : Blk) (o : Nat) (v : W64) : (setRegAct s b o v).keep = s.keep := by rfl
@[simp] theorem setRegAct_arb (s : State) (b : Blk) (o : Nat) (v : W64) : (setRegAct s b o v).arb = s.arb := by rfl
@[simp] theorem setRegAct_reg_pendAt (s : State) (b : Blk) (o : Nat) (v : W64) : (setRegAct s b o v).reg.pendAt = s.reg.pendAt := by rfl
@[simp] theorem setRegAct_reg_blockStat (s : State) (b : Blk) (o : Nat) (v : W64) : (setRegAct s b o v).reg.blockStat = s.reg.blockStat := by rfl
@[simp] theorem setRegAct_reg_latches (s : State) (b : Blk) (o : Nat) (v : W64) : (setRegAct s b o v).reg.latches = s.reg.latches := by rfl
@[simp] theorem setRegAct_reg_resetCause (s : State) (b : Blk) (o : Nat) (v : W64) : (setRegAct s b o v).reg.resetCause = s.reg.resetCause := by rfl
@[simp] theorem setRegAct_reg_routePend (s : State) (b : Blk) (o : Nat) (v : W64) : (setRegAct s b o v).reg.routePend = s.reg.routePend := by rfl
@[simp] theorem setRegAct_reg_routeAct (s : State) (b : Blk) (o : Nat) (v : W64) : (setRegAct s b o v).reg.routeAct = s.reg.routeAct := by rfl
@[simp] theorem setRegAct_reg_routeAt (s : State) (b : Blk) (o : Nat) (v : W64) : (setRegAct s b o v).reg.routeAt = s.reg.routeAt := by rfl

@[simp] theorem setRegPend_pending (s : State) (b : Blk) (o : Nat) (v : W64) : (setRegPend s b o v).pending = s.pending := by rfl
@[simp] theorem setRegPend_now (s : State) (b : Blk) (o : Nat) (v : W64) : (setRegPend s b o v).now = s.now := by rfl
@[simp] theorem setRegPend_free (s : State) (b : Blk) (o : Nat) (v : W64) : (setRegPend s b o v).free = s.free := by rfl
@[simp] theorem setRegPend_time (s : State) (b : Blk) (o : Nat) (v : W64) : (setRegPend s b o v).time = s.time := by rfl
@[simp] theorem setRegPend_mbx (s : State) (b : Blk) (o : Nat) (v : W64) : (setRegPend s b o v).mbx = s.mbx := by rfl
@[simp] theorem setRegPend_op (s : State) (b : Blk) (o : Nat) (v : W64) : (setRegPend s b o v).op = s.op := by rfl
@[simp] theorem setRegPend_tile (s : State) (b : Blk) (o : Nat) (v : W64) : (setRegPend s b o v).tile = s.tile := by rfl
@[simp] theorem setRegPend_img (s : State) (b : Blk) (o : Nat) (v : W64) : (setRegPend s b o v).img = s.img := by rfl
@[simp] theorem setRegPend_mem (s : State) (b : Blk) (o : Nat) (v : W64) : (setRegPend s b o v).mem = s.mem := by rfl
@[simp] theorem setRegPend_host (s : State) (b : Blk) (o : Nat) (v : W64) : (setRegPend s b o v).host = s.host := by rfl
@[simp] theorem setRegPend_insts (s : State) (b : Blk) (o : Nat) (v : W64) : (setRegPend s b o v).insts = s.insts := by rfl
@[simp] theorem setRegPend_flt (s : State) (b : Blk) (o : Nat) (v : W64) : (setRegPend s b o v).flt = s.flt := by rfl
@[simp] theorem setRegPend_fab (s : State) (b : Blk) (o : Nat) (v : W64) : (setRegPend s b o v).fab = s.fab := by rfl
@[simp] theorem setRegPend_pwr (s : State) (b : Blk) (o : Nat) (v : W64) : (setRegPend s b o v).pwr = s.pwr := by rfl
@[simp] theorem setRegPend_met (s : State) (b : Blk) (o : Nat) (v : W64) : (setRegPend s b o v).met = s.met := by rfl
@[simp] theorem setRegPend_keep (s : State) (b : Blk) (o : Nat) (v : W64) : (setRegPend s b o v).keep = s.keep := by rfl
@[simp] theorem setRegPend_arb (s : State) (b : Blk) (o : Nat) (v : W64) : (setRegPend s b o v).arb = s.arb := by rfl
@[simp] theorem setRegPend_reg_pendAt (s : State) (b : Blk) (o : Nat) (v : W64) : (setRegPend s b o v).reg.pendAt = s.reg.pendAt := by rfl
@[simp] theorem setRegPend_reg_blockStat (s : State) (b : Blk) (o : Nat) (v : W64) : (setRegPend s b o v).reg.blockStat = s.reg.blockStat := by rfl
@[simp] theorem setRegPend_reg_latches (s : State) (b : Blk) (o : Nat) (v : W64) : (setRegPend s b o v).reg.latches = s.reg.latches := by rfl
@[simp] theorem setRegPend_reg_resetCause (s : State) (b : Blk) (o : Nat) (v : W64) : (setRegPend s b o v).reg.resetCause = s.reg.resetCause := by rfl
@[simp] theorem setRegPend_reg_routePend (s : State) (b : Blk) (o : Nat) (v : W64) : (setRegPend s b o v).reg.routePend = s.reg.routePend := by rfl
@[simp] theorem setRegPend_reg_routeAct (s : State) (b : Blk) (o : Nat) (v : W64) : (setRegPend s b o v).reg.routeAct = s.reg.routeAct := by rfl
@[simp] theorem setRegPend_reg_routeAt (s : State) (b : Blk) (o : Nat) (v : W64) : (setRegPend s b o v).reg.routeAt = s.reg.routeAt := by rfl

@[simp] theorem setStack_pending (s : State) (n : Nat) (v : Stack) : (setStack s n v).pending = s.pending := by rfl
@[simp] theorem setStack_now (s : State) (n : Nat) (v : Stack) : (setStack s n v).now = s.now := by rfl
@[simp] theorem setStack_free (s : State) (n : Nat) (v : Stack) : (setStack s n v).free = s.free := by rfl
@[simp] theorem setStack_time (s : State) (n : Nat) (v : Stack) : (setStack s n v).time = s.time := by rfl
@[simp] theorem setStack_mbx (s : State) (n : Nat) (v : Stack) : (setStack s n v).mbx = s.mbx := by rfl
@[simp] theorem setStack_op (s : State) (n : Nat) (v : Stack) : (setStack s n v).op = s.op := by rfl
@[simp] theorem setStack_tile (s : State) (n : Nat) (v : Stack) : (setStack s n v).tile = s.tile := by rfl
@[simp] theorem setStack_img (s : State) (n : Nat) (v : Stack) : (setStack s n v).img = s.img := by rfl
@[simp] theorem setStack_host (s : State) (n : Nat) (v : Stack) : (setStack s n v).host = s.host := by rfl
@[simp] theorem setStack_reg (s : State) (n : Nat) (v : Stack) : (setStack s n v).reg = s.reg := by rfl
@[simp] theorem setStack_insts (s : State) (n : Nat) (v : Stack) : (setStack s n v).insts = s.insts := by rfl
@[simp] theorem setStack_flt (s : State) (n : Nat) (v : Stack) : (setStack s n v).flt = s.flt := by rfl
@[simp] theorem setStack_fab (s : State) (n : Nat) (v : Stack) : (setStack s n v).fab = s.fab := by rfl
@[simp] theorem setStack_pwr (s : State) (n : Nat) (v : Stack) : (setStack s n v).pwr = s.pwr := by rfl
@[simp] theorem setStack_met (s : State) (n : Nat) (v : Stack) : (setStack s n v).met = s.met := by rfl
@[simp] theorem setStack_keep (s : State) (n : Nat) (v : Stack) : (setStack s n v).keep = s.keep := by rfl
@[simp] theorem setStack_arb (s : State) (n : Nat) (v : Stack) : (setStack s n v).arb = s.arb := by rfl
@[simp] theorem setStack_mem_cells (s : State) (n : Nat) (v : Stack) : (setStack s n v).mem.cells = s.mem.cells := by rfl
@[simp] theorem setStack_mem_poison (s : State) (n : Nat) (v : Stack) : (setStack s n v).mem.poison = s.mem.poison := by rfl

@[simp] theorem setInst_pending (s : State) (n : Nat) (v : Instance) : (setInst s n v).pending = s.pending := by rfl
@[simp] theorem setInst_now (s : State) (n : Nat) (v : Instance) : (setInst s n v).now = s.now := by rfl
@[simp] theorem setInst_free (s : State) (n : Nat) (v : Instance) : (setInst s n v).free = s.free := by rfl
@[simp] theorem setInst_time (s : State) (n : Nat) (v : Instance) : (setInst s n v).time = s.time := by rfl
@[simp] theorem setInst_mbx (s : State) (n : Nat) (v : Instance) : (setInst s n v).mbx = s.mbx := by rfl
@[simp] theorem setInst_op (s : State) (n : Nat) (v : Instance) : (setInst s n v).op = s.op := by rfl
@[simp] theorem setInst_tile (s : State) (n : Nat) (v : Instance) : (setInst s n v).tile = s.tile := by rfl
@[simp] theorem setInst_img (s : State) (n : Nat) (v : Instance) : (setInst s n v).img = s.img := by rfl
@[simp] theorem setInst_mem (s : State) (n : Nat) (v : Instance) : (setInst s n v).mem = s.mem := by rfl
@[simp] theorem setInst_host (s : State) (n : Nat) (v : Instance) : (setInst s n v).host = s.host := by rfl
@[simp] theorem setInst_reg (s : State) (n : Nat) (v : Instance) : (setInst s n v).reg = s.reg := by rfl
@[simp] theorem setInst_flt (s : State) (n : Nat) (v : Instance) : (setInst s n v).flt = s.flt := by rfl
@[simp] theorem setInst_fab (s : State) (n : Nat) (v : Instance) : (setInst s n v).fab = s.fab := by rfl
@[simp] theorem setInst_pwr (s : State) (n : Nat) (v : Instance) : (setInst s n v).pwr = s.pwr := by rfl
@[simp] theorem setInst_met (s : State) (n : Nat) (v : Instance) : (setInst s n v).met = s.met := by rfl
@[simp] theorem setInst_keep (s : State) (n : Nat) (v : Instance) : (setInst s n v).keep = s.keep := by rfl
@[simp] theorem setInst_arb (s : State) (n : Nat) (v : Instance) : (setInst s n v).arb = s.arb := by rfl

@[simp] theorem setTile_pending (s : State) (n : Nat) (v : Tile) : (setTile s n v).pending = s.pending := by rfl
@[simp] theorem setTile_now (s : State) (n : Nat) (v : Tile) : (setTile s n v).now = s.now := by rfl
@[simp] theorem setTile_free (s : State) (n : Nat) (v : Tile) : (setTile s n v).free = s.free := by rfl
@[simp] theorem setTile_time (s : State) (n : Nat) (v : Tile) : (setTile s n v).time = s.time := by rfl
@[simp] theorem setTile_mbx (s : State) (n : Nat) (v : Tile) : (setTile s n v).mbx = s.mbx := by rfl
@[simp] theorem setTile_op (s : State) (n : Nat) (v : Tile) : (setTile s n v).op = s.op := by rfl
@[simp] theorem setTile_img (s : State) (n : Nat) (v : Tile) : (setTile s n v).img = s.img := by rfl
@[simp] theorem setTile_mem (s : State) (n : Nat) (v : Tile) : (setTile s n v).mem = s.mem := by rfl
@[simp] theorem setTile_host (s : State) (n : Nat) (v : Tile) : (setTile s n v).host = s.host := by rfl
@[simp] theorem setTile_reg (s : State) (n : Nat) (v : Tile) : (setTile s n v).reg = s.reg := by rfl
@[simp] theorem setTile_insts (s : State) (n : Nat) (v : Tile) : (setTile s n v).insts = s.insts := by rfl
@[simp] theorem setTile_flt (s : State) (n : Nat) (v : Tile) : (setTile s n v).flt = s.flt := by rfl
@[simp] theorem setTile_fab (s : State) (n : Nat) (v : Tile) : (setTile s n v).fab = s.fab := by rfl
@[simp] theorem setTile_pwr (s : State) (n : Nat) (v : Tile) : (setTile s n v).pwr = s.pwr := by rfl
@[simp] theorem setTile_met (s : State) (n : Nat) (v : Tile) : (setTile s n v).met = s.met := by rfl
@[simp] theorem setTile_keep (s : State) (n : Nat) (v : Tile) : (setTile s n v).keep = s.keep := by rfl
@[simp] theorem setTile_arb (s : State) (n : Nat) (v : Tile) : (setTile s n v).arb = s.arb := by rfl
@[simp] theorem setTile_tile_tmap (s : State) (n : Nat) (v : Tile) : (setTile s n v).tile.tmap = s.tile.tmap := by rfl
@[simp] theorem setTile_tile_town (s : State) (n : Nat) (v : Tile) : (setTile s n v).tile.town = s.tile.town := by rfl

@[simp] theorem setThr_pending (s : State) (n : Nat) (v : Thread) : (setThr s n v).pending = s.pending := by rfl
@[simp] theorem setThr_now (s : State) (n : Nat) (v : Thread) : (setThr s n v).now = s.now := by rfl
@[simp] theorem setThr_free (s : State) (n : Nat) (v : Thread) : (setThr s n v).free = s.free := by rfl
@[simp] theorem setThr_time (s : State) (n : Nat) (v : Thread) : (setThr s n v).time = s.time := by rfl
@[simp] theorem setThr_op (s : State) (n : Nat) (v : Thread) : (setThr s n v).op = s.op := by rfl
@[simp] theorem setThr_tile (s : State) (n : Nat) (v : Thread) : (setThr s n v).tile = s.tile := by rfl
@[simp] theorem setThr_img (s : State) (n : Nat) (v : Thread) : (setThr s n v).img = s.img := by rfl
@[simp] theorem setThr_mem (s : State) (n : Nat) (v : Thread) : (setThr s n v).mem = s.mem := by rfl
@[simp] theorem setThr_host (s : State) (n : Nat) (v : Thread) : (setThr s n v).host = s.host := by rfl
@[simp] theorem setThr_reg (s : State) (n : Nat) (v : Thread) : (setThr s n v).reg = s.reg := by rfl
@[simp] theorem setThr_insts (s : State) (n : Nat) (v : Thread) : (setThr s n v).insts = s.insts := by rfl
@[simp] theorem setThr_flt (s : State) (n : Nat) (v : Thread) : (setThr s n v).flt = s.flt := by rfl
@[simp] theorem setThr_fab (s : State) (n : Nat) (v : Thread) : (setThr s n v).fab = s.fab := by rfl
@[simp] theorem setThr_pwr (s : State) (n : Nat) (v : Thread) : (setThr s n v).pwr = s.pwr := by rfl
@[simp] theorem setThr_met (s : State) (n : Nat) (v : Thread) : (setThr s n v).met = s.met := by rfl
@[simp] theorem setThr_keep (s : State) (n : Nat) (v : Thread) : (setThr s n v).keep = s.keep := by rfl
@[simp] theorem setThr_arb (s : State) (n : Nat) (v : Thread) : (setThr s n v).arb = s.arb := by rfl
@[simp] theorem setThr_mbx_orderNo (s : State) (n : Nat) (v : Thread) : (setThr s n v).mbx.orderNo = s.mbx.orderNo := by rfl
@[simp] theorem setThr_mbx_cores (s : State) (n : Nat) (v : Thread) : (setThr s n v).mbx.cores = s.mbx.cores := by rfl
@[simp] theorem setThr_mbx_gsteps (s : State) (n : Nat) (v : Thread) : (setThr s n v).mbx.gsteps = s.mbx.gsteps := by rfl
@[simp] theorem setThr_mbx_rings (s : State) (n : Nat) (v : Thread) : (setThr s n v).mbx.rings = s.mbx.rings := by rfl

@[simp] theorem setCore_pending (s : State) (n : Nat) (v : Core) : (setCore s n v).pending = s.pending := by rfl
@[simp] theorem setCore_now (s : State) (n : Nat) (v : Core) : (setCore s n v).now = s.now := by rfl
@[simp] theorem setCore_free (s : State) (n : Nat) (v : Core) : (setCore s n v).free = s.free := by rfl
@[simp] theorem setCore_time (s : State) (n : Nat) (v : Core) : (setCore s n v).time = s.time := by rfl
@[simp] theorem setCore_op (s : State) (n : Nat) (v : Core) : (setCore s n v).op = s.op := by rfl
@[simp] theorem setCore_tile (s : State) (n : Nat) (v : Core) : (setCore s n v).tile = s.tile := by rfl
@[simp] theorem setCore_img (s : State) (n : Nat) (v : Core) : (setCore s n v).img = s.img := by rfl
@[simp] theorem setCore_mem (s : State) (n : Nat) (v : Core) : (setCore s n v).mem = s.mem := by rfl
@[simp] theorem setCore_host (s : State) (n : Nat) (v : Core) : (setCore s n v).host = s.host := by rfl
@[simp] theorem setCore_reg (s : State) (n : Nat) (v : Core) : (setCore s n v).reg = s.reg := by rfl
@[simp] theorem setCore_insts (s : State) (n : Nat) (v : Core) : (setCore s n v).insts = s.insts := by rfl
@[simp] theorem setCore_flt (s : State) (n : Nat) (v : Core) : (setCore s n v).flt = s.flt := by rfl
@[simp] theorem setCore_fab (s : State) (n : Nat) (v : Core) : (setCore s n v).fab = s.fab := by rfl
@[simp] theorem setCore_pwr (s : State) (n : Nat) (v : Core) : (setCore s n v).pwr = s.pwr := by rfl
@[simp] theorem setCore_met (s : State) (n : Nat) (v : Core) : (setCore s n v).met = s.met := by rfl
@[simp] theorem setCore_keep (s : State) (n : Nat) (v : Core) : (setCore s n v).keep = s.keep := by rfl
@[simp] theorem setCore_arb (s : State) (n : Nat) (v : Core) : (setCore s n v).arb = s.arb := by rfl
@[simp] theorem setCore_mbx_threads (s : State) (n : Nat) (v : Core) : (setCore s n v).mbx.threads = s.mbx.threads := by rfl
@[simp] theorem setCore_mbx_orderNo (s : State) (n : Nat) (v : Core) : (setCore s n v).mbx.orderNo = s.mbx.orderNo := by rfl
@[simp] theorem setCore_mbx_gsteps (s : State) (n : Nat) (v : Core) : (setCore s n v).mbx.gsteps = s.mbx.gsteps := by rfl
@[simp] theorem setCore_mbx_rings (s : State) (n : Nat) (v : Core) : (setCore s n v).mbx.rings = s.mbx.rings := by rfl

@[simp] theorem setOp_pending (s : State) (n : Nat) (v : Op) : (setOp s n v).pending = s.pending := by rfl
@[simp] theorem setOp_now (s : State) (n : Nat) (v : Op) : (setOp s n v).now = s.now := by rfl
@[simp] theorem setOp_free (s : State) (n : Nat) (v : Op) : (setOp s n v).free = s.free := by rfl
@[simp] theorem setOp_time (s : State) (n : Nat) (v : Op) : (setOp s n v).time = s.time := by rfl
@[simp] theorem setOp_mbx (s : State) (n : Nat) (v : Op) : (setOp s n v).mbx = s.mbx := by rfl
@[simp] theorem setOp_tile (s : State) (n : Nat) (v : Op) : (setOp s n v).tile = s.tile := by rfl
@[simp] theorem setOp_img (s : State) (n : Nat) (v : Op) : (setOp s n v).img = s.img := by rfl
@[simp] theorem setOp_mem (s : State) (n : Nat) (v : Op) : (setOp s n v).mem = s.mem := by rfl
@[simp] theorem setOp_host (s : State) (n : Nat) (v : Op) : (setOp s n v).host = s.host := by rfl
@[simp] theorem setOp_reg (s : State) (n : Nat) (v : Op) : (setOp s n v).reg = s.reg := by rfl
@[simp] theorem setOp_insts (s : State) (n : Nat) (v : Op) : (setOp s n v).insts = s.insts := by rfl
@[simp] theorem setOp_flt (s : State) (n : Nat) (v : Op) : (setOp s n v).flt = s.flt := by rfl
@[simp] theorem setOp_fab (s : State) (n : Nat) (v : Op) : (setOp s n v).fab = s.fab := by rfl
@[simp] theorem setOp_pwr (s : State) (n : Nat) (v : Op) : (setOp s n v).pwr = s.pwr := by rfl
@[simp] theorem setOp_met (s : State) (n : Nat) (v : Op) : (setOp s n v).met = s.met := by rfl
@[simp] theorem setOp_keep (s : State) (n : Nat) (v : Op) : (setOp s n v).keep = s.keep := by rfl
@[simp] theorem setOp_arb (s : State) (n : Nat) (v : Op) : (setOp s n v).arb = s.arb := by rfl
@[simp] theorem setOp_op_seqs (s : State) (n : Nat) (v : Op) : (setOp s n v).op.seqs = s.op.seqs := by rfl
@[simp] theorem setOp_op_posQueue (s : State) (n : Nat) (v : Op) : (setOp s n v).op.posQueue = s.op.posQueue := by rfl
@[simp] theorem setOp_op_seeds (s : State) (n : Nat) (v : Op) : (setOp s n v).op.seeds = s.op.seeds := by rfl
@[simp] theorem setOp_op_seals (s : State) (n : Nat) (v : Op) : (setOp s n v).op.seals = s.op.seals := by rfl
@[simp] theorem setOp_op_xfers (s : State) (n : Nat) (v : Op) : (setOp s n v).op.xfers = s.op.xfers := by rfl
@[simp] theorem setOp_op_collEngines (s : State) (n : Nat) (v : Op) : (setOp s n v).op.collEngines = s.op.collEngines := by rfl
@[simp] theorem setOp_op_collSeq (s : State) (n : Nat) (v : Op) : (setOp s n v).op.collSeq = s.op.collSeq := by rfl
@[simp] theorem setOp_op_earlyColl (s : State) (n : Nat) (v : Op) : (setOp s n v).op.earlyColl = s.op.earlyColl := by rfl
@[simp] theorem setOp_op_attnFenced (s : State) (n : Nat) (v : Op) : (setOp s n v).op.attnFenced = s.op.attnFenced := by rfl
@[simp] theorem setOp_op_samplerFenced (s : State) (n : Nat) (v : Op) : (setOp s n v).op.samplerFenced = s.op.samplerFenced := by rfl
@[simp] theorem setOp_op_lastResidue (s : State) (n : Nat) (v : Op) : (setOp s n v).op.lastResidue = s.op.lastResidue := by rfl

@[simp] theorem setCad_pending (s : State) (n : Nat) (v : Cadence) : (setCad s n v).pending = s.pending := by rfl
@[simp] theorem setCad_now (s : State) (n : Nat) (v : Cadence) : (setCad s n v).now = s.now := by rfl
@[simp] theorem setCad_free (s : State) (n : Nat) (v : Cadence) : (setCad s n v).free = s.free := by rfl
@[simp] theorem setCad_mbx (s : State) (n : Nat) (v : Cadence) : (setCad s n v).mbx = s.mbx := by rfl
@[simp] theorem setCad_op (s : State) (n : Nat) (v : Cadence) : (setCad s n v).op = s.op := by rfl
@[simp] theorem setCad_tile (s : State) (n : Nat) (v : Cadence) : (setCad s n v).tile = s.tile := by rfl
@[simp] theorem setCad_img (s : State) (n : Nat) (v : Cadence) : (setCad s n v).img = s.img := by rfl
@[simp] theorem setCad_mem (s : State) (n : Nat) (v : Cadence) : (setCad s n v).mem = s.mem := by rfl
@[simp] theorem setCad_host (s : State) (n : Nat) (v : Cadence) : (setCad s n v).host = s.host := by rfl
@[simp] theorem setCad_reg (s : State) (n : Nat) (v : Cadence) : (setCad s n v).reg = s.reg := by rfl
@[simp] theorem setCad_insts (s : State) (n : Nat) (v : Cadence) : (setCad s n v).insts = s.insts := by rfl
@[simp] theorem setCad_flt (s : State) (n : Nat) (v : Cadence) : (setCad s n v).flt = s.flt := by rfl
@[simp] theorem setCad_fab (s : State) (n : Nat) (v : Cadence) : (setCad s n v).fab = s.fab := by rfl
@[simp] theorem setCad_pwr (s : State) (n : Nat) (v : Cadence) : (setCad s n v).pwr = s.pwr := by rfl
@[simp] theorem setCad_met (s : State) (n : Nat) (v : Cadence) : (setCad s n v).met = s.met := by rfl
@[simp] theorem setCad_keep (s : State) (n : Nat) (v : Cadence) : (setCad s n v).keep = s.keep := by rfl
@[simp] theorem setCad_arb (s : State) (n : Nat) (v : Cadence) : (setCad s n v).arb = s.arb := by rfl
@[simp] theorem setCad_time_belfry (s : State) (n : Nat) (v : Cadence) : (setCad s n v).time.belfry = s.time.belfry := by rfl
@[simp] theorem setCad_time_launches (s : State) (n : Nat) (v : Cadence) : (setCad s n v).time.launches = s.time.launches := by rfl
@[simp] theorem setCad_time_groups (s : State) (n : Nat) (v : Cadence) : (setCad s n v).time.groups = s.time.groups := by rfl

@[simp] theorem setXfer_pending (s : State) (n : Nat) (v : Xfer) : (setXfer s n v).pending = s.pending := by rfl
@[simp] theorem setXfer_now (s : State) (n : Nat) (v : Xfer) : (setXfer s n v).now = s.now := by rfl
@[simp] theorem setXfer_free (s : State) (n : Nat) (v : Xfer) : (setXfer s n v).free = s.free := by rfl
@[simp] theorem setXfer_time (s : State) (n : Nat) (v : Xfer) : (setXfer s n v).time = s.time := by rfl
@[simp] theorem setXfer_mbx (s : State) (n : Nat) (v : Xfer) : (setXfer s n v).mbx = s.mbx := by rfl
@[simp] theorem setXfer_tile (s : State) (n : Nat) (v : Xfer) : (setXfer s n v).tile = s.tile := by rfl
@[simp] theorem setXfer_img (s : State) (n : Nat) (v : Xfer) : (setXfer s n v).img = s.img := by rfl
@[simp] theorem setXfer_mem (s : State) (n : Nat) (v : Xfer) : (setXfer s n v).mem = s.mem := by rfl
@[simp] theorem setXfer_host (s : State) (n : Nat) (v : Xfer) : (setXfer s n v).host = s.host := by rfl
@[simp] theorem setXfer_reg (s : State) (n : Nat) (v : Xfer) : (setXfer s n v).reg = s.reg := by rfl
@[simp] theorem setXfer_insts (s : State) (n : Nat) (v : Xfer) : (setXfer s n v).insts = s.insts := by rfl
@[simp] theorem setXfer_flt (s : State) (n : Nat) (v : Xfer) : (setXfer s n v).flt = s.flt := by rfl
@[simp] theorem setXfer_fab (s : State) (n : Nat) (v : Xfer) : (setXfer s n v).fab = s.fab := by rfl
@[simp] theorem setXfer_pwr (s : State) (n : Nat) (v : Xfer) : (setXfer s n v).pwr = s.pwr := by rfl
@[simp] theorem setXfer_met (s : State) (n : Nat) (v : Xfer) : (setXfer s n v).met = s.met := by rfl
@[simp] theorem setXfer_keep (s : State) (n : Nat) (v : Xfer) : (setXfer s n v).keep = s.keep := by rfl
@[simp] theorem setXfer_arb (s : State) (n : Nat) (v : Xfer) : (setXfer s n v).arb = s.arb := by rfl
@[simp] theorem setXfer_op_table (s : State) (n : Nat) (v : Xfer) : (setXfer s n v).op.table = s.op.table := by rfl
@[simp] theorem setXfer_op_seqs (s : State) (n : Nat) (v : Xfer) : (setXfer s n v).op.seqs = s.op.seqs := by rfl
@[simp] theorem setXfer_op_posQueue (s : State) (n : Nat) (v : Xfer) : (setXfer s n v).op.posQueue = s.op.posQueue := by rfl
@[simp] theorem setXfer_op_seeds (s : State) (n : Nat) (v : Xfer) : (setXfer s n v).op.seeds = s.op.seeds := by rfl
@[simp] theorem setXfer_op_seals (s : State) (n : Nat) (v : Xfer) : (setXfer s n v).op.seals = s.op.seals := by rfl
@[simp] theorem setXfer_op_collEngines (s : State) (n : Nat) (v : Xfer) : (setXfer s n v).op.collEngines = s.op.collEngines := by rfl
@[simp] theorem setXfer_op_collSeq (s : State) (n : Nat) (v : Xfer) : (setXfer s n v).op.collSeq = s.op.collSeq := by rfl
@[simp] theorem setXfer_op_earlyColl (s : State) (n : Nat) (v : Xfer) : (setXfer s n v).op.earlyColl = s.op.earlyColl := by rfl
@[simp] theorem setXfer_op_attnFenced (s : State) (n : Nat) (v : Xfer) : (setXfer s n v).op.attnFenced = s.op.attnFenced := by rfl
@[simp] theorem setXfer_op_samplerFenced (s : State) (n : Nat) (v : Xfer) : (setXfer s n v).op.samplerFenced = s.op.samplerFenced := by rfl
@[simp] theorem setXfer_op_lastResidue (s : State) (n : Nat) (v : Xfer) : (setXfer s n v).op.lastResidue = s.op.lastResidue := by rfl

@[simp] theorem setColl_pending (s : State) (n : Nat) (v : CollEngine) : (setColl s n v).pending = s.pending := by rfl
@[simp] theorem setColl_now (s : State) (n : Nat) (v : CollEngine) : (setColl s n v).now = s.now := by rfl
@[simp] theorem setColl_free (s : State) (n : Nat) (v : CollEngine) : (setColl s n v).free = s.free := by rfl
@[simp] theorem setColl_time (s : State) (n : Nat) (v : CollEngine) : (setColl s n v).time = s.time := by rfl
@[simp] theorem setColl_mbx (s : State) (n : Nat) (v : CollEngine) : (setColl s n v).mbx = s.mbx := by rfl
@[simp] theorem setColl_tile (s : State) (n : Nat) (v : CollEngine) : (setColl s n v).tile = s.tile := by rfl
@[simp] theorem setColl_img (s : State) (n : Nat) (v : CollEngine) : (setColl s n v).img = s.img := by rfl
@[simp] theorem setColl_mem (s : State) (n : Nat) (v : CollEngine) : (setColl s n v).mem = s.mem := by rfl
@[simp] theorem setColl_host (s : State) (n : Nat) (v : CollEngine) : (setColl s n v).host = s.host := by rfl
@[simp] theorem setColl_reg (s : State) (n : Nat) (v : CollEngine) : (setColl s n v).reg = s.reg := by rfl
@[simp] theorem setColl_insts (s : State) (n : Nat) (v : CollEngine) : (setColl s n v).insts = s.insts := by rfl
@[simp] theorem setColl_flt (s : State) (n : Nat) (v : CollEngine) : (setColl s n v).flt = s.flt := by rfl
@[simp] theorem setColl_fab (s : State) (n : Nat) (v : CollEngine) : (setColl s n v).fab = s.fab := by rfl
@[simp] theorem setColl_pwr (s : State) (n : Nat) (v : CollEngine) : (setColl s n v).pwr = s.pwr := by rfl
@[simp] theorem setColl_met (s : State) (n : Nat) (v : CollEngine) : (setColl s n v).met = s.met := by rfl
@[simp] theorem setColl_keep (s : State) (n : Nat) (v : CollEngine) : (setColl s n v).keep = s.keep := by rfl
@[simp] theorem setColl_arb (s : State) (n : Nat) (v : CollEngine) : (setColl s n v).arb = s.arb := by rfl
@[simp] theorem setColl_op_table (s : State) (n : Nat) (v : CollEngine) : (setColl s n v).op.table = s.op.table := by rfl
@[simp] theorem setColl_op_seqs (s : State) (n : Nat) (v : CollEngine) : (setColl s n v).op.seqs = s.op.seqs := by rfl
@[simp] theorem setColl_op_posQueue (s : State) (n : Nat) (v : CollEngine) : (setColl s n v).op.posQueue = s.op.posQueue := by rfl
@[simp] theorem setColl_op_seeds (s : State) (n : Nat) (v : CollEngine) : (setColl s n v).op.seeds = s.op.seeds := by rfl
@[simp] theorem setColl_op_seals (s : State) (n : Nat) (v : CollEngine) : (setColl s n v).op.seals = s.op.seals := by rfl
@[simp] theorem setColl_op_xfers (s : State) (n : Nat) (v : CollEngine) : (setColl s n v).op.xfers = s.op.xfers := by rfl
@[simp] theorem setColl_op_collSeq (s : State) (n : Nat) (v : CollEngine) : (setColl s n v).op.collSeq = s.op.collSeq := by rfl
@[simp] theorem setColl_op_earlyColl (s : State) (n : Nat) (v : CollEngine) : (setColl s n v).op.earlyColl = s.op.earlyColl := by rfl
@[simp] theorem setColl_op_attnFenced (s : State) (n : Nat) (v : CollEngine) : (setColl s n v).op.attnFenced = s.op.attnFenced := by rfl
@[simp] theorem setColl_op_samplerFenced (s : State) (n : Nat) (v : CollEngine) : (setColl s n v).op.samplerFenced = s.op.samplerFenced := by rfl
@[simp] theorem setColl_op_lastResidue (s : State) (n : Nat) (v : CollEngine) : (setColl s n v).op.lastResidue = s.op.lastResidue := by rfl

@[simp] theorem setLink_pending (s : State) (n : Nat) (v : LinkSt) : (setLink s n v).pending = s.pending := by rfl
@[simp] theorem setLink_now (s : State) (n : Nat) (v : LinkSt) : (setLink s n v).now = s.now := by rfl
@[simp] theorem setLink_free (s : State) (n : Nat) (v : LinkSt) : (setLink s n v).free = s.free := by rfl
@[simp] theorem setLink_time (s : State) (n : Nat) (v : LinkSt) : (setLink s n v).time = s.time := by rfl
@[simp] theorem setLink_mbx (s : State) (n : Nat) (v : LinkSt) : (setLink s n v).mbx = s.mbx := by rfl
@[simp] theorem setLink_op (s : State) (n : Nat) (v : LinkSt) : (setLink s n v).op = s.op := by rfl
@[simp] theorem setLink_tile (s : State) (n : Nat) (v : LinkSt) : (setLink s n v).tile = s.tile := by rfl
@[simp] theorem setLink_img (s : State) (n : Nat) (v : LinkSt) : (setLink s n v).img = s.img := by rfl
@[simp] theorem setLink_mem (s : State) (n : Nat) (v : LinkSt) : (setLink s n v).mem = s.mem := by rfl
@[simp] theorem setLink_host (s : State) (n : Nat) (v : LinkSt) : (setLink s n v).host = s.host := by rfl
@[simp] theorem setLink_reg (s : State) (n : Nat) (v : LinkSt) : (setLink s n v).reg = s.reg := by rfl
@[simp] theorem setLink_insts (s : State) (n : Nat) (v : LinkSt) : (setLink s n v).insts = s.insts := by rfl
@[simp] theorem setLink_flt (s : State) (n : Nat) (v : LinkSt) : (setLink s n v).flt = s.flt := by rfl
@[simp] theorem setLink_pwr (s : State) (n : Nat) (v : LinkSt) : (setLink s n v).pwr = s.pwr := by rfl
@[simp] theorem setLink_met (s : State) (n : Nat) (v : LinkSt) : (setLink s n v).met = s.met := by rfl
@[simp] theorem setLink_keep (s : State) (n : Nat) (v : LinkSt) : (setLink s n v).keep = s.keep := by rfl
@[simp] theorem setLink_arb (s : State) (n : Nat) (v : LinkSt) : (setLink s n v).arb = s.arb := by rfl
@[simp] theorem setLink_fab_tx (s : State) (n : Nat) (v : LinkSt) : (setLink s n v).fab.tx = s.fab.tx := by rfl
@[simp] theorem setLink_fab_txSeq (s : State) (n : Nat) (v : LinkSt) : (setLink s n v).fab.txSeq = s.fab.txSeq := by rfl
@[simp] theorem setLink_fab_unacked (s : State) (n : Nat) (v : LinkSt) : (setLink s n v).fab.unacked = s.fab.unacked := by rfl
@[simp] theorem setLink_fab_rx (s : State) (n : Nat) (v : LinkSt) : (setLink s n v).fab.rx = s.fab.rx := by rfl
@[simp] theorem setLink_fab_pathWait (s : State) (n : Nat) (v : LinkSt) : (setLink s n v).fab.pathWait = s.fab.pathWait := by rfl
@[simp] theorem setLink_fab_sliceDrops (s : State) (n : Nat) (v : LinkSt) : (setLink s n v).fab.sliceDrops = s.fab.sliceDrops := by rfl
@[simp] theorem setLink_fab_dropEpoch (s : State) (n : Nat) (v : LinkSt) : (setLink s n v).fab.dropEpoch = s.fab.dropEpoch := by rfl
@[simp] theorem setLink_fab_discards (s : State) (n : Nat) (v : LinkSt) : (setLink s n v).fab.discards = s.fab.discards := by rfl

@[simp] theorem setLaunch_pending (s : State) (n : Nat) (v : Launch) : (setLaunch s n v).pending = s.pending := by rfl
@[simp] theorem setLaunch_now (s : State) (n : Nat) (v : Launch) : (setLaunch s n v).now = s.now := by rfl
@[simp] theorem setLaunch_free (s : State) (n : Nat) (v : Launch) : (setLaunch s n v).free = s.free := by rfl
@[simp] theorem setLaunch_mbx (s : State) (n : Nat) (v : Launch) : (setLaunch s n v).mbx = s.mbx := by rfl
@[simp] theorem setLaunch_op (s : State) (n : Nat) (v : Launch) : (setLaunch s n v).op = s.op := by rfl
@[simp] theorem setLaunch_tile (s : State) (n : Nat) (v : Launch) : (setLaunch s n v).tile = s.tile := by rfl
@[simp] theorem setLaunch_img (s : State) (n : Nat) (v : Launch) : (setLaunch s n v).img = s.img := by rfl
@[simp] theorem setLaunch_mem (s : State) (n : Nat) (v : Launch) : (setLaunch s n v).mem = s.mem := by rfl
@[simp] theorem setLaunch_host (s : State) (n : Nat) (v : Launch) : (setLaunch s n v).host = s.host := by rfl
@[simp] theorem setLaunch_reg (s : State) (n : Nat) (v : Launch) : (setLaunch s n v).reg = s.reg := by rfl
@[simp] theorem setLaunch_insts (s : State) (n : Nat) (v : Launch) : (setLaunch s n v).insts = s.insts := by rfl
@[simp] theorem setLaunch_flt (s : State) (n : Nat) (v : Launch) : (setLaunch s n v).flt = s.flt := by rfl
@[simp] theorem setLaunch_fab (s : State) (n : Nat) (v : Launch) : (setLaunch s n v).fab = s.fab := by rfl
@[simp] theorem setLaunch_pwr (s : State) (n : Nat) (v : Launch) : (setLaunch s n v).pwr = s.pwr := by rfl
@[simp] theorem setLaunch_met (s : State) (n : Nat) (v : Launch) : (setLaunch s n v).met = s.met := by rfl
@[simp] theorem setLaunch_keep (s : State) (n : Nat) (v : Launch) : (setLaunch s n v).keep = s.keep := by rfl
@[simp] theorem setLaunch_arb (s : State) (n : Nat) (v : Launch) : (setLaunch s n v).arb = s.arb := by rfl
@[simp] theorem setLaunch_time_belfry (s : State) (n : Nat) (v : Launch) : (setLaunch s n v).time.belfry = s.time.belfry := by rfl
@[simp] theorem setLaunch_time_cadences (s : State) (n : Nat) (v : Launch) : (setLaunch s n v).time.cadences = s.time.cadences := by rfl
@[simp] theorem setLaunch_time_groups (s : State) (n : Nat) (v : Launch) : (setLaunch s n v).time.groups = s.time.groups := by rfl

@[simp] theorem setRing_pending (s : State) (i j : Nat) (v : Ring) : (setRing s i j v).pending = s.pending := by rfl
@[simp] theorem setRing_now (s : State) (i j : Nat) (v : Ring) : (setRing s i j v).now = s.now := by rfl
@[simp] theorem setRing_free (s : State) (i j : Nat) (v : Ring) : (setRing s i j v).free = s.free := by rfl
@[simp] theorem setRing_time (s : State) (i j : Nat) (v : Ring) : (setRing s i j v).time = s.time := by rfl
@[simp] theorem setRing_op (s : State) (i j : Nat) (v : Ring) : (setRing s i j v).op = s.op := by rfl
@[simp] theorem setRing_tile (s : State) (i j : Nat) (v : Ring) : (setRing s i j v).tile = s.tile := by rfl
@[simp] theorem setRing_img (s : State) (i j : Nat) (v : Ring) : (setRing s i j v).img = s.img := by rfl
@[simp] theorem setRing_mem (s : State) (i j : Nat) (v : Ring) : (setRing s i j v).mem = s.mem := by rfl
@[simp] theorem setRing_host (s : State) (i j : Nat) (v : Ring) : (setRing s i j v).host = s.host := by rfl
@[simp] theorem setRing_reg (s : State) (i j : Nat) (v : Ring) : (setRing s i j v).reg = s.reg := by rfl
@[simp] theorem setRing_insts (s : State) (i j : Nat) (v : Ring) : (setRing s i j v).insts = s.insts := by rfl
@[simp] theorem setRing_flt (s : State) (i j : Nat) (v : Ring) : (setRing s i j v).flt = s.flt := by rfl
@[simp] theorem setRing_fab (s : State) (i j : Nat) (v : Ring) : (setRing s i j v).fab = s.fab := by rfl
@[simp] theorem setRing_pwr (s : State) (i j : Nat) (v : Ring) : (setRing s i j v).pwr = s.pwr := by rfl
@[simp] theorem setRing_met (s : State) (i j : Nat) (v : Ring) : (setRing s i j v).met = s.met := by rfl
@[simp] theorem setRing_keep (s : State) (i j : Nat) (v : Ring) : (setRing s i j v).keep = s.keep := by rfl
@[simp] theorem setRing_arb (s : State) (i j : Nat) (v : Ring) : (setRing s i j v).arb = s.arb := by rfl
@[simp] theorem setRing_mbx_threads (s : State) (i j : Nat) (v : Ring) : (setRing s i j v).mbx.threads = s.mbx.threads := by rfl
@[simp] theorem setRing_mbx_orderNo (s : State) (i j : Nat) (v : Ring) : (setRing s i j v).mbx.orderNo = s.mbx.orderNo := by rfl
@[simp] theorem setRing_mbx_cores (s : State) (i j : Nat) (v : Ring) : (setRing s i j v).mbx.cores = s.mbx.cores := by rfl
@[simp] theorem setRing_mbx_gsteps (s : State) (i j : Nat) (v : Ring) : (setRing s i j v).mbx.gsteps = s.mbx.gsteps := by rfl

@[simp] theorem setChan_pending (s : State) (n : Nat) (v : Chan) : (setChan s n v).pending = s.pending := by rfl
@[simp] theorem setChan_now (s : State) (n : Nat) (v : Chan) : (setChan s n v).now = s.now := by rfl
@[simp] theorem setChan_free (s : State) (n : Nat) (v : Chan) : (setChan s n v).free = s.free := by rfl
@[simp] theorem setChan_time (s : State) (n : Nat) (v : Chan) : (setChan s n v).time = s.time := by rfl
@[simp] theorem setChan_mbx (s : State) (n : Nat) (v : Chan) : (setChan s n v).mbx = s.mbx := by rfl
@[simp] theorem setChan_op (s : State) (n : Nat) (v : Chan) : (setChan s n v).op = s.op := by rfl
@[simp] theorem setChan_tile (s : State) (n : Nat) (v : Chan) : (setChan s n v).tile = s.tile := by rfl
@[simp] theorem setChan_img (s : State) (n : Nat) (v : Chan) : (setChan s n v).img = s.img := by rfl
@[simp] theorem setChan_mem (s : State) (n : Nat) (v : Chan) : (setChan s n v).mem = s.mem := by rfl
@[simp] theorem setChan_host (s : State) (n : Nat) (v : Chan) : (setChan s n v).host = s.host := by rfl
@[simp] theorem setChan_reg (s : State) (n : Nat) (v : Chan) : (setChan s n v).reg = s.reg := by rfl
@[simp] theorem setChan_insts (s : State) (n : Nat) (v : Chan) : (setChan s n v).insts = s.insts := by rfl
@[simp] theorem setChan_flt (s : State) (n : Nat) (v : Chan) : (setChan s n v).flt = s.flt := by rfl
@[simp] theorem setChan_fab (s : State) (n : Nat) (v : Chan) : (setChan s n v).fab = s.fab := by rfl
@[simp] theorem setChan_pwr (s : State) (n : Nat) (v : Chan) : (setChan s n v).pwr = s.pwr := by rfl
@[simp] theorem setChan_keep (s : State) (n : Nat) (v : Chan) : (setChan s n v).keep = s.keep := by rfl
@[simp] theorem setChan_arb (s : State) (n : Nat) (v : Chan) : (setChan s n v).arb = s.arb := by rfl
@[simp] theorem setChan_met_mets (s : State) (n : Nat) (v : Chan) : (setChan s n v).met.mets = s.met.mets := by rfl
@[simp] theorem setChan_met_senses (s : State) (n : Nat) (v : Chan) : (setChan s n v).met.senses = s.met.senses := by rfl
@[simp] theorem setChan_met_driftAt (s : State) (n : Nat) (v : Chan) : (setChan s n v).met.driftAt = s.met.driftAt := by rfl
@[simp] theorem setChan_met_driftRecs (s : State) (n : Nat) (v : Chan) : (setChan s n v).met.driftRecs = s.met.driftRecs := by rfl
@[simp] theorem setChan_met_missed (s : State) (n : Nat) (v : Chan) : (setChan s n v).met.missed = s.met.missed := by rfl

@[simp] theorem setMet_pending (s : State) (n : Nat) (v : Met) : (setMet s n v).pending = s.pending := by rfl
@[simp] theorem setMet_now (s : State) (n : Nat) (v : Met) : (setMet s n v).now = s.now := by rfl
@[simp] theorem setMet_free (s : State) (n : Nat) (v : Met) : (setMet s n v).free = s.free := by rfl
@[simp] theorem setMet_time (s : State) (n : Nat) (v : Met) : (setMet s n v).time = s.time := by rfl
@[simp] theorem setMet_mbx (s : State) (n : Nat) (v : Met) : (setMet s n v).mbx = s.mbx := by rfl
@[simp] theorem setMet_op (s : State) (n : Nat) (v : Met) : (setMet s n v).op = s.op := by rfl
@[simp] theorem setMet_tile (s : State) (n : Nat) (v : Met) : (setMet s n v).tile = s.tile := by rfl
@[simp] theorem setMet_img (s : State) (n : Nat) (v : Met) : (setMet s n v).img = s.img := by rfl
@[simp] theorem setMet_mem (s : State) (n : Nat) (v : Met) : (setMet s n v).mem = s.mem := by rfl
@[simp] theorem setMet_host (s : State) (n : Nat) (v : Met) : (setMet s n v).host = s.host := by rfl
@[simp] theorem setMet_reg (s : State) (n : Nat) (v : Met) : (setMet s n v).reg = s.reg := by rfl
@[simp] theorem setMet_insts (s : State) (n : Nat) (v : Met) : (setMet s n v).insts = s.insts := by rfl
@[simp] theorem setMet_flt (s : State) (n : Nat) (v : Met) : (setMet s n v).flt = s.flt := by rfl
@[simp] theorem setMet_fab (s : State) (n : Nat) (v : Met) : (setMet s n v).fab = s.fab := by rfl
@[simp] theorem setMet_pwr (s : State) (n : Nat) (v : Met) : (setMet s n v).pwr = s.pwr := by rfl
@[simp] theorem setMet_keep (s : State) (n : Nat) (v : Met) : (setMet s n v).keep = s.keep := by rfl
@[simp] theorem setMet_arb (s : State) (n : Nat) (v : Met) : (setMet s n v).arb = s.arb := by rfl
@[simp] theorem setMet_met_chans (s : State) (n : Nat) (v : Met) : (setMet s n v).met.chans = s.met.chans := by rfl
@[simp] theorem setMet_met_senses (s : State) (n : Nat) (v : Met) : (setMet s n v).met.senses = s.met.senses := by rfl
@[simp] theorem setMet_met_driftAt (s : State) (n : Nat) (v : Met) : (setMet s n v).met.driftAt = s.met.driftAt := by rfl
@[simp] theorem setMet_met_driftRecs (s : State) (n : Nat) (v : Met) : (setMet s n v).met.driftRecs = s.met.driftRecs := by rfl
@[simp] theorem setMet_met_missed (s : State) (n : Nat) (v : Met) : (setMet s n v).met.missed = s.met.missed := by rfl

@[simp] theorem setSensor_pending (s : State) (n : Nat) (v : Sensor) : (setSensor s n v).pending = s.pending := by rfl
@[simp] theorem setSensor_now (s : State) (n : Nat) (v : Sensor) : (setSensor s n v).now = s.now := by rfl
@[simp] theorem setSensor_free (s : State) (n : Nat) (v : Sensor) : (setSensor s n v).free = s.free := by rfl
@[simp] theorem setSensor_time (s : State) (n : Nat) (v : Sensor) : (setSensor s n v).time = s.time := by rfl
@[simp] theorem setSensor_mbx (s : State) (n : Nat) (v : Sensor) : (setSensor s n v).mbx = s.mbx := by rfl
@[simp] theorem setSensor_op (s : State) (n : Nat) (v : Sensor) : (setSensor s n v).op = s.op := by rfl
@[simp] theorem setSensor_tile (s : State) (n : Nat) (v : Sensor) : (setSensor s n v).tile = s.tile := by rfl
@[simp] theorem setSensor_img (s : State) (n : Nat) (v : Sensor) : (setSensor s n v).img = s.img := by rfl
@[simp] theorem setSensor_mem (s : State) (n : Nat) (v : Sensor) : (setSensor s n v).mem = s.mem := by rfl
@[simp] theorem setSensor_host (s : State) (n : Nat) (v : Sensor) : (setSensor s n v).host = s.host := by rfl
@[simp] theorem setSensor_reg (s : State) (n : Nat) (v : Sensor) : (setSensor s n v).reg = s.reg := by rfl
@[simp] theorem setSensor_insts (s : State) (n : Nat) (v : Sensor) : (setSensor s n v).insts = s.insts := by rfl
@[simp] theorem setSensor_flt (s : State) (n : Nat) (v : Sensor) : (setSensor s n v).flt = s.flt := by rfl
@[simp] theorem setSensor_fab (s : State) (n : Nat) (v : Sensor) : (setSensor s n v).fab = s.fab := by rfl
@[simp] theorem setSensor_met (s : State) (n : Nat) (v : Sensor) : (setSensor s n v).met = s.met := by rfl
@[simp] theorem setSensor_keep (s : State) (n : Nat) (v : Sensor) : (setSensor s n v).keep = s.keep := by rfl
@[simp] theorem setSensor_arb (s : State) (n : Nat) (v : Sensor) : (setSensor s n v).arb = s.arb := by rfl
@[simp] theorem setSensor_pwr_domains (s : State) (n : Nat) (v : Sensor) : (setSensor s n v).pwr.domains = s.pwr.domains := by rfl
@[simp] theorem setSensor_pwr_domErr (s : State) (n : Nat) (v : Sensor) : (setSensor s n v).pwr.domErr = s.pwr.domErr := by rfl
@[simp] theorem setSensor_pwr_domAt (s : State) (n : Nat) (v : Sensor) : (setSensor s n v).pwr.domAt = s.pwr.domAt := by rfl
@[simp] theorem setSensor_pwr_domBusy (s : State) (n : Nat) (v : Sensor) : (setSensor s n v).pwr.domBusy = s.pwr.domBusy := by rfl
@[simp] theorem setSensor_pwr_bringUp (s : State) (n : Nat) (v : Sensor) : (setSensor s n v).pwr.bringUp = s.pwr.bringUp := by rfl
@[simp] theorem setSensor_pwr_p48ok (s : State) (n : Nat) (v : Sensor) : (setSensor s n v).pwr.p48ok = s.pwr.p48ok := by rfl
@[simp] theorem setSensor_pwr_p48seen (s : State) (n : Nat) (v : Sensor) : (setSensor s n v).pwr.p48seen = s.pwr.p48seen := by rfl
@[simp] theorem setSensor_pwr_p12ok (s : State) (n : Nat) (v : Sensor) : (setSensor s n v).pwr.p12ok = s.pwr.p12ok := by rfl
@[simp] theorem setSensor_pwr_p48warn (s : State) (n : Nat) (v : Sensor) : (setSensor s n v).pwr.p48warn = s.pwr.p48warn := by rfl
@[simp] theorem setSensor_pwr_p48 (s : State) (n : Nat) (v : Sensor) : (setSensor s n v).pwr.p48 = s.pwr.p48 := by rfl
@[simp] theorem setSensor_pwr_p12 (s : State) (n : Nat) (v : Sensor) : (setSensor s n v).pwr.p12 = s.pwr.p12 := by rfl
@[simp] theorem setSensor_pwr_pAvg (s : State) (n : Nat) (v : Sensor) : (setSensor s n v).pwr.pAvg = s.pwr.pAvg := by rfl
@[simp] theorem setSensor_pwr_short (s : State) (n : Nat) (v : Sensor) : (setSensor s n v).pwr.short = s.pwr.short := by rfl
@[simp] theorem setSensor_pwr_rP (s : State) (n : Nat) (v : Sensor) : (setSensor s n v).pwr.rP = s.pwr.rP := by rfl
@[simp] theorem setSensor_pwr_rT (s : State) (n : Nat) (v : Sensor) : (setSensor s n v).pwr.rT = s.pwr.rT := by rfl
@[simp] theorem setSensor_pwr_trip (s : State) (n : Nat) (v : Sensor) : (setSensor s n v).pwr.trip = s.pwr.trip := by rfl
@[simp] theorem setSensor_pwr_tripInfo (s : State) (n : Nat) (v : Sensor) : (setSensor s n v).pwr.tripInfo = s.pwr.tripInfo := by rfl
@[simp] theorem setSensor_pwr_tripCool (s : State) (n : Nat) (v : Sensor) : (setSensor s n v).pwr.tripCool = s.pwr.tripCool := by rfl
@[simp] theorem setSensor_pwr_alert (s : State) (n : Nat) (v : Sensor) : (setSensor s n v).pwr.alert = s.pwr.alert := by rfl
@[simp] theorem setSensor_pwr_fieldRef (s : State) (n : Nat) (v : Sensor) : (setSensor s n v).pwr.fieldRef = s.pwr.fieldRef := by rfl
@[simp] theorem setSensor_pwr_oscTemp (s : State) (n : Nat) (v : Sensor) : (setSensor s n v).pwr.oscTemp = s.pwr.oscTemp := by rfl
@[simp] theorem setSensor_pwr_oscRecs (s : State) (n : Nat) (v : Sensor) : (setSensor s n v).pwr.oscRecs = s.pwr.oscRecs := by rfl

@[simp] theorem setAnchor_pending (s : State) (n : Nat) (v : Anchor) : (setAnchor s n v).pending = s.pending := by rfl
@[simp] theorem setAnchor_now (s : State) (n : Nat) (v : Anchor) : (setAnchor s n v).now = s.now := by rfl
@[simp] theorem setAnchor_free (s : State) (n : Nat) (v : Anchor) : (setAnchor s n v).free = s.free := by rfl
@[simp] theorem setAnchor_time (s : State) (n : Nat) (v : Anchor) : (setAnchor s n v).time = s.time := by rfl
@[simp] theorem setAnchor_mbx (s : State) (n : Nat) (v : Anchor) : (setAnchor s n v).mbx = s.mbx := by rfl
@[simp] theorem setAnchor_op (s : State) (n : Nat) (v : Anchor) : (setAnchor s n v).op = s.op := by rfl
@[simp] theorem setAnchor_tile (s : State) (n : Nat) (v : Anchor) : (setAnchor s n v).tile = s.tile := by rfl
@[simp] theorem setAnchor_mem (s : State) (n : Nat) (v : Anchor) : (setAnchor s n v).mem = s.mem := by rfl
@[simp] theorem setAnchor_host (s : State) (n : Nat) (v : Anchor) : (setAnchor s n v).host = s.host := by rfl
@[simp] theorem setAnchor_reg (s : State) (n : Nat) (v : Anchor) : (setAnchor s n v).reg = s.reg := by rfl
@[simp] theorem setAnchor_insts (s : State) (n : Nat) (v : Anchor) : (setAnchor s n v).insts = s.insts := by rfl
@[simp] theorem setAnchor_flt (s : State) (n : Nat) (v : Anchor) : (setAnchor s n v).flt = s.flt := by rfl
@[simp] theorem setAnchor_fab (s : State) (n : Nat) (v : Anchor) : (setAnchor s n v).fab = s.fab := by rfl
@[simp] theorem setAnchor_pwr (s : State) (n : Nat) (v : Anchor) : (setAnchor s n v).pwr = s.pwr := by rfl
@[simp] theorem setAnchor_met (s : State) (n : Nat) (v : Anchor) : (setAnchor s n v).met = s.met := by rfl
@[simp] theorem setAnchor_keep (s : State) (n : Nat) (v : Anchor) : (setAnchor s n v).keep = s.keep := by rfl
@[simp] theorem setAnchor_arb (s : State) (n : Nat) (v : Anchor) : (setAnchor s n v).arb = s.arb := by rfl
@[simp] theorem setAnchor_img_images (s : State) (n : Nat) (v : Anchor) : (setAnchor s n v).img.images = s.img.images := by rfl
@[simp] theorem setAnchor_img_load (s : State) (n : Nat) (v : Anchor) : (setAnchor s n v).img.load = s.img.load := by rfl
@[simp] theorem setAnchor_img_loadReason (s : State) (n : Nat) (v : Anchor) : (setAnchor s n v).img.loadReason = s.img.loadReason := by rfl
@[simp] theorem setAnchor_img_loadStage (s : State) (n : Nat) (v : Anchor) : (setAnchor s n v).img.loadStage = s.img.loadStage := by rfl
@[simp] theorem setAnchor_img_loadDone (s : State) (n : Nat) (v : Anchor) : (setAnchor s n v).img.loadDone = s.img.loadDone := by rfl
@[simp] theorem setAnchor_img_progress (s : State) (n : Nat) (v : Anchor) : (setAnchor s n v).img.progress = s.img.progress := by rfl
@[simp] theorem setAnchor_img_policyBoth (s : State) (n : Nat) (v : Anchor) : (setAnchor s n v).img.policyBoth = s.img.policyBoth := by rfl
@[simp] theorem setAnchor_img_zeroise (s : State) (n : Nat) (v : Anchor) : (setAnchor s n v).img.zeroise = s.img.zeroise := by rfl
@[simp] theorem setAnchor_img_zeroiseFlag (s : State) (n : Nat) (v : Anchor) : (setAnchor s n v).img.zeroiseFlag = s.img.zeroiseFlag := by rfl
@[simp] theorem setAnchor_img_zeroiseBy (s : State) (n : Nat) (v : Anchor) : (setAnchor s n v).img.zeroiseBy = s.img.zeroiseBy := by rfl
@[simp] theorem setAnchor_img_calGen (s : State) (n : Nat) (v : Anchor) : (setAnchor s n v).img.calGen = s.img.calGen := by rfl
@[simp] theorem setAnchor_img_userSets (s : State) (n : Nat) (v : Anchor) : (setAnchor s n v).img.userSets = s.img.userSets := by rfl

/-! ## Reads after updates -/

theorem getStack_setStack (s : State) (n : Nat) (v : Stack) (m : Nat) : getStack (setStack s n v) m = if m = n then v else getStack s m := tabGet_tabPut _ _ _ _ _
@[simp] theorem getStack_setStack_same (s : State) (n : Nat) (v : Stack) : getStack (setStack s n v) n = v := tabGet_tabPut_same _ _ _ _
theorem getStack_setStack_other (s : State) (n : Nat) (v : Stack) (m : Nat) (h : m ≠ n) : getStack (setStack s n v) m = getStack s m := tabGet_tabPut_other _ _ _ _ _ h
theorem getInst_setInst (s : State) (n : Nat) (v : Instance) (m : Nat) : getInst (setInst s n v) m = if m = n then v else getInst s m := tabGet_tabPut _ _ _ _ _
@[simp] theorem getInst_setInst_same (s : State) (n : Nat) (v : Instance) : getInst (setInst s n v) n = v := tabGet_tabPut_same _ _ _ _
theorem getInst_setInst_other (s : State) (n : Nat) (v : Instance) (m : Nat) (h : m ≠ n) : getInst (setInst s n v) m = getInst s m := tabGet_tabPut_other _ _ _ _ _ h
theorem getTile_setTile (s : State) (n : Nat) (v : Tile) (m : Nat) : getTile (setTile s n v) m = if m = n then v else getTile s m := tabGet_tabPut _ _ _ _ _
@[simp] theorem getTile_setTile_same (s : State) (n : Nat) (v : Tile) : getTile (setTile s n v) n = v := tabGet_tabPut_same _ _ _ _
theorem getTile_setTile_other (s : State) (n : Nat) (v : Tile) (m : Nat) (h : m ≠ n) : getTile (setTile s n v) m = getTile s m := tabGet_tabPut_other _ _ _ _ _ h
theorem getThr_setThr (s : State) (n : Nat) (v : Thread) (m : Nat) : getThr (setThr s n v) m = if m = n then v else getThr s m := tabGet_tabPut _ _ _ _ _
@[simp] theorem getThr_setThr_same (s : State) (n : Nat) (v : Thread) : getThr (setThr s n v) n = v := tabGet_tabPut_same _ _ _ _
theorem getThr_setThr_other (s : State) (n : Nat) (v : Thread) (m : Nat) (h : m ≠ n) : getThr (setThr s n v) m = getThr s m := tabGet_tabPut_other _ _ _ _ _ h
theorem getCore_setCore (s : State) (n : Nat) (v : Core) (m : Nat) : getCore (setCore s n v) m = if m = n then v else getCore s m := tabGet_tabPut _ _ _ _ _
@[simp] theorem getCore_setCore_same (s : State) (n : Nat) (v : Core) : getCore (setCore s n v) n = v := tabGet_tabPut_same _ _ _ _
theorem getCore_setCore_other (s : State) (n : Nat) (v : Core) (m : Nat) (h : m ≠ n) : getCore (setCore s n v) m = getCore s m := tabGet_tabPut_other _ _ _ _ _ h
theorem getOp_setOp (s : State) (n : Nat) (v : Op) (m : Nat) : getOp (setOp s n v) m = if m = n then v else getOp s m := tabGet_tabPut _ _ _ _ _
@[simp] theorem getOp_setOp_same (s : State) (n : Nat) (v : Op) : getOp (setOp s n v) n = v := tabGet_tabPut_same _ _ _ _
theorem getOp_setOp_other (s : State) (n : Nat) (v : Op) (m : Nat) (h : m ≠ n) : getOp (setOp s n v) m = getOp s m := tabGet_tabPut_other _ _ _ _ _ h
theorem getCad_setCad (s : State) (n : Nat) (v : Cadence) (m : Nat) : getCad (setCad s n v) m = if m = n then v else getCad s m := tabGet_tabPut _ _ _ _ _
@[simp] theorem getCad_setCad_same (s : State) (n : Nat) (v : Cadence) : getCad (setCad s n v) n = v := tabGet_tabPut_same _ _ _ _
theorem getCad_setCad_other (s : State) (n : Nat) (v : Cadence) (m : Nat) (h : m ≠ n) : getCad (setCad s n v) m = getCad s m := tabGet_tabPut_other _ _ _ _ _ h
theorem getXfer_setXfer (s : State) (n : Nat) (v : Xfer) (m : Nat) : getXfer (setXfer s n v) m = if m = n then v else getXfer s m := tabGet_tabPut _ _ _ _ _
@[simp] theorem getXfer_setXfer_same (s : State) (n : Nat) (v : Xfer) : getXfer (setXfer s n v) n = v := tabGet_tabPut_same _ _ _ _
theorem getXfer_setXfer_other (s : State) (n : Nat) (v : Xfer) (m : Nat) (h : m ≠ n) : getXfer (setXfer s n v) m = getXfer s m := tabGet_tabPut_other _ _ _ _ _ h
theorem getColl_setColl (s : State) (n : Nat) (v : CollEngine) (m : Nat) : getColl (setColl s n v) m = if m = n then v else getColl s m := tabGet_tabPut _ _ _ _ _
@[simp] theorem getColl_setColl_same (s : State) (n : Nat) (v : CollEngine) : getColl (setColl s n v) n = v := tabGet_tabPut_same _ _ _ _
theorem getColl_setColl_other (s : State) (n : Nat) (v : CollEngine) (m : Nat) (h : m ≠ n) : getColl (setColl s n v) m = getColl s m := tabGet_tabPut_other _ _ _ _ _ h
theorem getLink_setLink (s : State) (n : Nat) (v : LinkSt) (m : Nat) : getLink (setLink s n v) m = if m = n then v else getLink s m := tabGet_tabPut _ _ _ _ _
@[simp] theorem getLink_setLink_same (s : State) (n : Nat) (v : LinkSt) : getLink (setLink s n v) n = v := tabGet_tabPut_same _ _ _ _
theorem getLink_setLink_other (s : State) (n : Nat) (v : LinkSt) (m : Nat) (h : m ≠ n) : getLink (setLink s n v) m = getLink s m := tabGet_tabPut_other _ _ _ _ _ h
theorem getLaunch_setLaunch (s : State) (n : Nat) (v : Launch) (m : Nat) : getLaunch (setLaunch s n v) m = if m = n then v else getLaunch s m := tabGet_tabPut _ _ _ _ _
@[simp] theorem getLaunch_setLaunch_same (s : State) (n : Nat) (v : Launch) : getLaunch (setLaunch s n v) n = v := tabGet_tabPut_same _ _ _ _
theorem getLaunch_setLaunch_other (s : State) (n : Nat) (v : Launch) (m : Nat) (h : m ≠ n) : getLaunch (setLaunch s n v) m = getLaunch s m := tabGet_tabPut_other _ _ _ _ _ h
theorem getChan_setChan (s : State) (n : Nat) (v : Chan) (m : Nat) : getChan (setChan s n v) m = if m = n then v else getChan s m := tabGet_tabPut _ _ _ _ _
@[simp] theorem getChan_setChan_same (s : State) (n : Nat) (v : Chan) : getChan (setChan s n v) n = v := tabGet_tabPut_same _ _ _ _
theorem getChan_setChan_other (s : State) (n : Nat) (v : Chan) (m : Nat) (h : m ≠ n) : getChan (setChan s n v) m = getChan s m := tabGet_tabPut_other _ _ _ _ _ h
theorem getMet_setMet (s : State) (n : Nat) (v : Met) (m : Nat) : getMet (setMet s n v) m = if m = n then v else getMet s m := tabGet_tabPut _ _ _ _ _
@[simp] theorem getMet_setMet_same (s : State) (n : Nat) (v : Met) : getMet (setMet s n v) n = v := tabGet_tabPut_same _ _ _ _
theorem getMet_setMet_other (s : State) (n : Nat) (v : Met) (m : Nat) (h : m ≠ n) : getMet (setMet s n v) m = getMet s m := tabGet_tabPut_other _ _ _ _ _ h
theorem getSensor_setSensor (s : State) (n : Nat) (v : Sensor) (m : Nat) : getSensor (setSensor s n v) m = if m = n then v else getSensor s m := tabGet_tabPut _ _ _ _ _
@[simp] theorem getSensor_setSensor_same (s : State) (n : Nat) (v : Sensor) : getSensor (setSensor s n v) n = v := tabGet_tabPut_same _ _ _ _
theorem getSensor_setSensor_other (s : State) (n : Nat) (v : Sensor) (m : Nat) (h : m ≠ n) : getSensor (setSensor s n v) m = getSensor s m := tabGet_tabPut_other _ _ _ _ _ h
theorem getAnchor_setAnchor (s : State) (n : Nat) (v : Anchor) (m : Nat) : getAnchor (setAnchor s n v) m = if m = n then v else getAnchor s m := tabGet_tabPut _ _ _ _ _
@[simp] theorem getAnchor_setAnchor_same (s : State) (n : Nat) (v : Anchor) : getAnchor (setAnchor s n v) n = v := tabGet_tabPut_same _ _ _ _
theorem getAnchor_setAnchor_other (s : State) (n : Nat) (v : Anchor) (m : Nat) (h : m ≠ n) : getAnchor (setAnchor s n v) m = getAnchor s m := tabGet_tabPut_other _ _ _ _ _ h

/-! ## What a reading depends on -/

theorem getThr_of_mbx {s s' : State} (h : s'.mbx = s.mbx) (t : Nat) : getThr s' t = getThr s t := by rw [getThr, h, getThr]
theorem getCore_of_mbx {s s' : State} (h : s'.mbx = s.mbx) (c : Nat) : getCore s' c = getCore s c := by rw [getCore, h, getCore]
theorem getRing_of_mbx {s s' : State} (h : s'.mbx = s.mbx) (n j : Nat) : getRing s' n j = getRing s n j := by
  rw [getRing, h, getRing]
theorem getOp_of_op {s s' : State} (h : s'.op = s.op) (e : Nat) : getOp s' e = getOp s e := by rw [getOp, h, getOp]
theorem getTile_of_tile {s s' : State} (h : s'.tile = s.tile) (p : Nat) : getTile s' p = getTile s p := by
  rw [getTile, h, getTile]
theorem getInst_of_insts {s s' : State} (h : s'.insts = s.insts) (n : Nat) : getInst s' n = getInst s n := by
  rw [getInst, h, getInst]
theorem regAct_of_reg {s s' : State} (h : s'.reg = s.reg) (b : Blk) (o : Nat) : regAct s' b o = regAct s b o := by
  rw [regAct, h, regAct]
theorem regPend_of_reg {s s' : State} (h : s'.reg = s.reg) (b : Blk) (o : Nat) : regPend s' b o = regPend s b o := by
  rw [regPend, h, regPend]
theorem regFld_of_reg {s s' : State} (h : s'.reg = s.reg) (b : Blk) (o lo w : Nat) : regFld s' b o lo w = regFld s b o lo w := by
  rw [regFld, regAct_of_reg h, regFld]
theorem getStack_of_mem {s s' : State} (h : s'.mem = s.mem) (k : Nat) : getStack s' k = getStack s k := by
  rw [getStack, h, getStack]
theorem lineBad_of_mem {s s' : State} (h : s'.mem = s.mem) (a : Nat) : lineBad s' a = lineBad s a := by
  simp [lineBad, getStack_of_mem h, h]
theorem rangeBad_of_mem {s s' : State} (h : s'.mem = s.mem) (a n : Nat) : rangeBad s' a n = rangeBad s a n := by
  simp [rangeBad, getStack_of_mem h, h]
theorem rdByte_of_mem {s s' : State} (h : s'.mem = s.mem) (hf : s'.free = s.free) (a : Nat) : rdByte s' a = rdByte s a := by
  simp [rdByte, h, hf]
theorem rdBytes_of_mem {s s' : State} (h : s'.mem = s.mem) (hf : s'.free = s.free) (a n : Nat) :
    rdBytes s' a n = rdBytes s a n := by simp [rdBytes, funext (rdByte_of_mem h hf)]
theorem rdNat_of_mem {s s' : State} (h : s'.mem = s.mem) (hf : s'.free = s.free) (a n : Nat) : rdNat s' a n = rdNat s a n := by
  rw [rdNat, rdBytes_of_mem h hf, rdNat]

/-- Stacked memory reads the same whatever the count of free values. -/
theorem rdByte_stacked {s s' : State} (h : s'.mem = s.mem) {a : Nat} (ha : isStacked a = true) : rdByte s' a = rdByte s a := by
  simp [rdByte, h, ha]

end Sys2Proof.Machine
end

