-- ==== Sys2Proof/Laws/Frame.lean ====
section
/-! SUPPORT. The frames of the shared operations: which groups of the state each one leaves as they were, and that memory
stays canonical. -/

namespace Sys2Proof.Machine

open Sys2Proof

/-! ### RegMap -/

@[simp] theorem applyReg_frame (c : Cls) (s : State) (b : Blk) (o : Nat) :
    (applyReg c s b o).pending = s.pending ∧ (applyReg c s b o).now = s.now ∧ (applyReg c s b o).free = s.free ∧ (applyReg c s b o).time = s.time ∧ (applyReg c s b o).mbx = s.mbx ∧ (applyReg c s b o).op = s.op ∧ (applyReg c s b o).tile = s.tile ∧ (applyReg c s b o).img = s.img ∧ (applyReg c s b o).mem = s.mem ∧ (applyReg c s b o).host = s.host ∧ (applyReg c s b o).insts = s.insts ∧ (applyReg c s b o).flt = s.flt ∧ (applyReg c s b o).fab = s.fab ∧ (applyReg c s b o).pwr = s.pwr ∧ (applyReg c s b o).met = s.met ∧ (applyReg c s b o).keep = s.keep ∧ (applyReg c s b o).arb = s.arb := by
  and_intros <;> (unfold applyReg; (try dsimp only); (repeat' split) <;> simp [*])

@[simp] theorem applyBlock_frame (c : Cls) (b : Blk) (s : State) :
    (applyBlock c b s).pending = s.pending ∧ (applyBlock c b s).now = s.now ∧ (applyBlock c b s).free = s.free ∧ (applyBlock c b s).time = s.time ∧ (applyBlock c b s).mbx = s.mbx ∧ (applyBlock c b s).op = s.op ∧ (applyBlock c b s).tile = s.tile ∧ (applyBlock c b s).img = s.img ∧ (applyBlock c b s).mem = s.mem ∧ (applyBlock c b s).host = s.host ∧ (applyBlock c b s).insts = s.insts ∧ (applyBlock c b s).flt = s.flt ∧ (applyBlock c b s).fab = s.fab ∧ (applyBlock c b s).pwr = s.pwr ∧ (applyBlock c b s).met = s.met ∧ (applyBlock c b s).keep = s.keep ∧ (applyBlock c b s).arb = s.arb := by
  and_intros <;> (unfold applyBlock; (try dsimp only); (repeat' split) <;> simp (disch := (intros; (try dsimp only); (repeat' split) <;> (try simp [*]))) [*])

@[simp] theorem setBlockStat_frame (s : State) (b : Blk) (n : Nat) :
    (setBlockStat s b n).pending = s.pending ∧ (setBlockStat s b n).now = s.now ∧ (setBlockStat s b n).free = s.free ∧ (setBlockStat s b n).time = s.time ∧ (setBlockStat s b n).mbx = s.mbx ∧ (setBlockStat s b n).op = s.op ∧ (setBlockStat s b n).tile = s.tile ∧ (setBlockStat s b n).img = s.img ∧ (setBlockStat s b n).mem = s.mem ∧ (setBlockStat s b n).host = s.host ∧ (setBlockStat s b n).insts = s.insts ∧ (setBlockStat s b n).flt = s.flt ∧ (setBlockStat s b n).fab = s.fab ∧ (setBlockStat s b n).pwr = s.pwr ∧ (setBlockStat s b n).met = s.met ∧ (setBlockStat s b n).keep = s.keep ∧ (setBlockStat s b n).arb = s.arb := by
  and_intros <;> (simp [setBlockStat])

/-! ### Memory -/

@[simp] theorem wrStacked_frame (s : State) (a : Nat) (bs : List Byte) :
    (wrStacked s a bs).pending = s.pending ∧ (wrStacked s a bs).now = s.now ∧ (wrStacked s a bs).free = s.free ∧ (wrStacked s a bs).time = s.time ∧ (wrStacked s a bs).mbx = s.mbx ∧ (wrStacked s a bs).op = s.op ∧ (wrStacked s a bs).tile = s.tile ∧ (wrStacked s a bs).img = s.img ∧ (wrStacked s a bs).host = s.host ∧ (wrStacked s a bs).reg = s.reg ∧ (wrStacked s a bs).insts = s.insts ∧ (wrStacked s a bs).flt = s.flt ∧ (wrStacked s a bs).fab = s.fab ∧ (wrStacked s a bs).pwr = s.pwr ∧ (wrStacked s a bs).met = s.met ∧ (wrStacked s a bs).keep = s.keep ∧ (wrStacked s a bs).arb = s.arb := by
  and_intros <;> (simp [wrStacked])

@[simp] theorem wrBytes_frame (s : State) (inst : Inst) (a : Nat) (bs : List Byte) :
    (wrBytes s inst a bs).pending = s.pending ∧ (wrBytes s inst a bs).now = s.now ∧ (wrBytes s inst a bs).free = s.free ∧ (wrBytes s inst a bs).time = s.time ∧ (wrBytes s inst a bs).mbx = s.mbx ∧ (wrBytes s inst a bs).op = s.op ∧ (wrBytes s inst a bs).tile = s.tile ∧ (wrBytes s inst a bs).img = s.img ∧ (wrBytes s inst a bs).reg = s.reg ∧ (wrBytes s inst a bs).insts = s.insts ∧ (wrBytes s inst a bs).flt = s.flt ∧ (wrBytes s inst a bs).fab = s.fab ∧ (wrBytes s inst a bs).pwr = s.pwr ∧ (wrBytes s inst a bs).met = s.met ∧ (wrBytes s inst a bs).keep = s.keep ∧ (wrBytes s inst a bs).arb = s.arb := by
  and_intros <;> (unfold wrBytes; (try dsimp only); (repeat' split) <;> simp [*])

@[simp] theorem wrNat_frame (s : State) (inst : Inst) (a n v : Nat) :
    (wrNat s inst a n v).pending = s.pending ∧ (wrNat s inst a n v).now = s.now ∧ (wrNat s inst a n v).free = s.free ∧ (wrNat s inst a n v).time = s.time ∧ (wrNat s inst a n v).mbx = s.mbx ∧ (wrNat s inst a n v).op = s.op ∧ (wrNat s inst a n v).tile = s.tile ∧ (wrNat s inst a n v).img = s.img ∧ (wrNat s inst a n v).reg = s.reg ∧ (wrNat s inst a n v).insts = s.insts ∧ (wrNat s inst a n v).flt = s.flt ∧ (wrNat s inst a n v).fab = s.fab ∧ (wrNat s inst a n v).pwr = s.pwr ∧ (wrNat s inst a n v).met = s.met ∧ (wrNat s inst a n v).keep = s.keep ∧ (wrNat s inst a n v).arb = s.arb := by
  and_intros <;> (simp [wrNat])

@[simp] theorem zeroRange_frame (s : State) (a n : Nat) :
    (zeroRange s a n).pending = s.pending ∧ (zeroRange s a n).now = s.now ∧ (zeroRange s a n).free = s.free ∧ (zeroRange s a n).time = s.time ∧ (zeroRange s a n).mbx = s.mbx ∧ (zeroRange s a n).op = s.op ∧ (zeroRange s a n).tile = s.tile ∧ (zeroRange s a n).img = s.img ∧ (zeroRange s a n).host = s.host ∧ (zeroRange s a n).reg = s.reg ∧ (zeroRange s a n).insts = s.insts ∧ (zeroRange s a n).flt = s.flt ∧ (zeroRange s a n).fab = s.fab ∧ (zeroRange s a n).pwr = s.pwr ∧ (zeroRange s a n).met = s.met ∧ (zeroRange s a n).keep = s.keep ∧ (zeroRange s a n).arb = s.arb := by
  and_intros <;> (simp [zeroRange])

/-! ### Event -/

@[simp] theorem raiseMsi_frame (s : State) (fn : Inst) (v : Nat) :
    (raiseMsi s fn v).pending = s.pending ∧ (raiseMsi s fn v).now = s.now ∧ (raiseMsi s fn v).free = s.free ∧ (raiseMsi s fn v).time = s.time ∧ (raiseMsi s fn v).mbx = s.mbx ∧ (raiseMsi s fn v).op = s.op ∧ (raiseMsi s fn v).tile = s.tile ∧ (raiseMsi s fn v).img = s.img ∧ (raiseMsi s fn v).mem = s.mem ∧ (raiseMsi s fn v).reg = s.reg ∧ (raiseMsi s fn v).insts = s.insts ∧ (raiseMsi s fn v).flt = s.flt ∧ (raiseMsi s fn v).fab = s.fab ∧ (raiseMsi s fn v).pwr = s.pwr ∧ (raiseMsi s fn v).met = s.met ∧ (raiseMsi s fn v).keep = s.keep ∧ (raiseMsi s fn v).arb = s.arb := by
  and_intros <;> (unfold raiseMsi; (try dsimp only); (repeat' split) <;> simp [*])

@[simp] theorem raiseIrq_frame (s : State) (n : Inst) (j : Nat) :
    (raiseIrq s n j).pending = s.pending ∧ (raiseIrq s n j).now = s.now ∧ (raiseIrq s n j).free = s.free ∧ (raiseIrq s n j).time = s.time ∧ (raiseIrq s n j).mbx = s.mbx ∧ (raiseIrq s n j).op = s.op ∧ (raiseIrq s n j).tile = s.tile ∧ (raiseIrq s n j).img = s.img ∧ (raiseIrq s n j).mem = s.mem ∧ (raiseIrq s n j).reg = s.reg ∧ (raiseIrq s n j).insts = s.insts ∧ (raiseIrq s n j).flt = s.flt ∧ (raiseIrq s n j).fab = s.fab ∧ (raiseIrq s n j).pwr = s.pwr ∧ (raiseIrq s n j).met = s.met ∧ (raiseIrq s n j).keep = s.keep ∧ (raiseIrq s n j).arb = s.arb := by
  and_intros <;> (simp [raiseIrq])

@[simp] theorem ringRecord_frame (s : State) (n : Inst) (e : Event) :
    (ringRecord s n e).pending = s.pending ∧ (ringRecord s n e).now = s.now ∧ (ringRecord s n e).free = s.free ∧ (ringRecord s n e).time = s.time ∧ (ringRecord s n e).mbx = s.mbx ∧ (ringRecord s n e).op = s.op ∧ (ringRecord s n e).tile = s.tile ∧ (ringRecord s n e).img = s.img ∧ (ringRecord s n e).reg = s.reg ∧ (ringRecord s n e).insts = s.insts ∧ (ringRecord s n e).flt = s.flt ∧ (ringRecord s n e).fab = s.fab ∧ (ringRecord s n e).pwr = s.pwr ∧ (ringRecord s n e).met = s.met ∧ (ringRecord s n e).keep = s.keep ∧ (ringRecord s n e).arb = s.arb := by
  and_intros <;> (unfold ringRecord; (try dsimp only); (repeat' split) <;> simp [*])

@[simp] theorem ringRecord_wf (s : State) (n : Inst) (e : Event) (h0 : Memory.wf s.mem.cells = true) :
    Memory.wf (ringRecord s n e).mem.cells = true := by unfold ringRecord; (try dsimp only); (repeat' split) <;> simp [*]

@[simp] theorem emit_frame (s : State) (cls action : Byte) (inst : Option Inst) (unit : UnitId) (detail : List Byte) :
    (emit s cls action inst unit detail).pending = s.pending ∧ (emit s cls action inst unit detail).now = s.now ∧ (emit s cls action inst unit detail).free = s.free ∧ (emit s cls action inst unit detail).time = s.time ∧ (emit s cls action inst unit detail).mbx = s.mbx ∧ (emit s cls action inst unit detail).op = s.op ∧ (emit s cls action inst unit detail).tile = s.tile ∧ (emit s cls action inst unit detail).img = s.img ∧ (emit s cls action inst unit detail).reg = s.reg ∧ (emit s cls action inst unit detail).insts = s.insts ∧ (emit s cls action inst unit detail).fab = s.fab ∧ (emit s cls action inst unit detail).pwr = s.pwr ∧ (emit s cls action inst unit detail).met = s.met ∧ (emit s cls action inst unit detail).keep = s.keep ∧ (emit s cls action inst unit detail).arb = s.arb := by
  and_intros <;> (unfold emit; (try dsimp only); (repeat' split) <;> simp [*])

@[simp] theorem emit_wf (s : State) (cls action : Byte) (inst : Option Inst) (unit : UnitId) (detail : List Byte) (h0 : Memory.wf s.mem.cells = true) :
    Memory.wf (emit s cls action inst unit detail).mem.cells = true := by unfold emit; (try dsimp only); (repeat' split) <;> simp [*]

@[simp] theorem emitArray_frame (s : State) (action : Byte) (p a old new reason : Nat) :
    (emitArray s action p a old new reason).pending = s.pending ∧ (emitArray s action p a old new reason).now = s.now ∧ (emitArray s action p a old new reason).free = s.free ∧ (emitArray s action p a old new reason).time = s.time ∧ (emitArray s action p a old new reason).mbx = s.mbx ∧ (emitArray s action p a old new reason).op = s.op ∧ (emitArray s action p a old new reason).tile = s.tile ∧ (emitArray s action p a old new reason).img = s.img ∧ (emitArray s action p a old new reason).reg = s.reg ∧ (emitArray s action p a old new reason).insts = s.insts ∧ (emitArray s action p a old new reason).fab = s.fab ∧ (emitArray s action p a old new reason).pwr = s.pwr ∧ (emitArray s action p a old new reason).met = s.met ∧ (emitArray s action p a old new reason).keep = s.keep ∧ (emitArray s action p a old new reason).arb = s.arb := by
  and_intros <;> (simp [emitArray])

@[simp] theorem emitArray_wf (s : State) (action : Byte) (p a old new reason : Nat) (h0 : Memory.wf s.mem.cells = true) :
    Memory.wf (emitArray s action p a old new reason).mem.cells = true := by simp [emitArray, *]

@[simp] theorem emitFenced_frame (s : State) (u : UnitId) (action : Byte) (cause : Nat) (src : Nat) :
    (emitFenced s u action cause src).pending = s.pending ∧ (emitFenced s u action cause src).now = s.now ∧ (emitFenced s u action cause src).free = s.free ∧ (emitFenced s u action cause src).time = s.time ∧ (emitFenced s u action cause src).mbx = s.mbx ∧ (emitFenced s u action cause src).op = s.op ∧ (emitFenced s u action cause src).tile = s.tile ∧ (emitFenced s u action cause src).img = s.img ∧ (emitFenced s u action cause src).reg = s.reg ∧ (emitFenced s u action cause src).insts = s.insts ∧ (emitFenced s u action cause src).fab = s.fab ∧ (emitFenced s u action cause src).pwr = s.pwr ∧ (emitFenced s u action cause src).met = s.met ∧ (emitFenced s u action cause src).keep = s.keep ∧ (emitFenced s u action cause src).arb = s.arb := by
  and_intros <;> (simp [emitFenced])

@[simp] theorem emitFenced_wf (s : State) (u : UnitId) (action : Byte) (cause : Nat) (src : Nat) (h0 : Memory.wf s.mem.cells = true) :
    Memory.wf (emitFenced s u action cause src).mem.cells = true := by simp [emitFenced, *]

@[simp] theorem emitRestored_frame (s : State) (u new : UnitId) (action : Byte) :
    (emitRestored s u new action).pending = s.pending ∧ (emitRestored s u new action).now = s.now ∧ (emitRestored s u new action).free = s.free ∧ (emitRestored s u new action).time = s.time ∧ (emitRestored s u new action).mbx = s.mbx ∧ (emitRestored s u new action).op = s.op ∧ (emitRestored s u new action).tile = s.tile ∧ (emitRestored s u new action).img = s.img ∧ (emitRestored s u new action).reg = s.reg ∧ (emitRestored s u new action).insts = s.insts ∧ (emitRestored s u new action).fab = s.fab ∧ (emitRestored s u new action).pwr = s.pwr ∧ (emitRestored s u new action).met = s.met ∧ (emitRestored s u new action).keep = s.keep ∧ (emitRestored s u new action).arb = s.arb := by
  and_intros <;> (simp [emitRestored])

@[simp] theorem emitRestored_wf (s : State) (u new : UnitId) (action : Byte) (h0 : Memory.wf s.mem.cells = true) :
    Memory.wf (emitRestored s u new action).mem.cells = true := by simp [emitRestored, *]

@[simp] theorem emitPower_frame (s : State) (action : Byte) (unit : UnitId) (ev a die sensor value : Nat) :
    (emitPower s action unit ev a die sensor value).pending = s.pending ∧ (emitPower s action unit ev a die sensor value).now = s.now ∧ (emitPower s action unit ev a die sensor value).free = s.free ∧ (emitPower s action unit ev a die sensor value).time = s.time ∧ (emitPower s action unit ev a die sensor value).mbx = s.mbx ∧ (emitPower s action unit ev a die sensor value).op = s.op ∧ (emitPower s action unit ev a die sensor value).tile = s.tile ∧ (emitPower s action unit ev a die sensor value).img = s.img ∧ (emitPower s action unit ev a die sensor value).reg = s.reg ∧ (emitPower s action unit ev a die sensor value).insts = s.insts ∧ (emitPower s action unit ev a die sensor value).fab = s.fab ∧ (emitPower s action unit ev a die sensor value).pwr = s.pwr ∧ (emitPower s action unit ev a die sensor value).met = s.met ∧ (emitPower s action unit ev a die sensor value).keep = s.keep ∧ (emitPower s action unit ev a die sensor value).arb = s.arb := by
  and_intros <;> (simp [emitPower])

@[simp] theorem emitPower_wf (s : State) (action : Byte) (unit : UnitId) (ev a die sensor value : Nat) (h0 : Memory.wf s.mem.cells = true) :
    Memory.wf (emitPower s action unit ev a die sensor value).mem.cells = true := by simp [emitPower, *]

@[simp] theorem emitMemory_frame (s : State) (action : Byte) (inst : Option Inst) (a kind : Nat) :
    (emitMemory s action inst a kind).pending = s.pending ∧ (emitMemory s action inst a kind).now = s.now ∧ (emitMemory s action inst a kind).free = s.free ∧ (emitMemory s action inst a kind).time = s.time ∧ (emitMemory s action inst a kind).mbx = s.mbx ∧ (emitMemory s action inst a kind).op = s.op ∧ (emitMemory s action inst a kind).tile = s.tile ∧ (emitMemory s action inst a kind).img = s.img ∧ (emitMemory s action inst a kind).reg = s.reg ∧ (emitMemory s action inst a kind).insts = s.insts ∧ (emitMemory s action inst a kind).fab = s.fab ∧ (emitMemory s action inst a kind).pwr = s.pwr ∧ (emitMemory s action inst a kind).met = s.met ∧ (emitMemory s action inst a kind).keep = s.keep ∧ (emitMemory s action inst a kind).arb = s.arb := by
  and_intros <;> (simp [emitMemory])

@[simp] theorem emitMemory_wf (s : State) (action : Byte) (inst : Option Inst) (a kind : Nat) (h0 : Memory.wf s.mem.cells = true) :
    Memory.wf (emitMemory s action inst a kind).mem.cells = true := by simp [emitMemory, *]

@[simp] theorem emitThread3_frame (s : State) (inst : Inst) (tid kind code : Nat) (pc addr tag : W64) :
    (emitThread3 s inst tid kind code pc addr tag).pending = s.pending ∧ (emitThread3 s inst tid kind code pc addr tag).now = s.now ∧ (emitThread3 s inst tid kind code pc addr tag).free = s.free ∧ (emitThread3 s inst tid kind code pc addr tag).time = s.time ∧ (emitThread3 s inst tid kind code pc addr tag).mbx = s.mbx ∧ (emitThread3 s inst tid kind code pc addr tag).op = s.op ∧ (emitThread3 s inst tid kind code pc addr tag).tile = s.tile ∧ (emitThread3 s inst tid kind code pc addr tag).img = s.img ∧ (emitThread3 s inst tid kind code pc addr tag).reg = s.reg ∧ (emitThread3 s inst tid kind code pc addr tag).insts = s.insts ∧ (emitThread3 s inst tid kind code pc addr tag).fab = s.fab ∧ (emitThread3 s inst tid kind code pc addr tag).pwr = s.pwr ∧ (emitThread3 s inst tid kind code pc addr tag).met = s.met ∧ (emitThread3 s inst tid kind code pc addr tag).keep = s.keep ∧ (emitThread3 s inst tid kind code pc addr tag).arb = s.arb := by
  and_intros <;> (simp [emitThread3])

@[simp] theorem emitThread3_wf (s : State) (inst : Inst) (tid kind code : Nat) (pc addr tag : W64) (h0 : Memory.wf s.mem.cells = true) :
    Memory.wf (emitThread3 s inst tid kind code pc addr tag).mem.cells = true := by unfold emitThread3; (try dsimp only); (repeat' split) <;> simp (disch := (intros; (try dsimp only); (repeat' split) <;> (try simp [*]))) [*]

@[simp] theorem openWindow_frame (s : State) (u : UnitId) (spare : Option UnitId) :
    (openWindow s u spare).pending = s.pending ∧ (openWindow s u spare).now = s.now ∧ (openWindow s u spare).free = s.free ∧ (openWindow s u spare).time = s.time ∧ (openWindow s u spare).mbx = s.mbx ∧ (openWindow s u spare).op = s.op ∧ (openWindow s u spare).tile = s.tile ∧ (openWindow s u spare).img = s.img ∧ (openWindow s u spare).mem = s.mem ∧ (openWindow s u spare).host = s.host ∧ (openWindow s u spare).reg = s.reg ∧ (openWindow s u spare).insts = s.insts ∧ (openWindow s u spare).fab = s.fab ∧ (openWindow s u spare).pwr = s.pwr ∧ (openWindow s u spare).met = s.met ∧ (openWindow s u spare).keep = s.keep ∧ (openWindow s u spare).arb = s.arb := by
  and_intros <;> (simp [openWindow])

@[simp] theorem closeWindow_frame (s : State) (u : UnitId) :
    (closeWindow s u).pending = s.pending ∧ (closeWindow s u).now = s.now ∧ (closeWindow s u).free = s.free ∧ (closeWindow s u).time = s.time ∧ (closeWindow s u).mbx = s.mbx ∧ (closeWindow s u).op = s.op ∧ (closeWindow s u).tile = s.tile ∧ (closeWindow s u).img = s.img ∧ (closeWindow s u).mem = s.mem ∧ (closeWindow s u).host = s.host ∧ (closeWindow s u).reg = s.reg ∧ (closeWindow s u).insts = s.insts ∧ (closeWindow s u).fab = s.fab ∧ (closeWindow s u).pwr = s.pwr ∧ (closeWindow s u).met = s.met ∧ (closeWindow s u).keep = s.keep ∧ (closeWindow s u).arb = s.arb := by
  and_intros <;> (simp [closeWindow])

@[simp] theorem updAlert_frame (s : State) :
    (updAlert s).pending = s.pending ∧ (updAlert s).now = s.now ∧ (updAlert s).free = s.free ∧ (updAlert s).time = s.time ∧ (updAlert s).mbx = s.mbx ∧ (updAlert s).op = s.op ∧ (updAlert s).tile = s.tile ∧ (updAlert s).img = s.img ∧ (updAlert s).mem = s.mem ∧ (updAlert s).reg = s.reg ∧ (updAlert s).insts = s.insts ∧ (updAlert s).flt = s.flt ∧ (updAlert s).fab = s.fab ∧ (updAlert s).met = s.met ∧ (updAlert s).keep = s.keep ∧ (updAlert s).arb = s.arb := by
  and_intros <;> (unfold updAlert; (try dsimp only); (repeat' split) <;> simp [*])

/-! ### Thread -/

@[simp] theorem loseOrder_frame (s : State) (o : Order) :
    (loseOrder s o).pending = s.pending ∧ (loseOrder s o).now = s.now ∧ (loseOrder s o).free = s.free ∧ (loseOrder s o).time = s.time ∧ (loseOrder s o).op = s.op ∧ (loseOrder s o).tile = s.tile ∧ (loseOrder s o).img = s.img ∧ (loseOrder s o).mem = s.mem ∧ (loseOrder s o).host = s.host ∧ (loseOrder s o).reg = s.reg ∧ (loseOrder s o).flt = s.flt ∧ (loseOrder s o).fab = s.fab ∧ (loseOrder s o).pwr = s.pwr ∧ (loseOrder s o).met = s.met ∧ (loseOrder s o).keep = s.keep ∧ (loseOrder s o).arb = s.arb := by
  and_intros <;> (unfold loseOrder; (try dsimp only); (repeat' split) <;> simp [*])

@[simp] theorem contend_frame (s : State) (o : Order) :
    (contend s o).1.pending = s.pending ∧ (contend s o).1.now = s.now ∧ (contend s o).1.free = s.free ∧ (contend s o).1.time = s.time ∧ (contend s o).1.op = s.op ∧ (contend s o).1.tile = s.tile ∧ (contend s o).1.img = s.img ∧ (contend s o).1.mem = s.mem ∧ (contend s o).1.host = s.host ∧ (contend s o).1.flt = s.flt ∧ (contend s o).1.fab = s.fab ∧ (contend s o).1.pwr = s.pwr ∧ (contend s o).1.met = s.met ∧ (contend s o).1.keep = s.keep ∧ (contend s o).1.arb = s.arb := by
  and_intros <;> (unfold contend; (try dsimp only); (repeat' split) <;> simp [*])

@[simp] theorem contendBits_frame (s : State) (x : Order) :
    (contendBits s x).1.pending = s.pending ∧ (contendBits s x).1.now = s.now ∧ (contendBits s x).1.free = s.free ∧ (contendBits s x).1.time = s.time ∧ (contendBits s x).1.op = s.op ∧ (contendBits s x).1.tile = s.tile ∧ (contendBits s x).1.img = s.img ∧ (contendBits s x).1.mem = s.mem ∧ (contendBits s x).1.host = s.host ∧ (contendBits s x).1.flt = s.flt ∧ (contendBits s x).1.fab = s.fab ∧ (contendBits s x).1.pwr = s.pwr ∧ (contendBits s x).1.met = s.met ∧ (contendBits s x).1.keep = s.keep ∧ (contendBits s x).1.arb = s.arb := by
  and_intros <;> (unfold contendBits; (try dsimp only); (repeat' split) <;> simp [*])

@[simp] theorem drainEntry_frame (c : Nat) (s : State) (e : StoreEntry) :
    (drainEntry c s e).pending = s.pending ∧ (drainEntry c s e).now = s.now ∧ (drainEntry c s e).free = s.free ∧ (drainEntry c s e).time = s.time ∧ (drainEntry c s e).op = s.op ∧ (drainEntry c s e).tile = s.tile ∧ (drainEntry c s e).img = s.img ∧ (drainEntry c s e).reg = s.reg ∧ (drainEntry c s e).insts = s.insts ∧ (drainEntry c s e).flt = s.flt ∧ (drainEntry c s e).fab = s.fab ∧ (drainEntry c s e).pwr = s.pwr ∧ (drainEntry c s e).met = s.met ∧ (drainEntry c s e).keep = s.keep ∧ (drainEntry c s e).arb = s.arb := by
  and_intros <;> (unfold drainEntry; (try dsimp only); (repeat' split) <;> simp [*])

@[simp] theorem drainEntry_wf (c : Nat) (s : State) (e : StoreEntry) (h0 : Memory.wf s.mem.cells = true) :
    Memory.wf (drainEntry c s e).mem.cells = true := by unfold drainEntry; (try dsimp only); (repeat' split) <;> simp [*]

@[simp] theorem release_frame (s : State) (t : Nat) :
    (release s t).pending = s.pending ∧ (release s t).now = s.now ∧ (release s t).free = s.free ∧ (release s t).time = s.time ∧ (release s t).op = s.op ∧ (release s t).tile = s.tile ∧ (release s t).img = s.img ∧ (release s t).reg = s.reg ∧ (release s t).insts = s.insts ∧ (release s t).flt = s.flt ∧ (release s t).fab = s.fab ∧ (release s t).pwr = s.pwr ∧ (release s t).met = s.met ∧ (release s t).keep = s.keep ∧ (release s t).arb = s.arb := by
  and_intros <;> (unfold release; (try dsimp only); (repeat' split) <;> simp [*])

@[simp] theorem release_wf (s : State) (t : Nat) (h0 : Memory.wf s.mem.cells = true) :
    Memory.wf (release s t).mem.cells = true := by unfold release; (try dsimp only); (repeat' split) <;> simp (disch := (intros; (try dsimp only); (repeat' split) <;> (try simp [*]))) [*]

@[simp] theorem acquire_frame (s : State) (t : Nat) :
    (acquire s t).pending = s.pending ∧ (acquire s t).now = s.now ∧ (acquire s t).free = s.free ∧ (acquire s t).time = s.time ∧ (acquire s t).op = s.op ∧ (acquire s t).tile = s.tile ∧ (acquire s t).img = s.img ∧ (acquire s t).mem = s.mem ∧ (acquire s t).host = s.host ∧ (acquire s t).reg = s.reg ∧ (acquire s t).insts = s.insts ∧ (acquire s t).flt = s.flt ∧ (acquire s t).fab = s.fab ∧ (acquire s t).pwr = s.pwr ∧ (acquire s t).met = s.met ∧ (acquire s t).keep = s.keep ∧ (acquire s t).arb = s.arb := by
  and_intros <;> (unfold acquire; (try dsimp only); (repeat' split) <;> simp [*])

@[simp] theorem discardStores_frame (s : State) (t : Nat) :
    (discardStores s t).pending = s.pending ∧ (discardStores s t).now = s.now ∧ (discardStores s t).free = s.free ∧ (discardStores s t).time = s.time ∧ (discardStores s t).op = s.op ∧ (discardStores s t).tile = s.tile ∧ (discardStores s t).img = s.img ∧ (discardStores s t).mem = s.mem ∧ (discardStores s t).host = s.host ∧ (discardStores s t).reg = s.reg ∧ (discardStores s t).insts = s.insts ∧ (discardStores s t).flt = s.flt ∧ (discardStores s t).fab = s.fab ∧ (discardStores s t).pwr = s.pwr ∧ (discardStores s t).met = s.met ∧ (discardStores s t).keep = s.keep ∧ (discardStores s t).arb = s.arb := by
  and_intros <;> (unfold discardStores; (try dsimp only); (repeat' split) <;> simp [*])

@[simp] theorem stampThr_frame (s : State) (t : Nat) (f : Thread → Thread) :
    (stampThr s t f).pending = s.pending ∧ (stampThr s t f).now = s.now ∧ (stampThr s t f).free = s.free ∧ (stampThr s t f).time = s.time ∧ (stampThr s t f).op = s.op ∧ (stampThr s t f).tile = s.tile ∧ (stampThr s t f).img = s.img ∧ (stampThr s t f).mem = s.mem ∧ (stampThr s t f).host = s.host ∧ (stampThr s t f).reg = s.reg ∧ (stampThr s t f).insts = s.insts ∧ (stampThr s t f).flt = s.flt ∧ (stampThr s t f).fab = s.fab ∧ (stampThr s t f).pwr = s.pwr ∧ (stampThr s t f).met = s.met ∧ (stampThr s t f).keep = s.keep ∧ (stampThr s t f).arb = s.arb := by
  and_intros <;> (simp [stampThr])

@[simp] theorem makeRunnable_frame (s : State) (t : Nat) :
    (makeRunnable s t).pending = s.pending ∧ (makeRunnable s t).now = s.now ∧ (makeRunnable s t).free = s.free ∧ (makeRunnable s t).time = s.time ∧ (makeRunnable s t).op = s.op ∧ (makeRunnable s t).tile = s.tile ∧ (makeRunnable s t).img = s.img ∧ (makeRunnable s t).mem = s.mem ∧ (makeRunnable s t).host = s.host ∧ (makeRunnable s t).reg = s.reg ∧ (makeRunnable s t).insts = s.insts ∧ (makeRunnable s t).flt = s.flt ∧ (makeRunnable s t).fab = s.fab ∧ (makeRunnable s t).pwr = s.pwr ∧ (makeRunnable s t).met = s.met ∧ (makeRunnable s t).keep = s.keep ∧ (makeRunnable s t).arb = s.arb := by
  and_intros <;> (unfold makeRunnable; (try dsimp only); (repeat' split) <;> simp [*])

@[simp] theorem wakeThr_frame (s : State) (t : Nat) :
    (wakeThr s t).pending = s.pending ∧ (wakeThr s t).now = s.now ∧ (wakeThr s t).free = s.free ∧ (wakeThr s t).time = s.time ∧ (wakeThr s t).op = s.op ∧ (wakeThr s t).tile = s.tile ∧ (wakeThr s t).img = s.img ∧ (wakeThr s t).mem = s.mem ∧ (wakeThr s t).host = s.host ∧ (wakeThr s t).reg = s.reg ∧ (wakeThr s t).insts = s.insts ∧ (wakeThr s t).flt = s.flt ∧ (wakeThr s t).fab = s.fab ∧ (wakeThr s t).pwr = s.pwr ∧ (wakeThr s t).met = s.met ∧ (wakeThr s t).keep = s.keep ∧ (wakeThr s t).arb = s.arb := by
  and_intros <;> (simp [wakeThr])

@[simp] theorem beginWait_frame (s : State) (t : Nat) (k : WaitKind) (arg val : W64) (d : GReg) (limit : Option Nat) :
    (beginWait s t k arg val d limit).pending = s.pending ∧ (beginWait s t k arg val d limit).now = s.now ∧ (beginWait s t k arg val d limit).free = s.free ∧ (beginWait s t k arg val d limit).time = s.time ∧ (beginWait s t k arg val d limit).op = s.op ∧ (beginWait s t k arg val d limit).tile = s.tile ∧ (beginWait s t k arg val d limit).img = s.img ∧ (beginWait s t k arg val d limit).mem = s.mem ∧ (beginWait s t k arg val d limit).host = s.host ∧ (beginWait s t k arg val d limit).reg = s.reg ∧ (beginWait s t k arg val d limit).insts = s.insts ∧ (beginWait s t k arg val d limit).flt = s.flt ∧ (beginWait s t k arg val d limit).fab = s.fab ∧ (beginWait s t k arg val d limit).pwr = s.pwr ∧ (beginWait s t k arg val d limit).met = s.met ∧ (beginWait s t k arg val d limit).keep = s.keep ∧ (beginWait s t k arg val d limit).arb = s.arb := by
  and_intros <;> (simp [beginWait])

@[simp] theorem returnWait_frame (s : State) (t : Nat) (v : W64) :
    (returnWait s t v).pending = s.pending ∧ (returnWait s t v).now = s.now ∧ (returnWait s t v).free = s.free ∧ (returnWait s t v).time = s.time ∧ (returnWait s t v).op = s.op ∧ (returnWait s t v).tile = s.tile ∧ (returnWait s t v).img = s.img ∧ (returnWait s t v).mem = s.mem ∧ (returnWait s t v).host = s.host ∧ (returnWait s t v).reg = s.reg ∧ (returnWait s t v).insts = s.insts ∧ (returnWait s t v).flt = s.flt ∧ (returnWait s t v).fab = s.fab ∧ (returnWait s t v).pwr = s.pwr ∧ (returnWait s t v).met = s.met ∧ (returnWait s t v).keep = s.keep ∧ (returnWait s t v).arb = s.arb := by
  and_intros <;> (simp [returnWait])

@[simp] theorem serveOpWaiter_frame (s : State) (inst : Nat) :
    (serveOpWaiter s inst).pending = s.pending ∧ (serveOpWaiter s inst).now = s.now ∧ (serveOpWaiter s inst).free = s.free ∧ (serveOpWaiter s inst).time = s.time ∧ (serveOpWaiter s inst).op = s.op ∧ (serveOpWaiter s inst).tile = s.tile ∧ (serveOpWaiter s inst).img = s.img ∧ (serveOpWaiter s inst).mem = s.mem ∧ (serveOpWaiter s inst).host = s.host ∧ (serveOpWaiter s inst).reg = s.reg ∧ (serveOpWaiter s inst).insts = s.insts ∧ (serveOpWaiter s inst).flt = s.flt ∧ (serveOpWaiter s inst).fab = s.fab ∧ (serveOpWaiter s inst).pwr = s.pwr ∧ (serveOpWaiter s inst).met = s.met ∧ (serveOpWaiter s inst).keep = s.keep ∧ (serveOpWaiter s inst).arb = s.arb := by
  and_intros <;> (unfold serveOpWaiter; (try dsimp only); (repeat' split) <;> simp [*])

@[simp] theorem serveOpWaiters_frame (s : State) (inst : Nat) :
    (serveOpWaiters s inst).pending = s.pending ∧ (serveOpWaiters s inst).now = s.now ∧ (serveOpWaiters s inst).free = s.free ∧ (serveOpWaiters s inst).time = s.time ∧ (serveOpWaiters s inst).op = s.op ∧ (serveOpWaiters s inst).tile = s.tile ∧ (serveOpWaiters s inst).img = s.img ∧ (serveOpWaiters s inst).mem = s.mem ∧ (serveOpWaiters s inst).host = s.host ∧ (serveOpWaiters s inst).reg = s.reg ∧ (serveOpWaiters s inst).insts = s.insts ∧ (serveOpWaiters s inst).flt = s.flt ∧ (serveOpWaiters s inst).fab = s.fab ∧ (serveOpWaiters s inst).pwr = s.pwr ∧ (serveOpWaiters s inst).met = s.met ∧ (serveOpWaiters s inst).keep = s.keep ∧ (serveOpWaiters s inst).arb = s.arb := by
  and_intros <;> (simp [serveOpWaiters])

@[simp] theorem dropHostReq_frame (s : State) (t : Nat) :
    (dropHostReq s t).pending = s.pending ∧ (dropHostReq s t).now = s.now ∧ (dropHostReq s t).free = s.free ∧ (dropHostReq s t).time = s.time ∧ (dropHostReq s t).mbx = s.mbx ∧ (dropHostReq s t).op = s.op ∧ (dropHostReq s t).tile = s.tile ∧ (dropHostReq s t).img = s.img ∧ (dropHostReq s t).mem = s.mem ∧ (dropHostReq s t).reg = s.reg ∧ (dropHostReq s t).insts = s.insts ∧ (dropHostReq s t).flt = s.flt ∧ (dropHostReq s t).fab = s.fab ∧ (dropHostReq s t).pwr = s.pwr ∧ (dropHostReq s t).met = s.met ∧ (dropHostReq s t).keep = s.keep ∧ (dropHostReq s t).arb = s.arb := by
  and_intros <;> (unfold dropHostReq; (try dsimp only); (repeat' split) <;> simp [*])

@[simp] theorem freeThr_frame (s : State) (t : Nat) :
    (freeThr s t).pending = s.pending ∧ (freeThr s t).now = s.now ∧ (freeThr s t).free = s.free ∧ (freeThr s t).time = s.time ∧ (freeThr s t).tile = s.tile ∧ (freeThr s t).img = s.img ∧ (freeThr s t).mem = s.mem ∧ (freeThr s t).reg = s.reg ∧ (freeThr s t).insts = s.insts ∧ (freeThr s t).flt = s.flt ∧ (freeThr s t).fab = s.fab ∧ (freeThr s t).pwr = s.pwr ∧ (freeThr s t).met = s.met ∧ (freeThr s t).keep = s.keep ∧ (freeThr s t).arb = s.arb := by
  and_intros <;> (simp [freeThr])

@[simp] theorem stepBoundary_frame (s : State) (inst grp : Nat) :
    (stepBoundary s inst grp).pending = s.pending ∧ (stepBoundary s inst grp).now = s.now ∧ (stepBoundary s inst grp).free = s.free ∧ (stepBoundary s inst grp).time = s.time ∧ (stepBoundary s inst grp).mbx = s.mbx ∧ (stepBoundary s inst grp).op = s.op ∧ (stepBoundary s inst grp).img = s.img ∧ (stepBoundary s inst grp).mem = s.mem ∧ (stepBoundary s inst grp).host = s.host ∧ (stepBoundary s inst grp).insts = s.insts ∧ (stepBoundary s inst grp).flt = s.flt ∧ (stepBoundary s inst grp).fab = s.fab ∧ (stepBoundary s inst grp).pwr = s.pwr ∧ (stepBoundary s inst grp).met = s.met ∧ (stepBoundary s inst grp).keep = s.keep ∧ (stepBoundary s inst grp).arb = s.arb := by
  and_intros <;> (unfold stepBoundary; (try dsimp only); (repeat' split) <;> simp (disch := (intros; (try dsimp only); (repeat' split) <;> (try simp [*]))) [*])

@[simp] theorem advanceGroup_pending (inst grp : Nat) (n : Nat) (s : State) :
    (advanceGroup inst grp n s).pending = s.pending := by fun_induction advanceGroup <;> simp_all

@[simp] theorem advanceGroup_now (inst grp : Nat) (n : Nat) (s : State) :
    (advanceGroup inst grp n s).now = s.now := by fun_induction advanceGroup <;> simp_all

@[simp] theorem advanceGroup_free (inst grp : Nat) (n : Nat) (s : State) :
    (advanceGroup inst grp n s).free = s.free := by fun_induction advanceGroup <;> simp_all

@[simp] theorem advanceGroup_time (inst grp : Nat) (n : Nat) (s : State) :
    (advanceGroup inst grp n s).time = s.time := by fun_induction advanceGroup <;> simp_all

@[simp] theorem advanceGroup_op (inst grp : Nat) (n : Nat) (s : State) :
    (advanceGroup inst grp n s).op = s.op := by fun_induction advanceGroup <;> simp_all

@[simp] theorem advanceGroup_img (inst grp : Nat) (n : Nat) (s : State) :
    (advanceGroup inst grp n s).img = s.img := by fun_induction advanceGroup <;> simp_all

@[simp] theorem advanceGroup_mem (inst grp : Nat) (n : Nat) (s : State) :
    (advanceGroup inst grp n s).mem = s.mem := by fun_induction advanceGroup <;> simp_all

@[simp] theorem advanceGroup_host (inst grp : Nat) (n : Nat) (s : State) :
    (advanceGroup inst grp n s).host = s.host := by fun_induction advanceGroup <;> simp_all

@[simp] theorem advanceGroup_insts (inst grp : Nat) (n : Nat) (s : State) :
    (advanceGroup inst grp n s).insts = s.insts := by fun_induction advanceGroup <;> simp_all

@[simp] theorem advanceGroup_flt (inst grp : Nat) (n : Nat) (s : State) :
    (advanceGroup inst grp n s).flt = s.flt := by fun_induction advanceGroup <;> simp_all

@[simp] theorem advanceGroup_fab (inst grp : Nat) (n : Nat) (s : State) :
    (advanceGroup inst grp n s).fab = s.fab := by fun_induction advanceGroup <;> simp_all

@[simp] theorem advanceGroup_pwr (inst grp : Nat) (n : Nat) (s : State) :
    (advanceGroup inst grp n s).pwr = s.pwr := by fun_induction advanceGroup <;> simp_all

@[simp] theorem advanceGroup_met (inst grp : Nat) (n : Nat) (s : State) :
    (advanceGroup inst grp n s).met = s.met := by fun_induction advanceGroup <;> simp_all

@[simp] theorem advanceGroup_keep (inst grp : Nat) (n : Nat) (s : State) :
    (advanceGroup inst grp n s).keep = s.keep := by fun_induction advanceGroup <;> simp_all

@[simp] theorem advanceGroup_arb (inst grp : Nat) (n : Nat) (s : State) :
    (advanceGroup inst grp n s).arb = s.arb := by fun_induction advanceGroup <;> simp_all

@[simp] theorem advanceAll_frame (s : State) (inst grp : Nat) :
    (advanceAll s inst grp).pending = s.pending ∧ (advanceAll s inst grp).now = s.now ∧ (advanceAll s inst grp).free = s.free ∧ (advanceAll s inst grp).time = s.time ∧ (advanceAll s inst grp).op = s.op ∧ (advanceAll s inst grp).img = s.img ∧ (advanceAll s inst grp).mem = s.mem ∧ (advanceAll s inst grp).host = s.host ∧ (advanceAll s inst grp).insts = s.insts ∧ (advanceAll s inst grp).flt = s.flt ∧ (advanceAll s inst grp).fab = s.fab ∧ (advanceAll s inst grp).pwr = s.pwr ∧ (advanceAll s inst grp).met = s.met ∧ (advanceAll s inst grp).keep = s.keep ∧ (advanceAll s inst grp).arb = s.arb := by
  and_intros <;> (simp [advanceAll])

@[simp] theorem leaveGroup_frame (s : State) (inst grp : Nat) (step : W64) :
    (leaveGroup s inst grp step).pending = s.pending ∧ (leaveGroup s inst grp step).now = s.now ∧ (leaveGroup s inst grp step).free = s.free ∧ (leaveGroup s inst grp step).time = s.time ∧ (leaveGroup s inst grp step).op = s.op ∧ (leaveGroup s inst grp step).img = s.img ∧ (leaveGroup s inst grp step).mem = s.mem ∧ (leaveGroup s inst grp step).host = s.host ∧ (leaveGroup s inst grp step).insts = s.insts ∧ (leaveGroup s inst grp step).flt = s.flt ∧ (leaveGroup s inst grp step).fab = s.fab ∧ (leaveGroup s inst grp step).pwr = s.pwr ∧ (leaveGroup s inst grp step).met = s.met ∧ (leaveGroup s inst grp step).keep = s.keep ∧ (leaveGroup s inst grp step).arb = s.arb := by
  and_intros <;> (unfold leaveGroup; (try dsimp only); (repeat' split) <;> simp [*])

@[simp] theorem endThread_pending (h : AddFn) (s : State) (t : Nat) (kind code value : Nat) (hh : ∀ s x1 x2, (h s x1 x2).pending = s.pending) :
    (endThread h s t kind code value).pending = s.pending := by unfold endThread; (try dsimp only); (repeat' split) <;> simp [*]

@[simp] theorem endThread_now (h : AddFn) (s : State) (t : Nat) (kind code value : Nat) (hh : ∀ s x1 x2, (h s x1 x2).now = s.now) :
    (endThread h s t kind code value).now = s.now := by unfold endThread; (try dsimp only); (repeat' split) <;> simp [*]

@[simp] theorem endThread_free (h : AddFn) (s : State) (t : Nat) (kind code value : Nat) (hh : ∀ s x1 x2, (h s x1 x2).free = s.free) :
    (endThread h s t kind code value).free = s.free := by unfold endThread; (try dsimp only); (repeat' split) <;> simp [*]

@[simp] theorem endThread_time (h : AddFn) (s : State) (t : Nat) (kind code value : Nat) (hh : ∀ s x1 x2, (h s x1 x2).time = s.time) :
    (endThread h s t kind code value).time = s.time := by unfold endThread; (try dsimp only); (repeat' split) <;> simp [*]

@[simp] theorem endThread_img (h : AddFn) (s : State) (t : Nat) (kind code value : Nat) (hh : ∀ s x1 x2, (h s x1 x2).img = s.img) :
    (endThread h s t kind code value).img = s.img := by unfold endThread; (try dsimp only); (repeat' split) <;> simp [*]

@[simp] theorem endThread_insts (h : AddFn) (s : State) (t : Nat) (kind code value : Nat) (hh : ∀ s x1 x2, (h s x1 x2).insts = s.insts) :
    (endThread h s t kind code value).insts = s.insts := by unfold endThread; (try dsimp only); (repeat' split) <;> simp [*]

@[simp] theorem endThread_fab (h : AddFn) (s : State) (t : Nat) (kind code value : Nat) (hh : ∀ s x1 x2, (h s x1 x2).fab = s.fab) :
    (endThread h s t kind code value).fab = s.fab := by unfold endThread; (try dsimp only); (repeat' split) <;> simp [*]

@[simp] theorem endThread_pwr (h : AddFn) (s : State) (t : Nat) (kind code value : Nat) (hh : ∀ s x1 x2, (h s x1 x2).pwr = s.pwr) :
    (endThread h s t kind code value).pwr = s.pwr := by unfold endThread; (try dsimp only); (repeat' split) <;> simp [*]

@[simp] theorem endThread_met (h : AddFn) (s : State) (t : Nat) (kind code value : Nat) (hh : ∀ s x1 x2, (h s x1 x2).met = s.met) :
    (endThread h s t kind code value).met = s.met := by unfold endThread; (try dsimp only); (repeat' split) <;> simp [*]

@[simp] theorem endThread_keep (h : AddFn) (s : State) (t : Nat) (kind code value : Nat) (hh : ∀ s x1 x2, (h s x1 x2).keep = s.keep) :
    (endThread h s t kind code value).keep = s.keep := by unfold endThread; (try dsimp only); (repeat' split) <;> simp [*]

@[simp] theorem endThread_arb (h : AddFn) (s : State) (t : Nat) (kind code value : Nat) (hh : ∀ s x1 x2, (h s x1 x2).arb = s.arb) :
    (endThread h s t kind code value).arb = s.arb := by unfold endThread; (try dsimp only); (repeat' split) <;> simp [*]

@[simp] theorem endThread_wf (h : AddFn) (s : State) (t : Nat) (kind code value : Nat) (hh : ∀ s x1 x2, Memory.wf s.mem.cells = true → Memory.wf (h s x1 x2).mem.cells = true) (h0 : Memory.wf s.mem.cells = true) :
    Memory.wf (endThread h s t kind code value).mem.cells = true := by
  unfold endThread
  extract_lets a th b c d e f g
  have hc : Memory.wf c.mem.cells = true := by simp only [c]; split <;> simp [b, a, h0]
  have hd : Memory.wf d.mem.cells = true := by
    simp only [d]; split
    · exact hc
    · exact hh _ _ _ hc
  have he : Memory.wf e.mem.cells = true := by simp only [e]; split <;> simp [hd]
  have hg : Memory.wf g.mem.cells = true := by simp only [g]; split <;> simp [f, he]
  simp [hg]

@[simp] theorem killThread_pending (h : AddFn) (s : State) (t : Nat) (code : Nat) (addr : W64) (info : W32) (hh : ∀ s x1 x2, (h s x1 x2).pending = s.pending) :
    (killThread h s t code addr info).pending = s.pending := by simp [killThread, *]

@[simp] theorem killThread_now (h : AddFn) (s : State) (t : Nat) (code : Nat) (addr : W64) (info : W32) (hh : ∀ s x1 x2, (h s x1 x2).now = s.now) :
    (killThread h s t code addr info).now = s.now := by simp [killThread, *]

@[simp] theorem killThread_free (h : AddFn) (s : State) (t : Nat) (code : Nat) (addr : W64) (info : W32) (hh : ∀ s x1 x2, (h s x1 x2).free = s.free) :
    (killThread h s t code addr info).free = s.free := by simp [killThread, *]

@[simp] theorem killThread_time (h : AddFn) (s : State) (t : Nat) (code : Nat) (addr : W64) (info : W32) (hh : ∀ s x1 x2, (h s x1 x2).time = s.time) :
    (killThread h s t code addr info).time = s.time := by simp [killThread, *]

@[simp] theorem killThread_img (h : AddFn) (s : State) (t : Nat) (code : Nat) (addr : W64) (info : W32) (hh : ∀ s x1 x2, (h s x1 x2).img = s.img) :
    (killThread h s t code addr info).img = s.img := by simp [killThread, *]

@[simp] theorem killThread_insts (h : AddFn) (s : State) (t : Nat) (code : Nat) (addr : W64) (info : W32) (hh : ∀ s x1 x2, (h s x1 x2).insts = s.insts) :
    (killThread h s t code addr info).insts = s.insts := by simp [killThread, *]

@[simp] theorem killThread_fab (h : AddFn) (s : State) (t : Nat) (code : Nat) (addr : W64) (info : W32) (hh : ∀ s x1 x2, (h s x1 x2).fab = s.fab) :
    (killThread h s t code addr info).fab = s.fab := by simp [killThread, *]

@[simp] theorem killThread_pwr (h : AddFn) (s : State) (t : Nat) (code : Nat) (addr : W64) (info : W32) (hh : ∀ s x1 x2, (h s x1 x2).pwr = s.pwr) :
    (killThread h s t code addr info).pwr = s.pwr := by simp [killThread, *]

@[simp] theorem killThread_met (h : AddFn) (s : State) (t : Nat) (code : Nat) (addr : W64) (info : W32) (hh : ∀ s x1 x2, (h s x1 x2).met = s.met) :
    (killThread h s t code addr info).met = s.met := by simp [killThread, *]

@[simp] theorem killThread_keep (h : AddFn) (s : State) (t : Nat) (code : Nat) (addr : W64) (info : W32) (hh : ∀ s x1 x2, (h s x1 x2).keep = s.keep) :
    (killThread h s t code addr info).keep = s.keep := by simp [killThread, *]

@[simp] theorem killThread_arb (h : AddFn) (s : State) (t : Nat) (code : Nat) (addr : W64) (info : W32) (hh : ∀ s x1 x2, (h s x1 x2).arb = s.arb) :
    (killThread h s t code addr info).arb = s.arb := by simp [killThread, *]

@[simp] theorem killThread_wf (h : AddFn) (s : State) (t : Nat) (code : Nat) (addr : W64) (info : W32) (hh : ∀ s x1 x2, Memory.wf s.mem.cells = true → Memory.wf (h s x1 x2).mem.cells = true) (h0 : Memory.wf s.mem.cells = true) :
    Memory.wf (killThread h s t code addr info).mem.cells = true := by unfold killThread; (try dsimp only); (repeat' split) <;> simp (disch := (intros; (try dsimp only); (repeat' split) <;> (try simp [*]))) [*]

@[simp] theorem enterHandler_frame (s : State) (t : Nat) (code : Nat) (addr : W64) (info : W32) :
    (enterHandler s t code addr info).pending = s.pending ∧ (enterHandler s t code addr info).now = s.now ∧ (enterHandler s t code addr info).free = s.free ∧ (enterHandler s t code addr info).time = s.time ∧ (enterHandler s t code addr info).op = s.op ∧ (enterHandler s t code addr info).tile = s.tile ∧ (enterHandler s t code addr info).img = s.img ∧ (enterHandler s t code addr info).reg = s.reg ∧ (enterHandler s t code addr info).insts = s.insts ∧ (enterHandler s t code addr info).flt = s.flt ∧ (enterHandler s t code addr info).fab = s.fab ∧ (enterHandler s t code addr info).pwr = s.pwr ∧ (enterHandler s t code addr info).met = s.met ∧ (enterHandler s t code addr info).keep = s.keep ∧ (enterHandler s t code addr info).arb = s.arb := by
  and_intros <;> (unfold enterHandler; (try dsimp only); (repeat' split) <;> simp [*])

@[simp] theorem enterHandler_wf (s : State) (t : Nat) (code : Nat) (addr : W64) (info : W32) (h0 : Memory.wf s.mem.cells = true) :
    Memory.wf (enterHandler s t code addr info).mem.cells = true := by unfold enterHandler; (try dsimp only); (repeat' split) <;> simp [*]

@[simp] theorem raiseExc_pending (h : AddFn) (s : State) (t : Nat) (code : Nat) (addr : W64) (info : W32) (hh : ∀ s x1 x2, (h s x1 x2).pending = s.pending) :
    (raiseExc h s t code addr info).pending = s.pending := by unfold raiseExc; (try dsimp only); (repeat' split) <;> simp [*]

@[simp] theorem raiseExc_now (h : AddFn) (s : State) (t : Nat) (code : Nat) (addr : W64) (info : W32) (hh : ∀ s x1 x2, (h s x1 x2).now = s.now) :
    (raiseExc h s t code addr info).now = s.now := by unfold raiseExc; (try dsimp only); (repeat' split) <;> simp [*]

@[simp] theorem raiseExc_free (h : AddFn) (s : State) (t : Nat) (code : Nat) (addr : W64) (info : W32) (hh : ∀ s x1 x2, (h s x1 x2).free = s.free) :
    (raiseExc h s t code addr info).free = s.free := by unfold raiseExc; (try dsimp only); (repeat' split) <;> simp [*]

@[simp] theorem raiseExc_time (h : AddFn) (s : State) (t : Nat) (code : Nat) (addr : W64) (info : W32) (hh : ∀ s x1 x2, (h s x1 x2).time = s.time) :
    (raiseExc h s t code addr info).time = s.time := by unfold raiseExc; (try dsimp only); (repeat' split) <;> simp [*]

@[simp] theorem raiseExc_img (h : AddFn) (s : State) (t : Nat) (code : Nat) (addr : W64) (info : W32) (hh : ∀ s x1 x2, (h s x1 x2).img = s.img) :
    (raiseExc h s t code addr info).img = s.img := by unfold raiseExc; (try dsimp only); (repeat' split) <;> simp [*]

@[simp] theorem raiseExc_insts (h : AddFn) (s : State) (t : Nat) (code : Nat) (addr : W64) (info : W32) (hh : ∀ s x1 x2, (h s x1 x2).insts = s.insts) :
    (raiseExc h s t code addr info).insts = s.insts := by unfold raiseExc; (try dsimp only); (repeat' split) <;> simp [*]

@[simp] theorem raiseExc_fab (h : AddFn) (s : State) (t : Nat) (code : Nat) (addr : W64) (info : W32) (hh : ∀ s x1 x2, (h s x1 x2).fab = s.fab) :
    (raiseExc h s t code addr info).fab = s.fab := by unfold raiseExc; (try dsimp only); (repeat' split) <;> simp [*]

@[simp] theorem raiseExc_pwr (h : AddFn) (s : State) (t : Nat) (code : Nat) (addr : W64) (info : W32) (hh : ∀ s x1 x2, (h s x1 x2).pwr = s.pwr) :
    (raiseExc h s t code addr info).pwr = s.pwr := by unfold raiseExc; (try dsimp only); (repeat' split) <;> simp [*]

@[simp] theorem raiseExc_met (h : AddFn) (s : State) (t : Nat) (code : Nat) (addr : W64) (info : W32) (hh : ∀ s x1 x2, (h s x1 x2).met = s.met) :
    (raiseExc h s t code addr info).met = s.met := by unfold raiseExc; (try dsimp only); (repeat' split) <;> simp [*]

@[simp] theorem raiseExc_keep (h : AddFn) (s : State) (t : Nat) (code : Nat) (addr : W64) (info : W32) (hh : ∀ s x1 x2, (h s x1 x2).keep = s.keep) :
    (raiseExc h s t code addr info).keep = s.keep := by unfold raiseExc; (try dsimp only); (repeat' split) <;> simp [*]

@[simp] theorem raiseExc_arb (h : AddFn) (s : State) (t : Nat) (code : Nat) (addr : W64) (info : W32) (hh : ∀ s x1 x2, (h s x1 x2).arb = s.arb) :
    (raiseExc h s t code addr info).arb = s.arb := by unfold raiseExc; (try dsimp only); (repeat' split) <;> simp [*]

@[simp] theorem raiseExc_wf (h : AddFn) (s : State) (t : Nat) (code : Nat) (addr : W64) (info : W32) (hh : ∀ s x1 x2, Memory.wf s.mem.cells = true → Memory.wf (h s x1 x2).mem.cells = true) (h0 : Memory.wf s.mem.cells = true) :
    Memory.wf (raiseExc h s t code addr info).mem.cells = true := by unfold raiseExc; (try dsimp only); (repeat' split) <;> simp (disch := (intros; (try dsimp only); (repeat' split) <;> (try simp [*]))) [*]

@[simp] theorem abortThread_pending (h : AddFn) (s : State) (t : Nat) (by_ : Nat) (hh : ∀ s x1 x2, (h s x1 x2).pending = s.pending) :
    (abortThread h s t by_).pending = s.pending := by unfold abortThread; (try dsimp only); (repeat' split) <;> simp [*]

@[simp] theorem abortThread_now (h : AddFn) (s : State) (t : Nat) (by_ : Nat) (hh : ∀ s x1 x2, (h s x1 x2).now = s.now) :
    (abortThread h s t by_).now = s.now := by unfold abortThread; (try dsimp only); (repeat' split) <;> simp [*]

@[simp] theorem abortThread_free (h : AddFn) (s : State) (t : Nat) (by_ : Nat) (hh : ∀ s x1 x2, (h s x1 x2).free = s.free) :
    (abortThread h s t by_).free = s.free := by unfold abortThread; (try dsimp only); (repeat' split) <;> simp [*]

@[simp] theorem abortThread_time (h : AddFn) (s : State) (t : Nat) (by_ : Nat) (hh : ∀ s x1 x2, (h s x1 x2).time = s.time) :
    (abortThread h s t by_).time = s.time := by unfold abortThread; (try dsimp only); (repeat' split) <;> simp [*]

@[simp] theorem abortThread_img (h : AddFn) (s : State) (t : Nat) (by_ : Nat) (hh : ∀ s x1 x2, (h s x1 x2).img = s.img) :
    (abortThread h s t by_).img = s.img := by unfold abortThread; (try dsimp only); (repeat' split) <;> simp [*]

@[simp] theorem abortThread_insts (h : AddFn) (s : State) (t : Nat) (by_ : Nat) (hh : ∀ s x1 x2, (h s x1 x2).insts = s.insts) :
    (abortThread h s t by_).insts = s.insts := by unfold abortThread; (try dsimp only); (repeat' split) <;> simp [*]

@[simp] theorem abortThread_fab (h : AddFn) (s : State) (t : Nat) (by_ : Nat) (hh : ∀ s x1 x2, (h s x1 x2).fab = s.fab) :
    (abortThread h s t by_).fab = s.fab := by unfold abortThread; (try dsimp only); (repeat' split) <;> simp [*]

@[simp] theorem abortThread_pwr (h : AddFn) (s : State) (t : Nat) (by_ : Nat) (hh : ∀ s x1 x2, (h s x1 x2).pwr = s.pwr) :
    (abortThread h s t by_).pwr = s.pwr := by unfold abortThread; (try dsimp only); (repeat' split) <;> simp [*]

@[simp] theorem abortThread_met (h : AddFn) (s : State) (t : Nat) (by_ : Nat) (hh : ∀ s x1 x2, (h s x1 x2).met = s.met) :
    (abortThread h s t by_).met = s.met := by unfold abortThread; (try dsimp only); (repeat' split) <;> simp [*]

@[simp] theorem abortThread_keep (h : AddFn) (s : State) (t : Nat) (by_ : Nat) (hh : ∀ s x1 x2, (h s x1 x2).keep = s.keep) :
    (abortThread h s t by_).keep = s.keep := by unfold abortThread; (try dsimp only); (repeat' split) <;> simp [*]

@[simp] theorem abortThread_arb (h : AddFn) (s : State) (t : Nat) (by_ : Nat) (hh : ∀ s x1 x2, (h s x1 x2).arb = s.arb) :
    (abortThread h s t by_).arb = s.arb := by unfold abortThread; (try dsimp only); (repeat' split) <;> simp [*]

@[simp] theorem abortThread_wf (h : AddFn) (s : State) (t : Nat) (by_ : Nat) (hh : ∀ s x1 x2, Memory.wf s.mem.cells = true → Memory.wf (h s x1 x2).mem.cells = true) (h0 : Memory.wf s.mem.cells = true) :
    Memory.wf (abortThread h s t by_).mem.cells = true := by unfold abortThread; (try dsimp only); (repeat' split) <;> simp (disch := (intros; (try dsimp only); (repeat' split) <;> (try simp [*]))) [*]

@[simp] theorem keepRecords_frame (s : State) (t : Nat) :
    (keepRecords s t).pending = s.pending ∧ (keepRecords s t).now = s.now ∧ (keepRecords s t).free = s.free ∧ (keepRecords s t).time = s.time ∧ (keepRecords s t).mbx = s.mbx ∧ (keepRecords s t).op = s.op ∧ (keepRecords s t).tile = s.tile ∧ (keepRecords s t).img = s.img ∧ (keepRecords s t).reg = s.reg ∧ (keepRecords s t).insts = s.insts ∧ (keepRecords s t).flt = s.flt ∧ (keepRecords s t).fab = s.fab ∧ (keepRecords s t).pwr = s.pwr ∧ (keepRecords s t).met = s.met ∧ (keepRecords s t).keep = s.keep ∧ (keepRecords s t).arb = s.arb := by
  and_intros <;> (unfold keepRecords; (try dsimp only); (repeat' split) <;> simp (disch := (intros; (try dsimp only); (repeat' split) <;> (try simp [*]))) [*])

@[simp] theorem keepRecords_wf (s : State) (t : Nat) (h0 : Memory.wf s.mem.cells = true) :
    Memory.wf (keepRecords s t).mem.cells = true := by unfold keepRecords; (try dsimp only); (repeat' split) <;> simp (disch := (intros; (try dsimp only); (repeat' split) <;> (try simp [*]))) [*]

@[simp] theorem wakeCounter_frame (s : State) (a : Nat) :
    (wakeCounter s a).pending = s.pending ∧ (wakeCounter s a).now = s.now ∧ (wakeCounter s a).free = s.free ∧ (wakeCounter s a).time = s.time ∧ (wakeCounter s a).op = s.op ∧ (wakeCounter s a).tile = s.tile ∧ (wakeCounter s a).img = s.img ∧ (wakeCounter s a).mem = s.mem ∧ (wakeCounter s a).host = s.host ∧ (wakeCounter s a).reg = s.reg ∧ (wakeCounter s a).insts = s.insts ∧ (wakeCounter s a).flt = s.flt ∧ (wakeCounter s a).fab = s.fab ∧ (wakeCounter s a).pwr = s.pwr ∧ (wakeCounter s a).met = s.met ∧ (wakeCounter s a).keep = s.keep ∧ (wakeCounter s a).arb = s.arb := by
  and_intros <;> (unfold wakeCounter; (try dsimp only); (repeat' split) <;> simp (disch := (intros; (try dsimp only); (repeat' split) <;> (try simp [*]))) [*])

@[simp] theorem failCounter_pending (h : AddFn) (s : State) (a : Nat) (hh : ∀ s x1 x2, (h s x1 x2).pending = s.pending) :
    (failCounter h s a).pending = s.pending := by simp [failCounter, *]

@[simp] theorem failCounter_now (h : AddFn) (s : State) (a : Nat) (hh : ∀ s x1 x2, (h s x1 x2).now = s.now) :
    (failCounter h s a).now = s.now := by simp [failCounter, *]

@[simp] theorem failCounter_free (h : AddFn) (s : State) (a : Nat) (hh : ∀ s x1 x2, (h s x1 x2).free = s.free) :
    (failCounter h s a).free = s.free := by simp [failCounter, *]

@[simp] theorem failCounter_time (h : AddFn) (s : State) (a : Nat) (hh : ∀ s x1 x2, (h s x1 x2).time = s.time) :
    (failCounter h s a).time = s.time := by simp [failCounter, *]

@[simp] theorem failCounter_img (h : AddFn) (s : State) (a : Nat) (hh : ∀ s x1 x2, (h s x1 x2).img = s.img) :
    (failCounter h s a).img = s.img := by simp [failCounter, *]

@[simp] theorem failCounter_insts (h : AddFn) (s : State) (a : Nat) (hh : ∀ s x1 x2, (h s x1 x2).insts = s.insts) :
    (failCounter h s a).insts = s.insts := by simp [failCounter, *]

@[simp] theorem failCounter_fab (h : AddFn) (s : State) (a : Nat) (hh : ∀ s x1 x2, (h s x1 x2).fab = s.fab) :
    (failCounter h s a).fab = s.fab := by simp [failCounter, *]

@[simp] theorem failCounter_pwr (h : AddFn) (s : State) (a : Nat) (hh : ∀ s x1 x2, (h s x1 x2).pwr = s.pwr) :
    (failCounter h s a).pwr = s.pwr := by simp [failCounter, *]

@[simp] theorem failCounter_met (h : AddFn) (s : State) (a : Nat) (hh : ∀ s x1 x2, (h s x1 x2).met = s.met) :
    (failCounter h s a).met = s.met := by simp [failCounter, *]

@[simp] theorem failCounter_keep (h : AddFn) (s : State) (a : Nat) (hh : ∀ s x1 x2, (h s x1 x2).keep = s.keep) :
    (failCounter h s a).keep = s.keep := by simp [failCounter, *]

@[simp] theorem failCounter_arb (h : AddFn) (s : State) (a : Nat) (hh : ∀ s x1 x2, (h s x1 x2).arb = s.arb) :
    (failCounter h s a).arb = s.arb := by simp [failCounter, *]

@[simp] theorem failCounter_wf (h : AddFn) (s : State) (a : Nat) (hh : ∀ s x1 x2, Memory.wf s.mem.cells = true → Memory.wf (h s x1 x2).mem.cells = true) (h0 : Memory.wf s.mem.cells = true) :
    Memory.wf (failCounter h s a).mem.cells = true := by unfold failCounter; (try dsimp only); (repeat' split) <;> simp (disch := (intros; (try dsimp only); (repeat' split) <;> (try simp (disch := (intros; (try dsimp only); (repeat' split) <;> (try simp [*]))) [*]))) [*]

@[simp] theorem counterAddWith_pending (h : AddFn) (s : State) (a : Nat) (v : W64) (hh : ∀ s x1 x2, (h s x1 x2).pending = s.pending) :
    (counterAddWith h s a v).pending = s.pending := by unfold counterAddWith; (try dsimp only); (repeat' split) <;> simp [*]

@[simp] theorem counterAddWith_now (h : AddFn) (s : State) (a : Nat) (v : W64) (hh : ∀ s x1 x2, (h s x1 x2).now = s.now) :
    (counterAddWith h s a v).now = s.now := by unfold counterAddWith; (try dsimp only); (repeat' split) <;> simp [*]

@[simp] theorem counterAddWith_free (h : AddFn) (s : State) (a : Nat) (v : W64) (hh : ∀ s x1 x2, (h s x1 x2).free = s.free) :
    (counterAddWith h s a v).free = s.free := by unfold counterAddWith; (try dsimp only); (repeat' split) <;> simp [*]

@[simp] theorem counterAddWith_time (h : AddFn) (s : State) (a : Nat) (v : W64) (hh : ∀ s x1 x2, (h s x1 x2).time = s.time) :
    (counterAddWith h s a v).time = s.time := by unfold counterAddWith; (try dsimp only); (repeat' split) <;> simp [*]

@[simp] theorem counterAddWith_img (h : AddFn) (s : State) (a : Nat) (v : W64) (hh : ∀ s x1 x2, (h s x1 x2).img = s.img) :
    (counterAddWith h s a v).img = s.img := by unfold counterAddWith; (try dsimp only); (repeat' split) <;> simp [*]

@[simp] theorem counterAddWith_insts (h : AddFn) (s : State) (a : Nat) (v : W64) (hh : ∀ s x1 x2, (h s x1 x2).insts = s.insts) :
    (counterAddWith h s a v).insts = s.insts := by unfold counterAddWith; (try dsimp only); (repeat' split) <;> simp [*]

@[simp] theorem counterAddWith_fab (h : AddFn) (s : State) (a : Nat) (v : W64) (hh : ∀ s x1 x2, (h s x1 x2).fab = s.fab) :
    (counterAddWith h s a v).fab = s.fab := by unfold counterAddWith; (try dsimp only); (repeat' split) <;> simp [*]

@[simp] theorem counterAddWith_pwr (h : AddFn) (s : State) (a : Nat) (v : W64) (hh : ∀ s x1 x2, (h s x1 x2).pwr = s.pwr) :
    (counterAddWith h s a v).pwr = s.pwr := by unfold counterAddWith; (try dsimp only); (repeat' split) <;> simp [*]

@[simp] theorem counterAddWith_met (h : AddFn) (s : State) (a : Nat) (v : W64) (hh : ∀ s x1 x2, (h s x1 x2).met = s.met) :
    (counterAddWith h s a v).met = s.met := by unfold counterAddWith; (try dsimp only); (repeat' split) <;> simp [*]

@[simp] theorem counterAddWith_keep (h : AddFn) (s : State) (a : Nat) (v : W64) (hh : ∀ s x1 x2, (h s x1 x2).keep = s.keep) :
    (counterAddWith h s a v).keep = s.keep := by unfold counterAddWith; (try dsimp only); (repeat' split) <;> simp [*]

@[simp] theorem counterAddWith_arb (h : AddFn) (s : State) (a : Nat) (v : W64) (hh : ∀ s x1 x2, (h s x1 x2).arb = s.arb) :
    (counterAddWith h s a v).arb = s.arb := by unfold counterAddWith; (try dsimp only); (repeat' split) <;> simp [*]

@[simp] theorem counterAddWith_wf (h : AddFn) (s : State) (a : Nat) (v : W64) (hh : ∀ s x1 x2, Memory.wf s.mem.cells = true → Memory.wf (h s x1 x2).mem.cells = true) (h0 : Memory.wf s.mem.cells = true) :
    Memory.wf (counterAddWith h s a v).mem.cells = true := by unfold counterAddWith; (try dsimp only); (repeat' split) <;> simp (disch := (intros; (try dsimp only); (repeat' split) <;> (try simp [*]))) [*]

@[simp] theorem counterAddN_pending (n : Nat) (s : State) (a : Nat) (v : W64) : (counterAddN n s a v).pending = s.pending := by
  induction n generalizing s a v with
  | zero => rfl
  | succ n ih => unfold counterAddN; exact counterAddWith_pending _ s a v ih
@[simp] theorem counterAddN_now (n : Nat) (s : State) (a : Nat) (v : W64) : (counterAddN n s a v).now = s.now := by
  induction n generalizing s a v with
  | zero => rfl
  | succ n ih => unfold counterAddN; exact counterAddWith_now _ s a v ih
@[simp] theorem counterAddN_free (n : Nat) (s : State) (a : Nat) (v : W64) : (counterAddN n s a v).free = s.free := by
  induction n generalizing s a v with
  | zero => rfl
  | succ n ih => unfold counterAddN; exact counterAddWith_free _ s a v ih
@[simp] theorem counterAddN_time (n : Nat) (s : State) (a : Nat) (v : W64) : (counterAddN n s a v).time = s.time := by
  induction n generalizing s a v with
  | zero => rfl
  | succ n ih => unfold counterAddN; exact counterAddWith_time _ s a v ih
@[simp] theorem counterAddN_img (n : Nat) (s : State) (a : Nat) (v : W64) : (counterAddN n s a v).img = s.img := by
  induction n generalizing s a v with
  | zero => rfl
  | succ n ih => unfold counterAddN; exact counterAddWith_img _ s a v ih
@[simp] theorem counterAddN_insts (n : Nat) (s : State) (a : Nat) (v : W64) : (counterAddN n s a v).insts = s.insts := by
  induction n generalizing s a v with
  | zero => rfl
  | succ n ih => unfold counterAddN; exact counterAddWith_insts _ s a v ih
@[simp] theorem counterAddN_fab (n : Nat) (s : State) (a : Nat) (v : W64) : (counterAddN n s a v).fab = s.fab := by
  induction n generalizing s a v with
  | zero => rfl
  | succ n ih => unfold counterAddN; exact counterAddWith_fab _ s a v ih
@[simp] theorem counterAddN_pwr (n : Nat) (s : State) (a : Nat) (v : W64) : (counterAddN n s a v).pwr = s.pwr := by
  induction n generalizing s a v with
  | zero => rfl
  | succ n ih => unfold counterAddN; exact counterAddWith_pwr _ s a v ih
@[simp] theorem counterAddN_met (n : Nat) (s : State) (a : Nat) (v : W64) : (counterAddN n s a v).met = s.met := by
  induction n generalizing s a v with
  | zero => rfl
  | succ n ih => unfold counterAddN; exact counterAddWith_met _ s a v ih
@[simp] theorem counterAddN_keep (n : Nat) (s : State) (a : Nat) (v : W64) : (counterAddN n s a v).keep = s.keep := by
  induction n generalizing s a v with
  | zero => rfl
  | succ n ih => unfold counterAddN; exact counterAddWith_keep _ s a v ih
@[simp] theorem counterAddN_arb (n : Nat) (s : State) (a : Nat) (v : W64) : (counterAddN n s a v).arb = s.arb := by
  induction n generalizing s a v with
  | zero => rfl
  | succ n ih => unfold counterAddN; exact counterAddWith_arb _ s a v ih
@[simp] theorem counterAddN_wf (n : Nat) (s : State) (a : Nat) (v : W64) (hs : Memory.wf s.mem.cells = true) : Memory.wf (counterAddN n s a v).mem.cells = true := by
  induction n generalizing s a v with
  | zero => exact hs
  | succ n ih => unfold counterAddN; exact counterAddWith_wf _ s a v ih hs

@[simp] theorem counterAdd_frame (s : State) (a : Nat) (v : W64) :
    (counterAdd s a v).pending = s.pending ∧ (counterAdd s a v).now = s.now ∧ (counterAdd s a v).free = s.free ∧ (counterAdd s a v).time = s.time ∧ (counterAdd s a v).img = s.img ∧ (counterAdd s a v).insts = s.insts ∧ (counterAdd s a v).fab = s.fab ∧ (counterAdd s a v).pwr = s.pwr ∧ (counterAdd s a v).met = s.met ∧ (counterAdd s a v).keep = s.keep ∧ (counterAdd s a v).arb = s.arb := by
  and_intros <;> (simp [counterAdd])

@[simp] theorem counterAdd_wf (s : State) (a : Nat) (v : W64) (h0 : Memory.wf s.mem.cells = true) :
    Memory.wf (counterAdd s a v).mem.cells = true := by simp [counterAdd, *]

@[simp] theorem exitThread_frame (s : State) (t : Nat) (value : Nat) :
    (exitThread s t value).pending = s.pending ∧ (exitThread s t value).now = s.now ∧ (exitThread s t value).free = s.free ∧ (exitThread s t value).time = s.time ∧ (exitThread s t value).img = s.img ∧ (exitThread s t value).insts = s.insts ∧ (exitThread s t value).fab = s.fab ∧ (exitThread s t value).pwr = s.pwr ∧ (exitThread s t value).met = s.met ∧ (exitThread s t value).keep = s.keep ∧ (exitThread s t value).arb = s.arb := by
  and_intros <;> (simp [exitThread])

@[simp] theorem exitThread_wf (s : State) (t : Nat) (value : Nat) (h0 : Memory.wf s.mem.cells = true) :
    Memory.wf (exitThread s t value).mem.cells = true := by unfold exitThread; (try dsimp only); (repeat' split) <;> simp (disch := (intros; (try dsimp only); (repeat' split) <;> (try simp [*]))) [*]

@[simp] theorem orderAbort_frame (s : State) (t : Nat) (master : Option Inst) (by_ : Nat) :
    (orderAbort s t master by_).pending = s.pending ∧ (orderAbort s t master by_).now = s.now ∧ (orderAbort s t master by_).free = s.free ∧ (orderAbort s t master by_).time = s.time ∧ (orderAbort s t master by_).img = s.img ∧ (orderAbort s t master by_).fab = s.fab ∧ (orderAbort s t master by_).pwr = s.pwr ∧ (orderAbort s t master by_).met = s.met ∧ (orderAbort s t master by_).keep = s.keep ∧ (orderAbort s t master by_).arb = s.arb := by
  and_intros <;> (unfold orderAbort; (try dsimp only); (repeat' split) <;> simp [*])

@[simp] theorem orderAbort_wf (s : State) (t : Nat) (master : Option Inst) (by_ : Nat) (h0 : Memory.wf s.mem.cells = true) :
    Memory.wf (orderAbort s t master by_).mem.cells = true := by unfold orderAbort; (try dsimp only); (repeat' split) <;> simp (disch := (intros; (try dsimp only); (repeat' split) <;> (try simp [*]))) [*]

@[simp] theorem except_frame (s : State) (t : Nat) (code : Nat) (addr : W64) (info : W32) :
    (except s t code addr info).pending = s.pending ∧ (except s t code addr info).now = s.now ∧ (except s t code addr info).free = s.free ∧ (except s t code addr info).time = s.time ∧ (except s t code addr info).img = s.img ∧ (except s t code addr info).insts = s.insts ∧ (except s t code addr info).fab = s.fab ∧ (except s t code addr info).pwr = s.pwr ∧ (except s t code addr info).met = s.met ∧ (except s t code addr info).keep = s.keep ∧ (except s t code addr info).arb = s.arb := by
  and_intros <;> (simp [except])

@[simp] theorem except_wf (s : State) (t : Nat) (code : Nat) (addr : W64) (info : W32) (h0 : Memory.wf s.mem.cells = true) :
    Memory.wf (except s t code addr info).mem.cells = true := by unfold except; (try dsimp only); (repeat' split) <;> simp (disch := (intros; (try dsimp only); (repeat' split) <;> (try simp [*]))) [*]

/-! ### Operands -/

@[simp] theorem tookTurn_frame (s : State) (t : Nat) :
    (tookTurn s t).pending = s.pending ∧ (tookTurn s t).now = s.now ∧ (tookTurn s t).free = s.free ∧ (tookTurn s t).time = s.time ∧ (tookTurn s t).op = s.op ∧ (tookTurn s t).tile = s.tile ∧ (tookTurn s t).img = s.img ∧ (tookTurn s t).mem = s.mem ∧ (tookTurn s t).host = s.host ∧ (tookTurn s t).reg = s.reg ∧ (tookTurn s t).insts = s.insts ∧ (tookTurn s t).flt = s.flt ∧ (tookTurn s t).fab = s.fab ∧ (tookTurn s t).pwr = s.pwr ∧ (tookTurn s t).met = s.met ∧ (tookTurn s t).keep = s.keep ∧ (tookTurn s t).arb = s.arb := by
  and_intros <;> (unfold tookTurn; (try dsimp only); (repeat' split) <;> simp [*])

@[simp] theorem fetched_frame (s : State) (t : Nat) :
    (fetched s t).pending = s.pending ∧ (fetched s t).now = s.now ∧ (fetched s t).time = s.time ∧ (fetched s t).op = s.op ∧ (fetched s t).tile = s.tile ∧ (fetched s t).img = s.img ∧ (fetched s t).mem = s.mem ∧ (fetched s t).host = s.host ∧ (fetched s t).reg = s.reg ∧ (fetched s t).insts = s.insts ∧ (fetched s t).flt = s.flt ∧ (fetched s t).fab = s.fab ∧ (fetched s t).pwr = s.pwr ∧ (fetched s t).met = s.met ∧ (fetched s t).keep = s.keep ∧ (fetched s t).arb = s.arb := by
  and_intros <;> (unfold fetched; (try dsimp only); (repeat' split) <;> simp [*])

@[simp] theorem issueWord_pending (s : State) (t : Tid) (g : Guard) (op : Nat) (upper : W32) (illegal : Bool) (p : Priv) (body : State → State) (hbody : ∀ s, (body s).pending = s.pending) :
    (issueWord s t g op upper illegal p body).pending = s.pending := by unfold issueWord; (try dsimp only); (repeat' split) <;> simp [*]

@[simp] theorem issueWord_now (s : State) (t : Tid) (g : Guard) (op : Nat) (upper : W32) (illegal : Bool) (p : Priv) (body : State → State) (hbody : ∀ s, (body s).now = s.now) :
    (issueWord s t g op upper illegal p body).now = s.now := by unfold issueWord; (try dsimp only); (repeat' split) <;> simp [*]

@[simp] theorem issueWord_time (s : State) (t : Tid) (g : Guard) (op : Nat) (upper : W32) (illegal : Bool) (p : Priv) (body : State → State) (hbody : ∀ s, (body s).time = s.time) :
    (issueWord s t g op upper illegal p body).time = s.time := by unfold issueWord; (try dsimp only); (repeat' split) <;> simp [*]

@[simp] theorem issueWord_img (s : State) (t : Tid) (g : Guard) (op : Nat) (upper : W32) (illegal : Bool) (p : Priv) (body : State → State) (hbody : ∀ s, (body s).img = s.img) :
    (issueWord s t g op upper illegal p body).img = s.img := by unfold issueWord; (try dsimp only); (repeat' split) <;> simp [*]

@[simp] theorem issueWord_insts (s : State) (t : Tid) (g : Guard) (op : Nat) (upper : W32) (illegal : Bool) (p : Priv) (body : State → State) (hbody : ∀ s, (body s).insts = s.insts) :
    (issueWord s t g op upper illegal p body).insts = s.insts := by unfold issueWord; (try dsimp only); (repeat' split) <;> simp [*]

@[simp] theorem issueWord_fab (s : State) (t : Tid) (g : Guard) (op : Nat) (upper : W32) (illegal : Bool) (p : Priv) (body : State → State) (hbody : ∀ s, (body s).fab = s.fab) :
    (issueWord s t g op upper illegal p body).fab = s.fab := by unfold issueWord; (try dsimp only); (repeat' split) <;> simp [*]

@[simp] theorem issueWord_pwr (s : State) (t : Tid) (g : Guard) (op : Nat) (upper : W32) (illegal : Bool) (p : Priv) (body : State → State) (hbody : ∀ s, (body s).pwr = s.pwr) :
    (issueWord s t g op upper illegal p body).pwr = s.pwr := by unfold issueWord; (try dsimp only); (repeat' split) <;> simp [*]

@[simp] theorem issueWord_met (s : State) (t : Tid) (g : Guard) (op : Nat) (upper : W32) (illegal : Bool) (p : Priv) (body : State → State) (hbody : ∀ s, (body s).met = s.met) :
    (issueWord s t g op upper illegal p body).met = s.met := by unfold issueWord; (try dsimp only); (repeat' split) <;> simp [*]

@[simp] theorem issueWord_keep (s : State) (t : Tid) (g : Guard) (op : Nat) (upper : W32) (illegal : Bool) (p : Priv) (body : State → State) (hbody : ∀ s, (body s).keep = s.keep) :
    (issueWord s t g op upper illegal p body).keep = s.keep := by unfold issueWord; (try dsimp only); (repeat' split) <;> simp [*]

@[simp] theorem issueWord_arb (s : State) (t : Tid) (g : Guard) (op : Nat) (upper : W32) (illegal : Bool) (p : Priv) (body : State → State) (hbody : ∀ s, (body s).arb = s.arb) :
    (issueWord s t g op upper illegal p body).arb = s.arb := by unfold issueWord; (try dsimp only); (repeat' split) <;> simp [*]

@[simp] theorem issueWord_wf (s : State) (t : Tid) (g : Guard) (op : Nat) (upper : W32) (illegal : Bool) (p : Priv) (body : State → State) (hbody : ∀ s, Memory.wf s.mem.cells = true → Memory.wf (body s).mem.cells = true) (h0 : Memory.wf s.mem.cells = true) :
    Memory.wf (issueWord s t g op upper illegal p body).mem.cells = true := by unfold issueWord; (try dsimp only); (repeat' split) <;> simp [*]

@[simp] theorem issuePlain_pending (s : State) (t : Tid) (g : Guard) (op : Nat) (upper : W32) (body : State → State) (hbody : ∀ s, (body s).pending = s.pending) :
    (issuePlain s t g op upper body).pending = s.pending := by simp [issuePlain, *]

@[simp] theorem issuePlain_now (s : State) (t : Tid) (g : Guard) (op : Nat) (upper : W32) (body : State → State) (hbody : ∀ s, (body s).now = s.now) :
    (issuePlain s t g op upper body).now = s.now := by simp [issuePlain, *]

@[simp] theorem issuePlain_time (s : State) (t : Tid) (g : Guard) (op : Nat) (upper : W32) (body : State → State) (hbody : ∀ s, (body s).time = s.time) :
    (issuePlain s t g op upper body).time = s.time := by simp [issuePlain, *]

@[simp] theorem issuePlain_img (s : State) (t : Tid) (g : Guard) (op : Nat) (upper : W32) (body : State → State) (hbody : ∀ s, (body s).img = s.img) :
    (issuePlain s t g op upper body).img = s.img := by simp [issuePlain, *]

@[simp] theorem issuePlain_insts (s : State) (t : Tid) (g : Guard) (op : Nat) (upper : W32) (body : State → State) (hbody : ∀ s, (body s).insts = s.insts) :
    (issuePlain s t g op upper body).insts = s.insts := by simp [issuePlain, *]

@[simp] theorem issuePlain_fab (s : State) (t : Tid) (g : Guard) (op : Nat) (upper : W32) (body : State → State) (hbody : ∀ s, (body s).fab = s.fab) :
    (issuePlain s t g op upper body).fab = s.fab := by simp [issuePlain, *]

@[simp] theorem issuePlain_pwr (s : State) (t : Tid) (g : Guard) (op : Nat) (upper : W32) (body : State → State) (hbody : ∀ s, (body s).pwr = s.pwr) :
    (issuePlain s t g op upper body).pwr = s.pwr := by simp [issuePlain, *]

@[simp] theorem issuePlain_met (s : State) (t : Tid) (g : Guard) (op : Nat) (upper : W32) (body : State → State) (hbody : ∀ s, (body s).met = s.met) :
    (issuePlain s t g op upper body).met = s.met := by simp [issuePlain, *]

@[simp] theorem issuePlain_keep (s : State) (t : Tid) (g : Guard) (op : Nat) (upper : W32) (body : State → State) (hbody : ∀ s, (body s).keep = s.keep) :
    (issuePlain s t g op upper body).keep = s.keep := by simp [issuePlain, *]

@[simp] theorem issuePlain_arb (s : State) (t : Tid) (g : Guard) (op : Nat) (upper : W32) (body : State → State) (hbody : ∀ s, (body s).arb = s.arb) :
    (issuePlain s t g op upper body).arb = s.arb := by simp [issuePlain, *]

@[simp] theorem issuePlain_wf (s : State) (t : Tid) (g : Guard) (op : Nat) (upper : W32) (body : State → State) (hbody : ∀ s, Memory.wf s.mem.cells = true → Memory.wf (body s).mem.cells = true) (h0 : Memory.wf s.mem.cells = true) :
    Memory.wf (issuePlain s t g op upper body).mem.cells = true := by unfold issuePlain; (try dsimp only); (repeat' split) <;> simp (disch := (intros; (try dsimp only); (repeat' split) <;> (try simp [*]))) [*]

@[simp] theorem retireG_frame (s : State) (t : Tid) (d : GReg) (v : W64) :
    (retireG s t d v).pending = s.pending ∧ (retireG s t d v).now = s.now ∧ (retireG s t d v).free = s.free ∧ (retireG s t d v).time = s.time ∧ (retireG s t d v).op = s.op ∧ (retireG s t d v).tile = s.tile ∧ (retireG s t d v).img = s.img ∧ (retireG s t d v).mem = s.mem ∧ (retireG s t d v).host = s.host ∧ (retireG s t d v).reg = s.reg ∧ (retireG s t d v).insts = s.insts ∧ (retireG s t d v).flt = s.flt ∧ (retireG s t d v).fab = s.fab ∧ (retireG s t d v).pwr = s.pwr ∧ (retireG s t d v).met = s.met ∧ (retireG s t d v).keep = s.keep ∧ (retireG s t d v).arb = s.arb := by
  and_intros <;> (simp [retireG])

@[simp] theorem retireP_frame (s : State) (t : Tid) (p : PReg) (v : Bool) :
    (retireP s t p v).pending = s.pending ∧ (retireP s t p v).now = s.now ∧ (retireP s t p v).free = s.free ∧ (retireP s t p v).time = s.time ∧ (retireP s t p v).op = s.op ∧ (retireP s t p v).tile = s.tile ∧ (retireP s t p v).img = s.img ∧ (retireP s t p v).mem = s.mem ∧ (retireP s t p v).host = s.host ∧ (retireP s t p v).reg = s.reg ∧ (retireP s t p v).insts = s.insts ∧ (retireP s t p v).flt = s.flt ∧ (retireP s t p v).fab = s.fab ∧ (retireP s t p v).pwr = s.pwr ∧ (retireP s t p v).met = s.met ∧ (retireP s t p v).keep = s.keep ∧ (retireP s t p v).arb = s.arb := by
  and_intros <;> (simp [retireP])

@[simp] theorem retire_frame (s : State) (t : Tid) :
    (retire s t).pending = s.pending ∧ (retire s t).now = s.now ∧ (retire s t).free = s.free ∧ (retire s t).time = s.time ∧ (retire s t).op = s.op ∧ (retire s t).tile = s.tile ∧ (retire s t).img = s.img ∧ (retire s t).mem = s.mem ∧ (retire s t).host = s.host ∧ (retire s t).reg = s.reg ∧ (retire s t).insts = s.insts ∧ (retire s t).flt = s.flt ∧ (retire s t).fab = s.fab ∧ (retire s t).pwr = s.pwr ∧ (retire s t).met = s.met ∧ (retire s t).keep = s.keep ∧ (retire s t).arb = s.arb := by
  and_intros <;> (simp [retire])

@[simp] theorem issueG_frame (s : State) (t : Tid) (g : Guard) (op : Nat) (d a : GReg) (b : Src) (f : Thread → W64) :
    (issueG s t g op d a b f).pending = s.pending ∧ (issueG s t g op d a b f).now = s.now ∧ (issueG s t g op d a b f).time = s.time ∧ (issueG s t g op d a b f).img = s.img ∧ (issueG s t g op d a b f).insts = s.insts ∧ (issueG s t g op d a b f).fab = s.fab ∧ (issueG s t g op d a b f).pwr = s.pwr ∧ (issueG s t g op d a b f).met = s.met ∧ (issueG s t g op d a b f).keep = s.keep ∧ (issueG s t g op d a b f).arb = s.arb := by
  and_intros <;> (simp [issueG])

@[simp] theorem issueG_wf (s : State) (t : Tid) (g : Guard) (op : Nat) (d a : GReg) (b : Src) (f : Thread → W64) (h0 : Memory.wf s.mem.cells = true) :
    Memory.wf (issueG s t g op d a b f).mem.cells = true := by simp [issueG, *]

@[simp] theorem issueP_frame (s : State) (t : Tid) (g : Guard) (op : Nat) (p : PReg) (upper : W32) (f : Thread → Bool) :
    (issueP s t g op p upper f).pending = s.pending ∧ (issueP s t g op p upper f).now = s.now ∧ (issueP s t g op p upper f).time = s.time ∧ (issueP s t g op p upper f).img = s.img ∧ (issueP s t g op p upper f).insts = s.insts ∧ (issueP s t g op p upper f).fab = s.fab ∧ (issueP s t g op p upper f).pwr = s.pwr ∧ (issueP s t g op p upper f).met = s.met ∧ (issueP s t g op p upper f).keep = s.keep ∧ (issueP s t g op p upper f).arb = s.arb := by
  and_intros <;> (simp [issueP])

@[simp] theorem issueP_wf (s : State) (t : Tid) (g : Guard) (op : Nat) (p : PReg) (upper : W32) (f : Thread → Bool) (h0 : Memory.wf s.mem.cells = true) :
    Memory.wf (issueP s t g op p upper f).mem.cells = true := by simp [issueP, *]

@[simp] theorem issueF_frame (s : State) (t : Tid) (g : Guard) (op : Nat) (d a b : GReg) (f : W32 → W32 → Fv) :
    (issueF s t g op d a b f).pending = s.pending ∧ (issueF s t g op d a b f).now = s.now ∧ (issueF s t g op d a b f).time = s.time ∧ (issueF s t g op d a b f).img = s.img ∧ (issueF s t g op d a b f).insts = s.insts ∧ (issueF s t g op d a b f).fab = s.fab ∧ (issueF s t g op d a b f).pwr = s.pwr ∧ (issueF s t g op d a b f).met = s.met ∧ (issueF s t g op d a b f).keep = s.keep ∧ (issueF s t g op d a b f).arb = s.arb := by
  and_intros <;> (simp [issueF])

@[simp] theorem issueF_wf (s : State) (t : Tid) (g : Guard) (op : Nat) (d a b : GReg) (f : W32 → W32 → Fv) (h0 : Memory.wf s.mem.cells = true) :
    Memory.wf (issueF s t g op d a b f).mem.cells = true := by simp [issueF, *]

@[simp] theorem orExcept_pending (s : State) (t : Nat) (f : Option (Nat × W64 × W32)) (body : State) (h : body.pending = s.pending) : (orExcept s t f body).pending = s.pending := by
  unfold orExcept; split <;> simp [h]
@[simp] theorem orExcept_now (s : State) (t : Nat) (f : Option (Nat × W64 × W32)) (body : State) (h : body.now = s.now) : (orExcept s t f body).now = s.now := by
  unfold orExcept; split <;> simp [h]
@[simp] theorem orExcept_free (s : State) (t : Nat) (f : Option (Nat × W64 × W32)) (body : State) (h : body.free = s.free) : (orExcept s t f body).free = s.free := by
  unfold orExcept; split <;> simp [h]
@[simp] theorem orExcept_time (s : State) (t : Nat) (f : Option (Nat × W64 × W32)) (body : State) (h : body.time = s.time) : (orExcept s t f body).time = s.time := by
  unfold orExcept; split <;> simp [h]
@[simp] theorem orExcept_img (s : State) (t : Nat) (f : Option (Nat × W64 × W32)) (body : State) (h : body.img = s.img) : (orExcept s t f body).img = s.img := by
  unfold orExcept; split <;> simp [h]
@[simp] theorem orExcept_insts (s : State) (t : Nat) (f : Option (Nat × W64 × W32)) (body : State) (h : body.insts = s.insts) : (orExcept s t f body).insts = s.insts := by
  unfold orExcept; split <;> simp [h]
@[simp] theorem orExcept_fab (s : State) (t : Nat) (f : Option (Nat × W64 × W32)) (body : State) (h : body.fab = s.fab) : (orExcept s t f body).fab = s.fab := by
  unfold orExcept; split <;> simp [h]
@[simp] theorem orExcept_pwr (s : State) (t : Nat) (f : Option (Nat × W64 × W32)) (body : State) (h : body.pwr = s.pwr) : (orExcept s t f body).pwr = s.pwr := by
  unfold orExcept; split <;> simp [h]
@[simp] theorem orExcept_met (s : State) (t : Nat) (f : Option (Nat × W64 × W32)) (body : State) (h : body.met = s.met) : (orExcept s t f body).met = s.met := by
  unfold orExcept; split <;> simp [h]
@[simp] theorem orExcept_keep (s : State) (t : Nat) (f : Option (Nat × W64 × W32)) (body : State) (h : body.keep = s.keep) : (orExcept s t f body).keep = s.keep := by
  unfold orExcept; split <;> simp [h]
@[simp] theorem orExcept_arb (s : State) (t : Nat) (f : Option (Nat × W64 × W32)) (body : State) (h : body.arb = s.arb) : (orExcept s t f body).arb = s.arb := by
  unfold orExcept; split <;> simp [h]
@[simp] theorem orExcept_wf (s : State) (t : Nat) (f : Option (Nat × W64 × W32)) (body : State) (hs : Memory.wf s.mem.cells = true) (h : Memory.wf body.mem.cells = true) : Memory.wf (orExcept s t f body).mem.cells = true := by
  unfold orExcept; split <;> simp [h, hs]

/-! ### MemInstr -/

@[simp] theorem fillLine_frame (s : State) (c a : Nat) :
    (fillLine s c a).pending = s.pending ∧ (fillLine s c a).now = s.now ∧ (fillLine s c a).free = s.free ∧ (fillLine s c a).time = s.time ∧ (fillLine s c a).op = s.op ∧ (fillLine s c a).tile = s.tile ∧ (fillLine s c a).img = s.img ∧ (fillLine s c a).mem = s.mem ∧ (fillLine s c a).host = s.host ∧ (fillLine s c a).reg = s.reg ∧ (fillLine s c a).insts = s.insts ∧ (fillLine s c a).flt = s.flt ∧ (fillLine s c a).fab = s.fab ∧ (fillLine s c a).pwr = s.pwr ∧ (fillLine s c a).met = s.met ∧ (fillLine s c a).keep = s.keep ∧ (fillLine s c a).arb = s.arb := by
  and_intros <;> (simp [fillLine])

@[simp] theorem loadStacked_frame (s : State) (t : Tid) (d : GReg) (a n : Nat) (sx : Bool) :
    (loadStacked s t d a n sx).pending = s.pending ∧ (loadStacked s t d a n sx).now = s.now ∧ (loadStacked s t d a n sx).time = s.time ∧ (loadStacked s t d a n sx).img = s.img ∧ (loadStacked s t d a n sx).insts = s.insts ∧ (loadStacked s t d a n sx).fab = s.fab ∧ (loadStacked s t d a n sx).pwr = s.pwr ∧ (loadStacked s t d a n sx).met = s.met ∧ (loadStacked s t d a n sx).keep = s.keep ∧ (loadStacked s t d a n sx).arb = s.arb := by
  and_intros <;> (unfold loadStacked; (try dsimp only); (repeat' split) <;> simp [*])

@[simp] theorem loadStacked_wf (s : State) (t : Tid) (d : GReg) (a n : Nat) (sx : Bool) (h0 : Memory.wf s.mem.cells = true) :
    Memory.wf (loadStacked s t d a n sx).mem.cells = true := by unfold loadStacked; (try dsimp only); (repeat' split) <;> simp [*]

@[simp] theorem loadHost_frame (s : State) (t : Tid) (d : GReg) (a n : Nat) (sx : Bool) :
    (loadHost s t d a n sx).pending = s.pending ∧ (loadHost s t d a n sx).now = s.now ∧ (loadHost s t d a n sx).free = s.free ∧ (loadHost s t d a n sx).time = s.time ∧ (loadHost s t d a n sx).op = s.op ∧ (loadHost s t d a n sx).tile = s.tile ∧ (loadHost s t d a n sx).img = s.img ∧ (loadHost s t d a n sx).reg = s.reg ∧ (loadHost s t d a n sx).insts = s.insts ∧ (loadHost s t d a n sx).flt = s.flt ∧ (loadHost s t d a n sx).fab = s.fab ∧ (loadHost s t d a n sx).pwr = s.pwr ∧ (loadHost s t d a n sx).met = s.met ∧ (loadHost s t d a n sx).keep = s.keep ∧ (loadHost s t d a n sx).arb = s.arb := by
  and_intros <;> (unfold loadHost; (try dsimp only); (repeat' split) <;> simp [*])

@[simp] theorem loadHost_wf (s : State) (t : Tid) (d : GReg) (a n : Nat) (sx : Bool) (h0 : Memory.wf s.mem.cells = true) :
    Memory.wf (loadHost s t d a n sx).mem.cells = true := by unfold loadHost; (try dsimp only); (repeat' split) <;> simp [*]

@[simp] theorem drainOne_frame (s : State) (c : Nat) :
    (drainOne s c).pending = s.pending ∧ (drainOne s c).now = s.now ∧ (drainOne s c).free = s.free ∧ (drainOne s c).time = s.time ∧ (drainOne s c).op = s.op ∧ (drainOne s c).tile = s.tile ∧ (drainOne s c).img = s.img ∧ (drainOne s c).reg = s.reg ∧ (drainOne s c).insts = s.insts ∧ (drainOne s c).flt = s.flt ∧ (drainOne s c).fab = s.fab ∧ (drainOne s c).pwr = s.pwr ∧ (drainOne s c).met = s.met ∧ (drainOne s c).keep = s.keep ∧ (drainOne s c).arb = s.arb := by
  and_intros <;> (unfold drainOne; (try dsimp only); (repeat' split) <;> simp [*])

@[simp] theorem drainOne_wf (s : State) (c : Nat) (h0 : Memory.wf s.mem.cells = true) :
    Memory.wf (drainOne s c).mem.cells = true := by unfold drainOne; (try dsimp only); (repeat' split) <;> simp [*]

@[simp] theorem bufferStore_frame (s : State) (c : Nat) (e : StoreEntry) :
    (bufferStore s c e).pending = s.pending ∧ (bufferStore s c e).now = s.now ∧ (bufferStore s c e).free = s.free ∧ (bufferStore s c e).time = s.time ∧ (bufferStore s c e).op = s.op ∧ (bufferStore s c e).tile = s.tile ∧ (bufferStore s c e).img = s.img ∧ (bufferStore s c e).reg = s.reg ∧ (bufferStore s c e).insts = s.insts ∧ (bufferStore s c e).flt = s.flt ∧ (bufferStore s c e).fab = s.fab ∧ (bufferStore s c e).pwr = s.pwr ∧ (bufferStore s c e).met = s.met ∧ (bufferStore s c e).keep = s.keep ∧ (bufferStore s c e).arb = s.arb := by
  and_intros <;> (unfold bufferStore; (try dsimp only); (repeat' split) <;> simp [*])

@[simp] theorem bufferStore_wf (s : State) (c : Nat) (e : StoreEntry) (h0 : Memory.wf s.mem.cells = true) :
    Memory.wf (bufferStore s c e).mem.cells = true := by unfold bufferStore; (try dsimp only); (repeat' split) <;> simp [*]

@[simp] theorem drainWord_frame (s : State) (t a : Nat) :
    (drainWord s t a).pending = s.pending ∧ (drainWord s t a).now = s.now ∧ (drainWord s t a).free = s.free ∧ (drainWord s t a).time = s.time ∧ (drainWord s t a).op = s.op ∧ (drainWord s t a).tile = s.tile ∧ (drainWord s t a).img = s.img ∧ (drainWord s t a).reg = s.reg ∧ (drainWord s t a).insts = s.insts ∧ (drainWord s t a).flt = s.flt ∧ (drainWord s t a).fab = s.fab ∧ (drainWord s t a).pwr = s.pwr ∧ (drainWord s t a).met = s.met ∧ (drainWord s t a).keep = s.keep ∧ (drainWord s t a).arb = s.arb := by
  and_intros <;> (unfold drainWord; (try dsimp only); (repeat' split) <;> simp [*])

@[simp] theorem drainWord_wf (s : State) (t a : Nat) (h0 : Memory.wf s.mem.cells = true) :
    Memory.wf (drainWord s t a).mem.cells = true := by unfold drainWord; (try dsimp only); (repeat' split) <;> simp (disch := (intros; (try dsimp only); (repeat' split) <;> (try simp [*]))) [*]

@[simp] theorem patchAmo_frame (s : State) (t : Tid) (a : Nat) (v : W64) :
    (patchAmo s t a v).pending = s.pending ∧ (patchAmo s t a v).now = s.now ∧ (patchAmo s t a v).free = s.free ∧ (patchAmo s t a v).time = s.time ∧ (patchAmo s t a v).op = s.op ∧ (patchAmo s t a v).tile = s.tile ∧ (patchAmo s t a v).img = s.img ∧ (patchAmo s t a v).mem = s.mem ∧ (patchAmo s t a v).host = s.host ∧ (patchAmo s t a v).reg = s.reg ∧ (patchAmo s t a v).insts = s.insts ∧ (patchAmo s t a v).flt = s.flt ∧ (patchAmo s t a v).fab = s.fab ∧ (patchAmo s t a v).pwr = s.pwr ∧ (patchAmo s t a v).met = s.met ∧ (patchAmo s t a v).keep = s.keep ∧ (patchAmo s t a v).arb = s.arb := by
  and_intros <;> (unfold patchAmo; (try dsimp only); (repeat' split) <;> simp [*])

@[simp] theorem issueAmo_frame (s : State) (t : Tid) (g : Guard) (d a b : GReg) (rel : Bool) (f : W64 → W64 → W64 → W64) :
    (issueAmo s t g d a b rel f).pending = s.pending ∧ (issueAmo s t g d a b rel f).now = s.now ∧ (issueAmo s t g d a b rel f).time = s.time ∧ (issueAmo s t g d a b rel f).img = s.img ∧ (issueAmo s t g d a b rel f).insts = s.insts ∧ (issueAmo s t g d a b rel f).fab = s.fab ∧ (issueAmo s t g d a b rel f).pwr = s.pwr ∧ (issueAmo s t g d a b rel f).met = s.met ∧ (issueAmo s t g d a b rel f).keep = s.keep ∧ (issueAmo s t g d a b rel f).arb = s.arb := by
  and_intros <;> (unfold issueAmo; (try dsimp only); (repeat' split) <;> simp (disch := (intros; (try dsimp only); (repeat' split) <;> (try simp [*]))) [*])

@[simp] theorem issueAmo_wf (s : State) (t : Tid) (g : Guard) (d a b : GReg) (rel : Bool) (f : W64 → W64 → W64 → W64) (h0 : Memory.wf s.mem.cells = true) :
    Memory.wf (issueAmo s t g d a b rel f).mem.cells = true := by unfold issueAmo; (try dsimp only); (repeat' split) <;> simp (disch := (intros; (try dsimp only); (repeat' split) <;> (try simp (disch := (intros; (try dsimp only); (repeat' split) <;> (try simp [*]))) [*]))) [*]

@[simp] theorem issueFence_pending (s : State) (t : Tid) (g : Guard) (f : State → Nat → State) (hf : ∀ s x1, (f s x1).pending = s.pending) :
    (issueFence s t g f).pending = s.pending := by simp [issueFence, *]

@[simp] theorem issueFence_now (s : State) (t : Tid) (g : Guard) (f : State → Nat → State) (hf : ∀ s x1, (f s x1).now = s.now) :
    (issueFence s t g f).now = s.now := by simp [issueFence, *]

@[simp] theorem issueFence_time (s : State) (t : Tid) (g : Guard) (f : State → Nat → State) (hf : ∀ s x1, (f s x1).time = s.time) :
    (issueFence s t g f).time = s.time := by simp [issueFence, *]

@[simp] theorem issueFence_img (s : State) (t : Tid) (g : Guard) (f : State → Nat → State) (hf : ∀ s x1, (f s x1).img = s.img) :
    (issueFence s t g f).img = s.img := by simp [issueFence, *]

@[simp] theorem issueFence_insts (s : State) (t : Tid) (g : Guard) (f : State → Nat → State) (hf : ∀ s x1, (f s x1).insts = s.insts) :
    (issueFence s t g f).insts = s.insts := by simp [issueFence, *]

@[simp] theorem issueFence_fab (s : State) (t : Tid) (g : Guard) (f : State → Nat → State) (hf : ∀ s x1, (f s x1).fab = s.fab) :
    (issueFence s t g f).fab = s.fab := by simp [issueFence, *]

@[simp] theorem issueFence_pwr (s : State) (t : Tid) (g : Guard) (f : State → Nat → State) (hf : ∀ s x1, (f s x1).pwr = s.pwr) :
    (issueFence s t g f).pwr = s.pwr := by simp [issueFence, *]

@[simp] theorem issueFence_met (s : State) (t : Tid) (g : Guard) (f : State → Nat → State) (hf : ∀ s x1, (f s x1).met = s.met) :
    (issueFence s t g f).met = s.met := by simp [issueFence, *]

@[simp] theorem issueFence_keep (s : State) (t : Tid) (g : Guard) (f : State → Nat → State) (hf : ∀ s x1, (f s x1).keep = s.keep) :
    (issueFence s t g f).keep = s.keep := by simp [issueFence, *]

@[simp] theorem issueFence_arb (s : State) (t : Tid) (g : Guard) (f : State → Nat → State) (hf : ∀ s x1, (f s x1).arb = s.arb) :
    (issueFence s t g f).arb = s.arb := by simp [issueFence, *]

@[simp] theorem issueFence_wf (s : State) (t : Tid) (g : Guard) (f : State → Nat → State) (hf : ∀ s x1, Memory.wf s.mem.cells = true → Memory.wf (f s x1).mem.cells = true) (h0 : Memory.wf s.mem.cells = true) :
    Memory.wf (issueFence s t g f).mem.cells = true := by unfold issueFence; (try dsimp only); (repeat' split) <;> simp (disch := (intros; (try dsimp only); (repeat' split) <;> (try simp [*]))) [*]

@[simp] theorem flushIcache_frame (s : State) (t : Nat) :
    (flushIcache s t).pending = s.pending ∧ (flushIcache s t).now = s.now ∧ (flushIcache s t).free = s.free ∧ (flushIcache s t).time = s.time ∧ (flushIcache s t).op = s.op ∧ (flushIcache s t).tile = s.tile ∧ (flushIcache s t).img = s.img ∧ (flushIcache s t).mem = s.mem ∧ (flushIcache s t).host = s.host ∧ (flushIcache s t).reg = s.reg ∧ (flushIcache s t).insts = s.insts ∧ (flushIcache s t).flt = s.flt ∧ (flushIcache s t).fab = s.fab ∧ (flushIcache s t).pwr = s.pwr ∧ (flushIcache s t).met = s.met ∧ (flushIcache s t).keep = s.keep ∧ (flushIcache s t).arb = s.arb := by
  and_intros <;> (unfold flushIcache; (try dsimp only); (repeat' split) <;> simp [*])

/-! ### Checkpoint -/

@[simp] theorem writeCheckpoint_frame (s : State) (t : Nat) :
    (writeCheckpoint s t).pending = s.pending ∧ (writeCheckpoint s t).now = s.now ∧ (writeCheckpoint s t).free = s.free ∧ (writeCheckpoint s t).time = s.time ∧ (writeCheckpoint s t).op = s.op ∧ (writeCheckpoint s t).tile = s.tile ∧ (writeCheckpoint s t).img = s.img ∧ (writeCheckpoint s t).host = s.host ∧ (writeCheckpoint s t).reg = s.reg ∧ (writeCheckpoint s t).insts = s.insts ∧ (writeCheckpoint s t).flt = s.flt ∧ (writeCheckpoint s t).fab = s.fab ∧ (writeCheckpoint s t).pwr = s.pwr ∧ (writeCheckpoint s t).met = s.met ∧ (writeCheckpoint s t).keep = s.keep ∧ (writeCheckpoint s t).arb = s.arb := by
  and_intros <;> (unfold writeCheckpoint; (try dsimp only); (repeat' split) <;> simp [*])

@[simp] theorem writeCheckpoint_wf (s : State) (t : Nat) (h0 : Memory.wf s.mem.cells = true) :
    Memory.wf (writeCheckpoint s t).mem.cells = true := by unfold writeCheckpoint; (try dsimp only); (repeat' split) <;> simp [*]

/-! ### Control -/

@[simp] theorem transfer_frame (s : State) (t : Tid) (d : GReg) (target : W64) :
    (transfer s t d target).pending = s.pending ∧ (transfer s t d target).now = s.now ∧ (transfer s t d target).free = s.free ∧ (transfer s t d target).time = s.time ∧ (transfer s t d target).img = s.img ∧ (transfer s t d target).insts = s.insts ∧ (transfer s t d target).fab = s.fab ∧ (transfer s t d target).pwr = s.pwr ∧ (transfer s t d target).met = s.met ∧ (transfer s t d target).keep = s.keep ∧ (transfer s t d target).arb = s.arb := by
  and_intros <;> (simp [transfer])

@[simp] theorem transfer_wf (s : State) (t : Tid) (d : GReg) (target : W64) (h0 : Memory.wf s.mem.cells = true) :
    Memory.wf (transfer s t d target).mem.cells = true := by simp [transfer, *]

@[simp] theorem issueEret_frame (s : State) (t : Tid) (g : Guard) (a : GReg) (f : Thread → W64) (check : Bool) :
    (issueEret s t g a f check).pending = s.pending ∧ (issueEret s t g a f check).now = s.now ∧ (issueEret s t g a f check).time = s.time ∧ (issueEret s t g a f check).img = s.img ∧ (issueEret s t g a f check).insts = s.insts ∧ (issueEret s t g a f check).fab = s.fab ∧ (issueEret s t g a f check).pwr = s.pwr ∧ (issueEret s t g a f check).met = s.met ∧ (issueEret s t g a f check).keep = s.keep ∧ (issueEret s t g a f check).arb = s.arb := by
  and_intros <;> (unfold issueEret; (try dsimp only); (repeat' split) <;> simp (disch := (intros; (try dsimp only); (repeat' split) <;> (try simp [*]))) [*])

@[simp] theorem issueEret_wf (s : State) (t : Tid) (g : Guard) (a : GReg) (f : Thread → W64) (check : Bool) (h0 : Memory.wf s.mem.cells = true) :
    Memory.wf (issueEret s t g a f check).mem.cells = true := by unfold issueEret; (try dsimp only); (repeat' split) <;> simp (disch := (intros; (try dsimp only); (repeat' split) <;> (try simp [*]))) [*]

/-! ### OpCore -/

@[simp] theorem bumpFree_frame (s : State) :
    (bumpFree s).pending = s.pending ∧ (bumpFree s).now = s.now ∧ (bumpFree s).time = s.time ∧ (bumpFree s).mbx = s.mbx ∧ (bumpFree s).op = s.op ∧ (bumpFree s).tile = s.tile ∧ (bumpFree s).img = s.img ∧ (bumpFree s).mem = s.mem ∧ (bumpFree s).host = s.host ∧ (bumpFree s).reg = s.reg ∧ (bumpFree s).insts = s.insts ∧ (bumpFree s).flt = s.flt ∧ (bumpFree s).fab = s.fab ∧ (bumpFree s).pwr = s.pwr ∧ (bumpFree s).met = s.met ∧ (bumpFree s).keep = s.keep ∧ (bumpFree s).arb = s.arb := by
  and_intros <;> (simp [bumpFree])

@[simp] theorem emitOp_frame (s : State) (e : Nat) (o : Op) (r : Byte) :
    (emitOp s e o r).pending = s.pending ∧ (emitOp s e o r).now = s.now ∧ (emitOp s e o r).free = s.free ∧ (emitOp s e o r).time = s.time ∧ (emitOp s e o r).mbx = s.mbx ∧ (emitOp s e o r).op = s.op ∧ (emitOp s e o r).tile = s.tile ∧ (emitOp s e o r).img = s.img ∧ (emitOp s e o r).reg = s.reg ∧ (emitOp s e o r).insts = s.insts ∧ (emitOp s e o r).fab = s.fab ∧ (emitOp s e o r).pwr = s.pwr ∧ (emitOp s e o r).met = s.met ∧ (emitOp s e o r).keep = s.keep ∧ (emitOp s e o r).arb = s.arb := by
  and_intros <;> (simp [emitOp])

@[simp] theorem emitOp_wf (s : State) (e : Nat) (o : Op) (r : Byte) (h0 : Memory.wf s.mem.cells = true) :
    Memory.wf (emitOp s e o r).mem.cells = true := by simp [emitOp, *]

@[simp] theorem giveFlags_frame (s : State) (o : Op) :
    (giveFlags s o).pending = s.pending ∧ (giveFlags s o).now = s.now ∧ (giveFlags s o).free = s.free ∧ (giveFlags s o).time = s.time ∧ (giveFlags s o).op = s.op ∧ (giveFlags s o).tile = s.tile ∧ (giveFlags s o).img = s.img ∧ (giveFlags s o).mem = s.mem ∧ (giveFlags s o).host = s.host ∧ (giveFlags s o).reg = s.reg ∧ (giveFlags s o).insts = s.insts ∧ (giveFlags s o).flt = s.flt ∧ (giveFlags s o).fab = s.fab ∧ (giveFlags s o).pwr = s.pwr ∧ (giveFlags s o).met = s.met ∧ (giveFlags s o).keep = s.keep ∧ (giveFlags s o).arb = s.arb := by
  and_intros <;> (unfold giveFlags; (try dsimp only); (repeat' split) <;> simp [*])

@[simp] theorem freeOp_frame (s : State) (e : Nat) :
    (freeOp s e).pending = s.pending ∧ (freeOp s e).now = s.now ∧ (freeOp s e).free = s.free ∧ (freeOp s e).tile = s.tile ∧ (freeOp s e).img = s.img ∧ (freeOp s e).mem = s.mem ∧ (freeOp s e).host = s.host ∧ (freeOp s e).reg = s.reg ∧ (freeOp s e).insts = s.insts ∧ (freeOp s e).flt = s.flt ∧ (freeOp s e).fab = s.fab ∧ (freeOp s e).pwr = s.pwr ∧ (freeOp s e).met = s.met ∧ (freeOp s e).keep = s.keep ∧ (freeOp s e).arb = s.arb := by
  and_intros <;> (unfold freeOp; (try dsimp only); (repeat' split) <;> simp [*])

@[simp] theorem completeWith_frame (s : State) (e : Nat) (r : Byte) :
    (completeWith s e r).pending = s.pending ∧ (completeWith s e r).now = s.now ∧ (completeWith s e r).free = s.free ∧ (completeWith s e r).img = s.img ∧ (completeWith s e r).insts = s.insts ∧ (completeWith s e r).fab = s.fab ∧ (completeWith s e r).pwr = s.pwr ∧ (completeWith s e r).met = s.met ∧ (completeWith s e r).keep = s.keep ∧ (completeWith s e r).arb = s.arb := by
  and_intros <;> (unfold completeWith; (try dsimp only); (repeat' split) <;> simp [*])

@[simp] theorem completeWith_wf (s : State) (e : Nat) (r : Byte) (h0 : Memory.wf s.mem.cells = true) :
    Memory.wf (completeWith s e r).mem.cells = true := by unfold completeWith; (try dsimp only); (repeat' split) <;> simp (disch := (intros; (try dsimp only); (repeat' split) <;> (try simp [*]))) [*]

@[simp] theorem setResult_frame (s : State) (e : Nat) (r : Byte) (detail : Nat) :
    (setResult s e r detail).pending = s.pending ∧ (setResult s e r detail).now = s.now ∧ (setResult s e r detail).free = s.free ∧ (setResult s e r detail).time = s.time ∧ (setResult s e r detail).mbx = s.mbx ∧ (setResult s e r detail).tile = s.tile ∧ (setResult s e r detail).img = s.img ∧ (setResult s e r detail).mem = s.mem ∧ (setResult s e r detail).host = s.host ∧ (setResult s e r detail).reg = s.reg ∧ (setResult s e r detail).insts = s.insts ∧ (setResult s e r detail).flt = s.flt ∧ (setResult s e r detail).fab = s.fab ∧ (setResult s e r detail).pwr = s.pwr ∧ (setResult s e r detail).met = s.met ∧ (setResult s e r detail).keep = s.keep ∧ (setResult s e r detail).arb = s.arb := by
  and_intros <;> (unfold setResult; (try dsimp only); (repeat' split) <;> simp [*])

@[simp] theorem opFlags_frame (s : State) (e : Nat) (f : BitVec 4) :
    (opFlags s e f).pending = s.pending ∧ (opFlags s e f).now = s.now ∧ (opFlags s e f).free = s.free ∧ (opFlags s e f).time = s.time ∧ (opFlags s e f).mbx = s.mbx ∧ (opFlags s e f).tile = s.tile ∧ (opFlags s e f).img = s.img ∧ (opFlags s e f).mem = s.mem ∧ (opFlags s e f).host = s.host ∧ (opFlags s e f).reg = s.reg ∧ (opFlags s e f).insts = s.insts ∧ (opFlags s e f).flt = s.flt ∧ (opFlags s e f).fab = s.fab ∧ (opFlags s e f).pwr = s.pwr ∧ (opFlags s e f).met = s.met ∧ (opFlags s e f).keep = s.keep ∧ (opFlags s e f).arb = s.arb := by
  and_intros <;> (unfold opFlags; (try dsimp only); (repeat' split) <;> simp [*])

@[simp] theorem opCounts_frame (s : State) (e : Nat) (a b : Nat) :
    (opCounts s e a b).pending = s.pending ∧ (opCounts s e a b).now = s.now ∧ (opCounts s e a b).free = s.free ∧ (opCounts s e a b).time = s.time ∧ (opCounts s e a b).mbx = s.mbx ∧ (opCounts s e a b).tile = s.tile ∧ (opCounts s e a b).img = s.img ∧ (opCounts s e a b).mem = s.mem ∧ (opCounts s e a b).host = s.host ∧ (opCounts s e a b).reg = s.reg ∧ (opCounts s e a b).insts = s.insts ∧ (opCounts s e a b).flt = s.flt ∧ (opCounts s e a b).fab = s.fab ∧ (opCounts s e a b).pwr = s.pwr ∧ (opCounts s e a b).met = s.met ∧ (opCounts s e a b).keep = s.keep ∧ (opCounts s e a b).arb = s.arb := by
  and_intros <;> (simp [opCounts])

/-! ### OpIssue -/

@[simp] theorem allocOp_frame (s : State) (t : Nat) (e a : Nat) :
    (allocOp s t e a).pending = s.pending ∧ (allocOp s t e a).now = s.now ∧ (allocOp s t e a).free = s.free ∧ (allocOp s t e a).time = s.time ∧ (allocOp s t e a).mbx = s.mbx ∧ (allocOp s t e a).tile = s.tile ∧ (allocOp s t e a).img = s.img ∧ (allocOp s t e a).mem = s.mem ∧ (allocOp s t e a).host = s.host ∧ (allocOp s t e a).reg = s.reg ∧ (allocOp s t e a).insts = s.insts ∧ (allocOp s t e a).flt = s.flt ∧ (allocOp s t e a).fab = s.fab ∧ (allocOp s t e a).pwr = s.pwr ∧ (allocOp s t e a).met = s.met ∧ (allocOp s t e a).keep = s.keep ∧ (allocOp s t e a).arb = s.arb := by
  and_intros <;> (simp [allocOp])

@[simp] theorem issueOp_frame (s : State) (t : Tid) (g : Guard) (d a : GReg) (try_ : Bool) (kind : Nat) :
    (issueOp s t g d a try_ kind).pending = s.pending ∧ (issueOp s t g d a try_ kind).now = s.now ∧ (issueOp s t g d a try_ kind).time = s.time ∧ (issueOp s t g d a try_ kind).img = s.img ∧ (issueOp s t g d a try_ kind).insts = s.insts ∧ (issueOp s t g d a try_ kind).fab = s.fab ∧ (issueOp s t g d a try_ kind).pwr = s.pwr ∧ (issueOp s t g d a try_ kind).met = s.met ∧ (issueOp s t g d a try_ kind).keep = s.keep ∧ (issueOp s t g d a try_ kind).arb = s.arb := by
  and_intros <;> (unfold issueOp; (try dsimp only); (repeat' split) <;> simp (disch := (intros; (try dsimp only); (repeat' split) <;> (try simp [*]))) [*])

@[simp] theorem issueOp_wf (s : State) (t : Tid) (g : Guard) (d a : GReg) (try_ : Bool) (kind : Nat) (h0 : Memory.wf s.mem.cells = true) :
    Memory.wf (issueOp s t g d a try_ kind).mem.cells = true := by unfold issueOp; (try dsimp only); (repeat' split) <;> simp (disch := (intros; (try dsimp only); (repeat' split) <;> (try simp [*]))) [*]

/-! ### Waits -/

@[simp] theorem countMiss_frame (c t : Nat) (s : State) (tick : Nat) :
    (countMiss c t s tick).pending = s.pending ∧ (countMiss c t s tick).now = s.now ∧ (countMiss c t s tick).free = s.free ∧ (countMiss c t s tick).mbx = s.mbx ∧ (countMiss c t s tick).op = s.op ∧ (countMiss c t s tick).tile = s.tile ∧ (countMiss c t s tick).img = s.img ∧ (countMiss c t s tick).reg = s.reg ∧ (countMiss c t s tick).insts = s.insts ∧ (countMiss c t s tick).fab = s.fab ∧ (countMiss c t s tick).pwr = s.pwr ∧ (countMiss c t s tick).met = s.met ∧ (countMiss c t s tick).keep = s.keep ∧ (countMiss c t s tick).arb = s.arb := by
  and_intros <;> (unfold countMiss; (try dsimp only); (repeat' split) <;> simp [*])

@[simp] theorem countMiss_wf (c t : Nat) (s : State) (tick : Nat) (h0 : Memory.wf s.mem.cells = true) :
    Memory.wf (countMiss c t s tick).mem.cells = true := by unfold countMiss; (try dsimp only); (repeat' split) <;> simp [*]

@[simp] theorem consumeTick_frame (s : State) (t : Nat) :
    (consumeTick s t).1.pending = s.pending ∧ (consumeTick s t).1.now = s.now ∧ (consumeTick s t).1.free = s.free ∧ (consumeTick s t).1.op = s.op ∧ (consumeTick s t).1.tile = s.tile ∧ (consumeTick s t).1.img = s.img ∧ (consumeTick s t).1.reg = s.reg ∧ (consumeTick s t).1.insts = s.insts ∧ (consumeTick s t).1.fab = s.fab ∧ (consumeTick s t).1.pwr = s.pwr ∧ (consumeTick s t).1.met = s.met ∧ (consumeTick s t).1.keep = s.keep ∧ (consumeTick s t).1.arb = s.arb := by
  and_intros <;> (simp [consumeTick])

@[simp] theorem consumeTick_wf (s : State) (t : Nat) (h0 : Memory.wf s.mem.cells = true) :
    Memory.wf (consumeTick s t).1.mem.cells = true := by unfold consumeTick; (try dsimp only); (repeat' split) <;> simp (disch := (intros; (try dsimp only); (repeat' split) <;> (try simp [*]))) [*]

@[simp] theorem returnTick_frame (s : State) (t : Nat) :
    (returnTick s t).pending = s.pending ∧ (returnTick s t).now = s.now ∧ (returnTick s t).free = s.free ∧ (returnTick s t).op = s.op ∧ (returnTick s t).tile = s.tile ∧ (returnTick s t).img = s.img ∧ (returnTick s t).reg = s.reg ∧ (returnTick s t).insts = s.insts ∧ (returnTick s t).fab = s.fab ∧ (returnTick s t).pwr = s.pwr ∧ (returnTick s t).met = s.met ∧ (returnTick s t).keep = s.keep ∧ (returnTick s t).arb = s.arb := by
  and_intros <;> (simp [returnTick])

@[simp] theorem returnTick_wf (s : State) (t : Nat) (h0 : Memory.wf s.mem.cells = true) :
    Memory.wf (returnTick s t).mem.cells = true := by simp [returnTick, *]

@[simp] theorem returnNow_frame (s : State) (t : Tid) (d : GReg) (v : W64) :
    (returnNow s t d v).pending = s.pending ∧ (returnNow s t d v).now = s.now ∧ (returnNow s t d v).free = s.free ∧ (returnNow s t d v).time = s.time ∧ (returnNow s t d v).op = s.op ∧ (returnNow s t d v).tile = s.tile ∧ (returnNow s t d v).img = s.img ∧ (returnNow s t d v).mem = s.mem ∧ (returnNow s t d v).host = s.host ∧ (returnNow s t d v).reg = s.reg ∧ (returnNow s t d v).insts = s.insts ∧ (returnNow s t d v).flt = s.flt ∧ (returnNow s t d v).fab = s.fab ∧ (returnNow s t d v).pwr = s.pwr ∧ (returnNow s t d v).met = s.met ∧ (returnNow s t d v).keep = s.keep ∧ (returnNow s t d v).arb = s.arb := by
  and_intros <;> (simp [returnNow])

@[simp] theorem pollCounter_frame (s : State) (t : Nat) :
    (pollCounter s t).pending = s.pending ∧ (pollCounter s t).now = s.now ∧ (pollCounter s t).free = s.free ∧ (pollCounter s t).time = s.time ∧ (pollCounter s t).img = s.img ∧ (pollCounter s t).insts = s.insts ∧ (pollCounter s t).fab = s.fab ∧ (pollCounter s t).pwr = s.pwr ∧ (pollCounter s t).met = s.met ∧ (pollCounter s t).keep = s.keep ∧ (pollCounter s t).arb = s.arb := by
  and_intros <;> (unfold pollCounter; (try dsimp only); (repeat' split) <;> simp [*])

@[simp] theorem pollCounter_wf (s : State) (t : Nat) (h0 : Memory.wf s.mem.cells = true) :
    Memory.wf (pollCounter s t).mem.cells = true := by unfold pollCounter; (try dsimp only); (repeat' split) <;> simp [*]

@[simp] theorem suspendThr_frame (s : State) (t : Nat) :
    (suspendThr s t).pending = s.pending ∧ (suspendThr s t).now = s.now ∧ (suspendThr s t).free = s.free ∧ (suspendThr s t).time = s.time ∧ (suspendThr s t).op = s.op ∧ (suspendThr s t).tile = s.tile ∧ (suspendThr s t).img = s.img ∧ (suspendThr s t).mem = s.mem ∧ (suspendThr s t).host = s.host ∧ (suspendThr s t).reg = s.reg ∧ (suspendThr s t).insts = s.insts ∧ (suspendThr s t).flt = s.flt ∧ (suspendThr s t).fab = s.fab ∧ (suspendThr s t).pwr = s.pwr ∧ (suspendThr s t).met = s.met ∧ (suspendThr s t).keep = s.keep ∧ (suspendThr s t).arb = s.arb := by
  and_intros <;> (simp [suspendThr])

@[simp] theorem recheckWait_frame (s : State) (t : Nat) :
    (recheckWait s t).pending = s.pending ∧ (recheckWait s t).now = s.now ∧ (recheckWait s t).free = s.free ∧ (recheckWait s t).img = s.img ∧ (recheckWait s t).insts = s.insts ∧ (recheckWait s t).fab = s.fab ∧ (recheckWait s t).pwr = s.pwr ∧ (recheckWait s t).met = s.met ∧ (recheckWait s t).keep = s.keep ∧ (recheckWait s t).arb = s.arb := by
  and_intros <;> (unfold recheckWait; (try dsimp only); (repeat' split) <;> simp [*])

@[simp] theorem recheckWait_wf (s : State) (t : Nat) (h0 : Memory.wf s.mem.cells = true) :
    Memory.wf (recheckWait s t).mem.cells = true := by unfold recheckWait; (try dsimp only); (repeat' split) <;> simp [*]

@[simp] theorem resumeThr_frame (s : State) (t : Nat) :
    (resumeThr s t).pending = s.pending ∧ (resumeThr s t).now = s.now ∧ (resumeThr s t).free = s.free ∧ (resumeThr s t).img = s.img ∧ (resumeThr s t).insts = s.insts ∧ (resumeThr s t).fab = s.fab ∧ (resumeThr s t).pwr = s.pwr ∧ (resumeThr s t).met = s.met ∧ (resumeThr s t).keep = s.keep ∧ (resumeThr s t).arb = s.arb := by
  and_intros <;> (unfold resumeThr; (try dsimp only); (repeat' split) <;> simp [*])

@[simp] theorem resumeThr_wf (s : State) (t : Nat) (h0 : Memory.wf s.mem.cells = true) :
    Memory.wf (resumeThr s t).mem.cells = true := by unfold resumeThr; (try dsimp only); (repeat' split) <;> simp [*]

@[simp] theorem issueTctl_pending (s : State) (t : Tid) (g : Guard) (d a : GReg) (effect : Nat) (f : State → Nat → State × Nat) (hf : ∀ s x1, (f s x1).1.pending = s.pending) :
    (issueTctl s t g d a effect f).pending = s.pending := by unfold issueTctl; (try dsimp only); (repeat' split) <;> simp (disch := (intros; (try dsimp only); (repeat' split) <;> (try simp [*]))) [*]

@[simp] theorem issueTctl_now (s : State) (t : Tid) (g : Guard) (d a : GReg) (effect : Nat) (f : State → Nat → State × Nat) (hf : ∀ s x1, (f s x1).1.now = s.now) :
    (issueTctl s t g d a effect f).now = s.now := by unfold issueTctl; (try dsimp only); (repeat' split) <;> simp (disch := (intros; (try dsimp only); (repeat' split) <;> (try simp [*]))) [*]

@[simp] theorem issueTctl_time (s : State) (t : Tid) (g : Guard) (d a : GReg) (effect : Nat) (f : State → Nat → State × Nat) (hf : ∀ s x1, (f s x1).1.time = s.time) :
    (issueTctl s t g d a effect f).time = s.time := by unfold issueTctl; (try dsimp only); (repeat' split) <;> simp (disch := (intros; (try dsimp only); (repeat' split) <;> (try simp [*]))) [*]

@[simp] theorem issueTctl_img (s : State) (t : Tid) (g : Guard) (d a : GReg) (effect : Nat) (f : State → Nat → State × Nat) (hf : ∀ s x1, (f s x1).1.img = s.img) :
    (issueTctl s t g d a effect f).img = s.img := by unfold issueTctl; (try dsimp only); (repeat' split) <;> simp (disch := (intros; (try dsimp only); (repeat' split) <;> (try simp [*]))) [*]

@[simp] theorem issueTctl_fab (s : State) (t : Tid) (g : Guard) (d a : GReg) (effect : Nat) (f : State → Nat → State × Nat) (hf : ∀ s x1, (f s x1).1.fab = s.fab) :
    (issueTctl s t g d a effect f).fab = s.fab := by unfold issueTctl; (try dsimp only); (repeat' split) <;> simp (disch := (intros; (try dsimp only); (repeat' split) <;> (try simp [*]))) [*]

@[simp] theorem issueTctl_pwr (s : State) (t : Tid) (g : Guard) (d a : GReg) (effect : Nat) (f : State → Nat → State × Nat) (hf : ∀ s x1, (f s x1).1.pwr = s.pwr) :
    (issueTctl s t g d a effect f).pwr = s.pwr := by unfold issueTctl; (try dsimp only); (repeat' split) <;> simp (disch := (intros; (try dsimp only); (repeat' split) <;> (try simp [*]))) [*]

@[simp] theorem issueTctl_met (s : State) (t : Tid) (g : Guard) (d a : GReg) (effect : Nat) (f : State → Nat → State × Nat) (hf : ∀ s x1, (f s x1).1.met = s.met) :
    (issueTctl s t g d a effect f).met = s.met := by unfold issueTctl; (try dsimp only); (repeat' split) <;> simp (disch := (intros; (try dsimp only); (repeat' split) <;> (try simp [*]))) [*]

@[simp] theorem issueTctl_keep (s : State) (t : Tid) (g : Guard) (d a : GReg) (effect : Nat) (f : State → Nat → State × Nat) (hf : ∀ s x1, (f s x1).1.keep = s.keep) :
    (issueTctl s t g d a effect f).keep = s.keep := by unfold issueTctl; (try dsimp only); (repeat' split) <;> simp (disch := (intros; (try dsimp only); (repeat' split) <;> (try simp [*]))) [*]

@[simp] theorem issueTctl_arb (s : State) (t : Tid) (g : Guard) (d a : GReg) (effect : Nat) (f : State → Nat → State × Nat) (hf : ∀ s x1, (f s x1).1.arb = s.arb) :
    (issueTctl s t g d a effect f).arb = s.arb := by unfold issueTctl; (try dsimp only); (repeat' split) <;> simp (disch := (intros; (try dsimp only); (repeat' split) <;> (try simp [*]))) [*]

@[simp] theorem issueTctl_wf (s : State) (t : Tid) (g : Guard) (d a : GReg) (effect : Nat) (f : State → Nat → State × Nat) (hf : ∀ s x1, Memory.wf s.mem.cells = true → Memory.wf (f s x1).1.mem.cells = true) (h0 : Memory.wf s.mem.cells = true) :
    Memory.wf (issueTctl s t g d a effect f).mem.cells = true := by unfold issueTctl; (try dsimp only); (repeat' split) <;> simp (disch := (intros; (try dsimp only); (repeat' split) <;> (try simp [*]))) [*]

@[simp] theorem suspendResult_frame (s : State) (x : Nat) :
    (suspendResult s x).1.pending = s.pending ∧ (suspendResult s x).1.now = s.now ∧ (suspendResult s x).1.free = s.free ∧ (suspendResult s x).1.time = s.time ∧ (suspendResult s x).1.op = s.op ∧ (suspendResult s x).1.tile = s.tile ∧ (suspendResult s x).1.img = s.img ∧ (suspendResult s x).1.mem = s.mem ∧ (suspendResult s x).1.host = s.host ∧ (suspendResult s x).1.reg = s.reg ∧ (suspendResult s x).1.insts = s.insts ∧ (suspendResult s x).1.flt = s.flt ∧ (suspendResult s x).1.fab = s.fab ∧ (suspendResult s x).1.pwr = s.pwr ∧ (suspendResult s x).1.met = s.met ∧ (suspendResult s x).1.keep = s.keep ∧ (suspendResult s x).1.arb = s.arb := by
  and_intros <;> (unfold suspendResult; (try dsimp only); (repeat' split) <;> simp [*])

@[simp] theorem resumeResult_frame (s : State) (x : Nat) :
    (resumeResult s x).1.pending = s.pending ∧ (resumeResult s x).1.now = s.now ∧ (resumeResult s x).1.free = s.free ∧ (resumeResult s x).1.img = s.img ∧ (resumeResult s x).1.insts = s.insts ∧ (resumeResult s x).1.fab = s.fab ∧ (resumeResult s x).1.pwr = s.pwr ∧ (resumeResult s x).1.met = s.met ∧ (resumeResult s x).1.keep = s.keep ∧ (resumeResult s x).1.arb = s.arb := by
  and_intros <;> (unfold resumeResult; (try dsimp only); (repeat' split) <;> simp [*])

@[simp] theorem resumeResult_wf (s : State) (x : Nat) (h0 : Memory.wf s.mem.cells = true) :
    Memory.wf (resumeResult s x).1.mem.cells = true := by unfold resumeResult; (try dsimp only); (repeat' split) <;> simp [*]

/-! ### Sched -/

@[simp] theorem swapOut_frame (s : State) (t : Nat) :
    (swapOut s t).pending = s.pending ∧ (swapOut s t).now = s.now ∧ (swapOut s t).free = s.free ∧ (swapOut s t).time = s.time ∧ (swapOut s t).op = s.op ∧ (swapOut s t).tile = s.tile ∧ (swapOut s t).img = s.img ∧ (swapOut s t).reg = s.reg ∧ (swapOut s t).insts = s.insts ∧ (swapOut s t).flt = s.flt ∧ (swapOut s t).fab = s.fab ∧ (swapOut s t).pwr = s.pwr ∧ (swapOut s t).met = s.met ∧ (swapOut s t).keep = s.keep ∧ (swapOut s t).arb = s.arb := by
  and_intros <;> (unfold swapOut; (try dsimp only); (repeat' split) <;> simp [*])

@[simp] theorem swapOut_wf (s : State) (t : Nat) (h0 : Memory.wf s.mem.cells = true) :
    Memory.wf (swapOut s t).mem.cells = true := by unfold swapOut; (try dsimp only); (repeat' split) <;> simp [*]

@[simp] theorem swapIn_frame (s : State) (t k : Nat) :
    (swapIn s t k).pending = s.pending ∧ (swapIn s t k).now = s.now ∧ (swapIn s t k).free = s.free ∧ (swapIn s t k).time = s.time ∧ (swapIn s t k).op = s.op ∧ (swapIn s t k).tile = s.tile ∧ (swapIn s t k).img = s.img ∧ (swapIn s t k).mem = s.mem ∧ (swapIn s t k).host = s.host ∧ (swapIn s t k).reg = s.reg ∧ (swapIn s t k).insts = s.insts ∧ (swapIn s t k).flt = s.flt ∧ (swapIn s t k).fab = s.fab ∧ (swapIn s t k).pwr = s.pwr ∧ (swapIn s t k).met = s.met ∧ (swapIn s t k).keep = s.keep ∧ (swapIn s t k).arb = s.arb := by
  and_intros <;> (simp [swapIn])

@[simp] theorem rehome_frame (s : State) (t : Nat) :
    (rehome s t).pending = s.pending ∧ (rehome s t).now = s.now ∧ (rehome s t).free = s.free ∧ (rehome s t).time = s.time ∧ (rehome s t).op = s.op ∧ (rehome s t).tile = s.tile ∧ (rehome s t).img = s.img ∧ (rehome s t).mem = s.mem ∧ (rehome s t).host = s.host ∧ (rehome s t).reg = s.reg ∧ (rehome s t).insts = s.insts ∧ (rehome s t).flt = s.flt ∧ (rehome s t).fab = s.fab ∧ (rehome s t).pwr = s.pwr ∧ (rehome s t).met = s.met ∧ (rehome s t).keep = s.keep ∧ (rehome s t).arb = s.arb := by
  and_intros <;> (unfold rehome; (try dsimp only); (repeat' split) <;> simp [*])

@[simp] theorem displace_frame (s : State) (t : Nat) :
    (displace s t).pending = s.pending ∧ (displace s t).now = s.now ∧ (displace s t).free = s.free ∧ (displace s t).time = s.time ∧ (displace s t).op = s.op ∧ (displace s t).tile = s.tile ∧ (displace s t).img = s.img ∧ (displace s t).reg = s.reg ∧ (displace s t).insts = s.insts ∧ (displace s t).flt = s.flt ∧ (displace s t).fab = s.fab ∧ (displace s t).pwr = s.pwr ∧ (displace s t).met = s.met ∧ (displace s t).keep = s.keep ∧ (displace s t).arb = s.arb := by
  and_intros <;> (simp [displace])

@[simp] theorem displace_wf (s : State) (t : Nat) (h0 : Memory.wf s.mem.cells = true) :
    Memory.wf (displace s t).mem.cells = true := by simp [displace, *]

@[simp] theorem restartThr_frame (s : State) (t : Nat) (code : Nat) (addr : W64) (info : W32) :
    (restartThr s t code addr info).pending = s.pending ∧ (restartThr s t code addr info).now = s.now ∧ (restartThr s t code addr info).free = s.free ∧ (restartThr s t code addr info).time = s.time ∧ (restartThr s t code addr info).img = s.img ∧ (restartThr s t code addr info).insts = s.insts ∧ (restartThr s t code addr info).fab = s.fab ∧ (restartThr s t code addr info).pwr = s.pwr ∧ (restartThr s t code addr info).met = s.met ∧ (restartThr s t code addr info).keep = s.keep ∧ (restartThr s t code addr info).arb = s.arb := by
  and_intros <;> (unfold restartThr; (try dsimp only); (repeat' split) <;> simp [*])

@[simp] theorem restartThr_wf (s : State) (t : Nat) (code : Nat) (addr : W64) (info : W32) (h0 : Memory.wf s.mem.cells = true) :
    Memory.wf (restartThr s t code addr info).mem.cells = true := by unfold restartThr; (try dsimp only); (repeat' split) <;> simp (disch := (intros; (try dsimp only); (repeat' split) <;> (try simp [*]))) [*]

@[simp] theorem restoreSessions_frame (inst : Inst) (l : List Byte) (s : State) :
    (restoreSessions inst l s).pending = s.pending ∧ (restoreSessions inst l s).now = s.now ∧ (restoreSessions inst l s).free = s.free ∧ (restoreSessions inst l s).time = s.time ∧ (restoreSessions inst l s).mbx = s.mbx ∧ (restoreSessions inst l s).op = s.op ∧ (restoreSessions inst l s).tile = s.tile ∧ (restoreSessions inst l s).img = s.img ∧ (restoreSessions inst l s).reg = s.reg ∧ (restoreSessions inst l s).insts = s.insts ∧ (restoreSessions inst l s).flt = s.flt ∧ (restoreSessions inst l s).fab = s.fab ∧ (restoreSessions inst l s).pwr = s.pwr ∧ (restoreSessions inst l s).met = s.met ∧ (restoreSessions inst l s).keep = s.keep ∧ (restoreSessions inst l s).arb = s.arb := by
  and_intros <;> (unfold restoreSessions; (try dsimp only); (repeat' split) <;> simp (disch := (intros; (try dsimp only); (repeat' split) <;> (try simp [*]))) [*])

@[simp] theorem restoreSessions_wf (inst : Inst) (l : List Byte) (s : State) (h0 : Memory.wf s.mem.cells = true) :
    Memory.wf (restoreSessions inst l s).mem.cells = true := by unfold restoreSessions; (try dsimp only); (repeat' split) <;> simp (disch := (intros; (try dsimp only); (repeat' split) <;> (try simp [*]))) [*]

@[simp] theorem emitRestart_frame (s : State) (inst : Inst) (t : Nat) (code : Byte) (step : Nat) :
    (emitRestart s inst t code step).pending = s.pending ∧ (emitRestart s inst t code step).now = s.now ∧ (emitRestart s inst t code step).free = s.free ∧ (emitRestart s inst t code step).time = s.time ∧ (emitRestart s inst t code step).mbx = s.mbx ∧ (emitRestart s inst t code step).op = s.op ∧ (emitRestart s inst t code step).tile = s.tile ∧ (emitRestart s inst t code step).img = s.img ∧ (emitRestart s inst t code step).reg = s.reg ∧ (emitRestart s inst t code step).insts = s.insts ∧ (emitRestart s inst t code step).fab = s.fab ∧ (emitRestart s inst t code step).pwr = s.pwr ∧ (emitRestart s inst t code step).met = s.met ∧ (emitRestart s inst t code step).keep = s.keep ∧ (emitRestart s inst t code step).arb = s.arb := by
  and_intros <;> (simp [emitRestart])

@[simp] theorem emitRestart_wf (s : State) (inst : Inst) (t : Nat) (code : Byte) (step : Nat) (h0 : Memory.wf s.mem.cells = true) :
    Memory.wf (emitRestart s inst t code step).mem.cells = true := by simp [emitRestart, *]

@[simp] theorem drainChecked_pending (c : Nat) (bad : List Nat) (i : Nat) (l : List StoreEntry) (s : State) : (drainChecked c bad i l s).pending = s.pending := by
  induction l generalizing i s with
  | nil => rfl
  | cons e r ih => unfold drainChecked; rw [ih]; split <;> simp
@[simp] theorem drainChecked_now (c : Nat) (bad : List Nat) (i : Nat) (l : List StoreEntry) (s : State) : (drainChecked c bad i l s).now = s.now := by
  induction l generalizing i s with
  | nil => rfl
  | cons e r ih => unfold drainChecked; rw [ih]; split <;> simp
@[simp] theorem drainChecked_free (c : Nat) (bad : List Nat) (i : Nat) (l : List StoreEntry) (s : State) : (drainChecked c bad i l s).free = s.free := by
  induction l generalizing i s with
  | nil => rfl
  | cons e r ih => unfold drainChecked; rw [ih]; split <;> simp
@[simp] theorem drainChecked_time (c : Nat) (bad : List Nat) (i : Nat) (l : List StoreEntry) (s : State) : (drainChecked c bad i l s).time = s.time := by
  induction l generalizing i s with
  | nil => rfl
  | cons e r ih => unfold drainChecked; rw [ih]; split <;> simp
@[simp] theorem drainChecked_op (c : Nat) (bad : List Nat) (i : Nat) (l : List StoreEntry) (s : State) : (drainChecked c bad i l s).op = s.op := by
  induction l generalizing i s with
  | nil => rfl
  | cons e r ih => unfold drainChecked; rw [ih]; split <;> simp
@[simp] theorem drainChecked_tile (c : Nat) (bad : List Nat) (i : Nat) (l : List StoreEntry) (s : State) : (drainChecked c bad i l s).tile = s.tile := by
  induction l generalizing i s with
  | nil => rfl
  | cons e r ih => unfold drainChecked; rw [ih]; split <;> simp
@[simp] theorem drainChecked_img (c : Nat) (bad : List Nat) (i : Nat) (l : List StoreEntry) (s : State) : (drainChecked c bad i l s).img = s.img := by
  induction l generalizing i s with
  | nil => rfl
  | cons e r ih => unfold drainChecked; rw [ih]; split <;> simp
@[simp] theorem drainChecked_reg (c : Nat) (bad : List Nat) (i : Nat) (l : List StoreEntry) (s : State) : (drainChecked c bad i l s).reg = s.reg := by
  induction l generalizing i s with
  | nil => rfl
  | cons e r ih => unfold drainChecked; rw [ih]; split <;> simp
@[simp] theorem drainChecked_insts (c : Nat) (bad : List Nat) (i : Nat) (l : List StoreEntry) (s : State) : (drainChecked c bad i l s).insts = s.insts := by
  induction l generalizing i s with
  | nil => rfl
  | cons e r ih => unfold drainChecked; rw [ih]; split <;> simp
@[simp] theorem drainChecked_fab (c : Nat) (bad : List Nat) (i : Nat) (l : List StoreEntry) (s : State) : (drainChecked c bad i l s).fab = s.fab := by
  induction l generalizing i s with
  | nil => rfl
  | cons e r ih => unfold drainChecked; rw [ih]; split <;> simp
@[simp] theorem drainChecked_pwr (c : Nat) (bad : List Nat) (i : Nat) (l : List StoreEntry) (s : State) : (drainChecked c bad i l s).pwr = s.pwr := by
  induction l generalizing i s with
  | nil => rfl
  | cons e r ih => unfold drainChecked; rw [ih]; split <;> simp
@[simp] theorem drainChecked_met (c : Nat) (bad : List Nat) (i : Nat) (l : List StoreEntry) (s : State) : (drainChecked c bad i l s).met = s.met := by
  induction l generalizing i s with
  | nil => rfl
  | cons e r ih => unfold drainChecked; rw [ih]; split <;> simp
@[simp] theorem drainChecked_keep (c : Nat) (bad : List Nat) (i : Nat) (l : List StoreEntry) (s : State) : (drainChecked c bad i l s).keep = s.keep := by
  induction l generalizing i s with
  | nil => rfl
  | cons e r ih => unfold drainChecked; rw [ih]; split <;> simp
@[simp] theorem drainChecked_arb (c : Nat) (bad : List Nat) (i : Nat) (l : List StoreEntry) (s : State) : (drainChecked c bad i l s).arb = s.arb := by
  induction l generalizing i s with
  | nil => rfl
  | cons e r ih => unfold drainChecked; rw [ih]; split <;> simp
@[simp] theorem drainChecked_wf (c : Nat) (bad : List Nat) (i : Nat) (l : List StoreEntry) (s : State) (hs : Memory.wf s.mem.cells = true) : Memory.wf (drainChecked c bad i l s).mem.cells = true := by
  induction l generalizing i s with
  | nil => exact hs
  | cons e r ih => unfold drainChecked; apply ih; split <;> simp [hs]

@[simp] theorem faultCore_frame (s : State) (c : Nat) (bad : List Nat) :
    (faultCore s c bad).pending = s.pending ∧ (faultCore s c bad).now = s.now ∧ (faultCore s c bad).free = s.free ∧ (faultCore s c bad).time = s.time ∧ (faultCore s c bad).img = s.img ∧ (faultCore s c bad).insts = s.insts ∧ (faultCore s c bad).fab = s.fab ∧ (faultCore s c bad).pwr = s.pwr ∧ (faultCore s c bad).met = s.met ∧ (faultCore s c bad).keep = s.keep ∧ (faultCore s c bad).arb = s.arb := by
  and_intros <;> (unfold faultCore; (try dsimp only); (repeat' split) <;> simp (disch := (intros; (try dsimp only); (repeat' split) <;> (try simp [*]))) [*])

@[simp] theorem faultCore_wf (s : State) (c : Nat) (bad : List Nat) (h0 : Memory.wf s.mem.cells = true) :
    Memory.wf (faultCore s c bad).mem.cells = true := by unfold faultCore; (try dsimp only); (repeat' split) <;> simp (disch := (intros; (try dsimp only); (repeat' split) <;> (try simp [*]))) [*]

/-! ### HostSub -/

@[simp] theorem pageTo_pending (s : State) (by_ inst : Inst) (off mask old v : Nat) (f : State → Nat → State) (hf : ∀ s x1, (f s x1).pending = s.pending) :
    (pageTo s by_ inst off mask old v f).pending = s.pending := by unfold pageTo; (try dsimp only); (repeat' split) <;> simp [*]

@[simp] theorem pageTo_now (s : State) (by_ inst : Inst) (off mask old v : Nat) (f : State → Nat → State) (hf : ∀ s x1, (f s x1).now = s.now) :
    (pageTo s by_ inst off mask old v f).now = s.now := by unfold pageTo; (try dsimp only); (repeat' split) <;> simp [*]

@[simp] theorem pageTo_free (s : State) (by_ inst : Inst) (off mask old v : Nat) (f : State → Nat → State) (hf : ∀ s x1, (f s x1).free = s.free) :
    (pageTo s by_ inst off mask old v f).free = s.free := by unfold pageTo; (try dsimp only); (repeat' split) <;> simp [*]

@[simp] theorem pageTo_time (s : State) (by_ inst : Inst) (off mask old v : Nat) (f : State → Nat → State) (hf : ∀ s x1, (f s x1).time = s.time) :
    (pageTo s by_ inst off mask old v f).time = s.time := by unfold pageTo; (try dsimp only); (repeat' split) <;> simp [*]

@[simp] theorem pageTo_op (s : State) (by_ inst : Inst) (off mask old v : Nat) (f : State → Nat → State) (hf : ∀ s x1, (f s x1).op = s.op) :
    (pageTo s by_ inst off mask old v f).op = s.op := by unfold pageTo; (try dsimp only); (repeat' split) <;> simp [*]

@[simp] theorem pageTo_tile (s : State) (by_ inst : Inst) (off mask old v : Nat) (f : State → Nat → State) (hf : ∀ s x1, (f s x1).tile = s.tile) :
    (pageTo s by_ inst off mask old v f).tile = s.tile := by unfold pageTo; (try dsimp only); (repeat' split) <;> simp [*]

@[simp] theorem pageTo_img (s : State) (by_ inst : Inst) (off mask old v : Nat) (f : State → Nat → State) (hf : ∀ s x1, (f s x1).img = s.img) :
    (pageTo s by_ inst off mask old v f).img = s.img := by unfold pageTo; (try dsimp only); (repeat' split) <;> simp [*]

@[simp] theorem pageTo_mem (s : State) (by_ inst : Inst) (off mask old v : Nat) (f : State → Nat → State) (hf : ∀ s x1, (f s x1).mem = s.mem) :
    (pageTo s by_ inst off mask old v f).mem = s.mem := by unfold pageTo; (try dsimp only); (repeat' split) <;> simp [*]

@[simp] theorem pageTo_host (s : State) (by_ inst : Inst) (off mask old v : Nat) (f : State → Nat → State) (hf : ∀ s x1, (f s x1).host = s.host) :
    (pageTo s by_ inst off mask old v f).host = s.host := by unfold pageTo; (try dsimp only); (repeat' split) <;> simp [*]

@[simp] theorem pageTo_flt (s : State) (by_ inst : Inst) (off mask old v : Nat) (f : State → Nat → State) (hf : ∀ s x1, (f s x1).flt = s.flt) :
    (pageTo s by_ inst off mask old v f).flt = s.flt := by unfold pageTo; (try dsimp only); (repeat' split) <;> simp [*]

@[simp] theorem pageTo_fab (s : State) (by_ inst : Inst) (off mask old v : Nat) (f : State → Nat → State) (hf : ∀ s x1, (f s x1).fab = s.fab) :
    (pageTo s by_ inst off mask old v f).fab = s.fab := by unfold pageTo; (try dsimp only); (repeat' split) <;> simp [*]

@[simp] theorem pageTo_pwr (s : State) (by_ inst : Inst) (off mask old v : Nat) (f : State → Nat → State) (hf : ∀ s x1, (f s x1).pwr = s.pwr) :
    (pageTo s by_ inst off mask old v f).pwr = s.pwr := by unfold pageTo; (try dsimp only); (repeat' split) <;> simp [*]

@[simp] theorem pageTo_met (s : State) (by_ inst : Inst) (off mask old v : Nat) (f : State → Nat → State) (hf : ∀ s x1, (f s x1).met = s.met) :
    (pageTo s by_ inst off mask old v f).met = s.met := by unfold pageTo; (try dsimp only); (repeat' split) <;> simp [*]

@[simp] theorem pageTo_keep (s : State) (by_ inst : Inst) (off mask old v : Nat) (f : State → Nat → State) (hf : ∀ s x1, (f s x1).keep = s.keep) :
    (pageTo s by_ inst off mask old v f).keep = s.keep := by unfold pageTo; (try dsimp only); (repeat' split) <;> simp [*]

@[simp] theorem pageTo_arb (s : State) (by_ inst : Inst) (off mask old v : Nat) (f : State → Nat → State) (hf : ∀ s x1, (f s x1).arb = s.arb) :
    (pageTo s by_ inst off mask old v f).arb = s.arb := by unfold pageTo; (try dsimp only); (repeat' split) <;> simp [*]

@[simp] theorem tailWrite_frame (s : State) (by_ inst : Inst) (j : Nat) (v : W32) :
    (tailWrite s by_ inst j v).pending = s.pending ∧ (tailWrite s by_ inst j v).now = s.now ∧ (tailWrite s by_ inst j v).free = s.free ∧ (tailWrite s by_ inst j v).time = s.time ∧ (tailWrite s by_ inst j v).op = s.op ∧ (tailWrite s by_ inst j v).tile = s.tile ∧ (tailWrite s by_ inst j v).img = s.img ∧ (tailWrite s by_ inst j v).mem = s.mem ∧ (tailWrite s by_ inst j v).host = s.host ∧ (tailWrite s by_ inst j v).flt = s.flt ∧ (tailWrite s by_ inst j v).fab = s.fab ∧ (tailWrite s by_ inst j v).pwr = s.pwr ∧ (tailWrite s by_ inst j v).met = s.met ∧ (tailWrite s by_ inst j v).keep = s.keep ∧ (tailWrite s by_ inst j v).arb = s.arb := by
  and_intros <;> (unfold tailWrite; (try dsimp only); (repeat' split) <;> simp [*])

@[simp] theorem ctlWrite_frame (s : State) (by_ inst : Inst) (j v : Nat) :
    (ctlWrite s by_ inst j v).pending = s.pending ∧ (ctlWrite s by_ inst j v).now = s.now ∧ (ctlWrite s by_ inst j v).free = s.free ∧ (ctlWrite s by_ inst j v).time = s.time ∧ (ctlWrite s by_ inst j v).op = s.op ∧ (ctlWrite s by_ inst j v).tile = s.tile ∧ (ctlWrite s by_ inst j v).img = s.img ∧ (ctlWrite s by_ inst j v).mem = s.mem ∧ (ctlWrite s by_ inst j v).host = s.host ∧ (ctlWrite s by_ inst j v).flt = s.flt ∧ (ctlWrite s by_ inst j v).fab = s.fab ∧ (ctlWrite s by_ inst j v).pwr = s.pwr ∧ (ctlWrite s by_ inst j v).met = s.met ∧ (ctlWrite s by_ inst j v).keep = s.keep ∧ (ctlWrite s by_ inst j v).arb = s.arb := by
  and_intros <;> (simp [ctlWrite])

@[simp] theorem accessError_frame (s : State) (fn : Inst) :
    (accessError s fn).pending = s.pending ∧ (accessError s fn).now = s.now ∧ (accessError s fn).free = s.free ∧ (accessError s fn).time = s.time ∧ (accessError s fn).mbx = s.mbx ∧ (accessError s fn).op = s.op ∧ (accessError s fn).tile = s.tile ∧ (accessError s fn).img = s.img ∧ (accessError s fn).reg = s.reg ∧ (accessError s fn).fab = s.fab ∧ (accessError s fn).pwr = s.pwr ∧ (accessError s fn).met = s.met ∧ (accessError s fn).keep = s.keep ∧ (accessError s fn).arb = s.arb := by
  and_intros <;> (unfold accessError; extract_lets; (repeat' split) <;> simp +zetaDelta [*])

@[simp] theorem accessError_wf (s : State) (fn : Inst) (h0 : Memory.wf s.mem.cells = true) :
    Memory.wf (accessError s fn).mem.cells = true := by unfold accessError; extract_lets; (repeat' split) <;> simp +zetaDelta [*]

@[simp] theorem cntAddNow_frame (s : State) (inst : Inst) (v : W64) :
    (cntAddNow s inst v).pending = s.pending ∧ (cntAddNow s inst v).now = s.now ∧ (cntAddNow s inst v).free = s.free ∧ (cntAddNow s inst v).time = s.time ∧ (cntAddNow s inst v).img = s.img ∧ (cntAddNow s inst v).fab = s.fab ∧ (cntAddNow s inst v).pwr = s.pwr ∧ (cntAddNow s inst v).met = s.met ∧ (cntAddNow s inst v).keep = s.keep ∧ (cntAddNow s inst v).arb = s.arb := by
  and_intros <;> (unfold cntAddNow; (try dsimp only); (repeat' split) <;> simp [*])

@[simp] theorem cntAddNow_wf (s : State) (inst : Inst) (v : W64) (h0 : Memory.wf s.mem.cells = true) :
    Memory.wf (cntAddNow s inst v).mem.cells = true := by unfold cntAddNow; (try dsimp only); (repeat' split) <;> simp [*]

@[simp] theorem cntAddWrite_frame (s : State) (inst : Inst) (w : CntWrite) :
    (cntAddWrite s inst w).pending = s.pending ∧ (cntAddWrite s inst w).now = s.now ∧ (cntAddWrite s inst w).free = s.free ∧ (cntAddWrite s inst w).time = s.time ∧ (cntAddWrite s inst w).img = s.img ∧ (cntAddWrite s inst w).fab = s.fab ∧ (cntAddWrite s inst w).pwr = s.pwr ∧ (cntAddWrite s inst w).met = s.met ∧ (cntAddWrite s inst w).keep = s.keep ∧ (cntAddWrite s inst w).arb = s.arb := by
  and_intros <;> (unfold cntAddWrite; (try dsimp only); (repeat' split) <;> simp [*])

@[simp] theorem cntAddWrite_wf (s : State) (inst : Inst) (w : CntWrite) (h0 : Memory.wf s.mem.cells = true) :
    Memory.wf (cntAddWrite s inst w).mem.cells = true := by unfold cntAddWrite; (try dsimp only); (repeat' split) <;> simp [*]

@[simp] theorem abortTidWrite_frame (s : State) (by_ : Option Inst) (inst : Inst) (v : W32) :
    (abortTidWrite s by_ inst v).pending = s.pending ∧ (abortTidWrite s by_ inst v).now = s.now ∧ (abortTidWrite s by_ inst v).free = s.free ∧ (abortTidWrite s by_ inst v).time = s.time ∧ (abortTidWrite s by_ inst v).img = s.img ∧ (abortTidWrite s by_ inst v).fab = s.fab ∧ (abortTidWrite s by_ inst v).pwr = s.pwr ∧ (abortTidWrite s by_ inst v).met = s.met ∧ (abortTidWrite s by_ inst v).keep = s.keep ∧ (abortTidWrite s by_ inst v).arb = s.arb := by
  and_intros <;> (unfold abortTidWrite; (try dsimp only); (repeat' split) <;> simp [*])

@[simp] theorem abortTidWrite_wf (s : State) (by_ : Option Inst) (inst : Inst) (v : W32) (h0 : Memory.wf s.mem.cells = true) :
    Memory.wf (abortTidWrite s by_ inst v).mem.cells = true := by unfold abortTidWrite; (try dsimp only); (repeat' split) <;> simp [*]

@[simp] theorem refuseLaunch_frame (s : State) (inst : Inst) (r : LaunchRec) (code : Nat) :
    (refuseLaunch s inst r code).pending = s.pending ∧ (refuseLaunch s inst r code).now = s.now ∧ (refuseLaunch s inst r code).free = s.free ∧ (refuseLaunch s inst r code).time = s.time ∧ (refuseLaunch s inst r code).img = s.img ∧ (refuseLaunch s inst r code).insts = s.insts ∧ (refuseLaunch s inst r code).fab = s.fab ∧ (refuseLaunch s inst r code).pwr = s.pwr ∧ (refuseLaunch s inst r code).met = s.met ∧ (refuseLaunch s inst r code).keep = s.keep ∧ (refuseLaunch s inst r code).arb = s.arb := by
  and_intros <;> (unfold refuseLaunch; (try dsimp only); (repeat' split) <;> simp [*])

@[simp] theorem refuseLaunch_wf (s : State) (inst : Inst) (r : LaunchRec) (code : Nat) (h0 : Memory.wf s.mem.cells = true) :
    Memory.wf (refuseLaunch s inst r code).mem.cells = true := by unfold refuseLaunch; (try dsimp only); (repeat' split) <;> simp (disch := (intros; (try dsimp only); (repeat' split) <;> (try simp [*]))) [*]

@[simp] theorem startThread_frame (s : State) (inst : Inst) (j : Nat) (r : LaunchRec) :
    (startThread s inst j r).pending = s.pending ∧ (startThread s inst j r).now = s.now ∧ (startThread s inst j r).free = s.free ∧ (startThread s inst j r).time = s.time ∧ (startThread s inst j r).op = s.op ∧ (startThread s inst j r).tile = s.tile ∧ (startThread s inst j r).mem = s.mem ∧ (startThread s inst j r).host = s.host ∧ (startThread s inst j r).reg = s.reg ∧ (startThread s inst j r).insts = s.insts ∧ (startThread s inst j r).flt = s.flt ∧ (startThread s inst j r).fab = s.fab ∧ (startThread s inst j r).pwr = s.pwr ∧ (startThread s inst j r).met = s.met ∧ (startThread s inst j r).arb = s.arb := by
  and_intros <;> (unfold startThread; (try dsimp only); (repeat' split) <;> simp [*])

@[simp] theorem stopRing_frame (s : State) (n : Inst) (j : Nat) (err : Byte) :
    (stopRing s n j err).pending = s.pending ∧ (stopRing s n j err).now = s.now ∧ (stopRing s n j err).free = s.free ∧ (stopRing s n j err).time = s.time ∧ (stopRing s n j err).op = s.op ∧ (stopRing s n j err).tile = s.tile ∧ (stopRing s n j err).img = s.img ∧ (stopRing s n j err).reg = s.reg ∧ (stopRing s n j err).insts = s.insts ∧ (stopRing s n j err).fab = s.fab ∧ (stopRing s n j err).pwr = s.pwr ∧ (stopRing s n j err).met = s.met ∧ (stopRing s n j err).keep = s.keep ∧ (stopRing s n j err).arb = s.arb := by
  and_intros <;> (simp [stopRing])

@[simp] theorem stopRing_wf (s : State) (n : Inst) (j : Nat) (err : Byte) (h0 : Memory.wf s.mem.cells = true) :
    Memory.wf (stopRing s n j err).mem.cells = true := by simp [stopRing, *]

/-! ### Arbiter -/

@[simp] theorem arbCount_frame (s : State) (k : Nat) (reserved : Bool) :
    (arbCount s k reserved).pending = s.pending ∧ (arbCount s k reserved).now = s.now ∧ (arbCount s k reserved).free = s.free ∧ (arbCount s k reserved).time = s.time ∧ (arbCount s k reserved).mbx = s.mbx ∧ (arbCount s k reserved).op = s.op ∧ (arbCount s k reserved).tile = s.tile ∧ (arbCount s k reserved).img = s.img ∧ (arbCount s k reserved).mem = s.mem ∧ (arbCount s k reserved).host = s.host ∧ (arbCount s k reserved).reg = s.reg ∧ (arbCount s k reserved).insts = s.insts ∧ (arbCount s k reserved).flt = s.flt ∧ (arbCount s k reserved).fab = s.fab ∧ (arbCount s k reserved).pwr = s.pwr ∧ (arbCount s k reserved).met = s.met ∧ (arbCount s k reserved).keep = s.keep := by
  and_intros <;> (simp [arbCount])

/-! ### Fabric -/

@[simp] theorem putTx_frame (s : State) (l : Nat) (x : TxFrame) :
    (putTx s l x).pending = s.pending ∧ (putTx s l x).now = s.now ∧ (putTx s l x).free = s.free ∧ (putTx s l x).time = s.time ∧ (putTx s l x).mbx = s.mbx ∧ (putTx s l x).op = s.op ∧ (putTx s l x).tile = s.tile ∧ (putTx s l x).img = s.img ∧ (putTx s l x).mem = s.mem ∧ (putTx s l x).host = s.host ∧ (putTx s l x).reg = s.reg ∧ (putTx s l x).insts = s.insts ∧ (putTx s l x).flt = s.flt ∧ (putTx s l x).pwr = s.pwr ∧ (putTx s l x).met = s.met ∧ (putTx s l x).keep = s.keep ∧ (putTx s l x).arb = s.arb := by
  and_intros <;> (simp [putTx])

@[simp] theorem returnCredit_frame (s : State) (l : Nat) (f : Frame) :
    (returnCredit s l f).pending = s.pending ∧ (returnCredit s l f).now = s.now ∧ (returnCredit s l f).free = s.free ∧ (returnCredit s l f).time = s.time ∧ (returnCredit s l f).mbx = s.mbx ∧ (returnCredit s l f).op = s.op ∧ (returnCredit s l f).tile = s.tile ∧ (returnCredit s l f).img = s.img ∧ (returnCredit s l f).mem = s.mem ∧ (returnCredit s l f).host = s.host ∧ (returnCredit s l f).reg = s.reg ∧ (returnCredit s l f).insts = s.insts ∧ (returnCredit s l f).flt = s.flt ∧ (returnCredit s l f).pwr = s.pwr ∧ (returnCredit s l f).met = s.met ∧ (returnCredit s l f).keep = s.keep ∧ (returnCredit s l f).arb = s.arb := by
  and_intros <;> (unfold returnCredit; (try dsimp only); (repeat' split) <;> simp [*])

@[simp] theorem transmit_frame (s : State) (l : Nat) (x : TxFrame) :
    (transmit s l x).pending = s.pending ∧ (transmit s l x).now = s.now ∧ (transmit s l x).free = s.free ∧ (transmit s l x).time = s.time ∧ (transmit s l x).mbx = s.mbx ∧ (transmit s l x).op = s.op ∧ (transmit s l x).tile = s.tile ∧ (transmit s l x).img = s.img ∧ (transmit s l x).mem = s.mem ∧ (transmit s l x).host = s.host ∧ (transmit s l x).reg = s.reg ∧ (transmit s l x).insts = s.insts ∧ (transmit s l x).flt = s.flt ∧ (transmit s l x).pwr = s.pwr ∧ (transmit s l x).met = s.met ∧ (transmit s l x).keep = s.keep ∧ (transmit s l x).arb = s.arb := by
  and_intros <;> (unfold transmit; (try dsimp only); (repeat' split) <;> simp [*])

@[simp] theorem countEgress_frame (s : State) (l : Nat) (c : BitVec 2) :
    (countEgress s l c).pending = s.pending ∧ (countEgress s l c).now = s.now ∧ (countEgress s l c).free = s.free ∧ (countEgress s l c).time = s.time ∧ (countEgress s l c).mbx = s.mbx ∧ (countEgress s l c).op = s.op ∧ (countEgress s l c).tile = s.tile ∧ (countEgress s l c).img = s.img ∧ (countEgress s l c).mem = s.mem ∧ (countEgress s l c).host = s.host ∧ (countEgress s l c).reg = s.reg ∧ (countEgress s l c).insts = s.insts ∧ (countEgress s l c).flt = s.flt ∧ (countEgress s l c).fab = s.fab ∧ (countEgress s l c).pwr = s.pwr ∧ (countEgress s l c).met = s.met ∧ (countEgress s l c).keep = s.keep := by
  and_intros <;> (unfold countEgress; (try dsimp only); (repeat' split) <;> simp [*])

@[simp] theorem offer_frame (s : State) (x : TxFrame) :
    (offer s x).pending = s.pending ∧ (offer s x).now = s.now ∧ (offer s x).free = s.free ∧ (offer s x).time = s.time ∧ (offer s x).mbx = s.mbx ∧ (offer s x).op = s.op ∧ (offer s x).tile = s.tile ∧ (offer s x).img = s.img ∧ (offer s x).mem = s.mem ∧ (offer s x).host = s.host ∧ (offer s x).reg = s.reg ∧ (offer s x).insts = s.insts ∧ (offer s x).flt = s.flt ∧ (offer s x).pwr = s.pwr ∧ (offer s x).met = s.met ∧ (offer s x).keep = s.keep := by
  and_intros <;> (unfold offer; (try dsimp only); (repeat' split) <;> simp [*])

@[simp] theorem sendFrame_frame (s : State) (f : Frame) (num : Nat) :
    (sendFrame s f num).pending = s.pending ∧ (sendFrame s f num).now = s.now ∧ (sendFrame s f num).free = s.free ∧ (sendFrame s f num).time = s.time ∧ (sendFrame s f num).mbx = s.mbx ∧ (sendFrame s f num).op = s.op ∧ (sendFrame s f num).tile = s.tile ∧ (sendFrame s f num).img = s.img ∧ (sendFrame s f num).mem = s.mem ∧ (sendFrame s f num).host = s.host ∧ (sendFrame s f num).reg = s.reg ∧ (sendFrame s f num).insts = s.insts ∧ (sendFrame s f num).flt = s.flt ∧ (sendFrame s f num).pwr = s.pwr ∧ (sendFrame s f num).met = s.met ∧ (sendFrame s f num).keep = s.keep := by
  and_intros <;> (simp [sendFrame])

@[simp] theorem unqueue_frame (s : State) (x : TxFrame) :
    (unqueue s x).pending = s.pending ∧ (unqueue s x).now = s.now ∧ (unqueue s x).free = s.free ∧ (unqueue s x).time = s.time ∧ (unqueue s x).mbx = s.mbx ∧ (unqueue s x).op = s.op ∧ (unqueue s x).tile = s.tile ∧ (unqueue s x).img = s.img ∧ (unqueue s x).mem = s.mem ∧ (unqueue s x).host = s.host ∧ (unqueue s x).reg = s.reg ∧ (unqueue s x).insts = s.insts ∧ (unqueue s x).flt = s.flt ∧ (unqueue s x).pwr = s.pwr ∧ (unqueue s x).met = s.met ∧ (unqueue s x).keep = s.keep ∧ (unqueue s x).arb = s.arb := by
  and_intros <;> (simp [unqueue])

@[simp] theorem grantEgress_frame (s : State) (l : Nat) :
    (grantEgress s l).pending = s.pending ∧ (grantEgress s l).now = s.now ∧ (grantEgress s l).free = s.free ∧ (grantEgress s l).time = s.time ∧ (grantEgress s l).mbx = s.mbx ∧ (grantEgress s l).op = s.op ∧ (grantEgress s l).tile = s.tile ∧ (grantEgress s l).img = s.img ∧ (grantEgress s l).mem = s.mem ∧ (grantEgress s l).host = s.host ∧ (grantEgress s l).reg = s.reg ∧ (grantEgress s l).insts = s.insts ∧ (grantEgress s l).flt = s.flt ∧ (grantEgress s l).pwr = s.pwr ∧ (grantEgress s l).met = s.met ∧ (grantEgress s l).keep = s.keep := by
  and_intros <;> (unfold grantEgress; (try dsimp only); (repeat' split) <;> simp [*])

@[simp] theorem retryWaiting_frame (s : State) :
    (retryWaiting s).pending = s.pending ∧ (retryWaiting s).now = s.now ∧ (retryWaiting s).free = s.free ∧ (retryWaiting s).time = s.time ∧ (retryWaiting s).mbx = s.mbx ∧ (retryWaiting s).op = s.op ∧ (retryWaiting s).tile = s.tile ∧ (retryWaiting s).img = s.img ∧ (retryWaiting s).mem = s.mem ∧ (retryWaiting s).host = s.host ∧ (retryWaiting s).reg = s.reg ∧ (retryWaiting s).insts = s.insts ∧ (retryWaiting s).flt = s.flt ∧ (retryWaiting s).pwr = s.pwr ∧ (retryWaiting s).met = s.met ∧ (retryWaiting s).keep = s.keep := by
  and_intros <;> (simp [retryWaiting])

@[simp] theorem sendPlain_frame (s : State) (cls : BitVec 2) (typ : Byte) (dst slice addr : Nat) (payload : List Byte) :
    (sendPlain s cls typ dst slice addr payload).pending = s.pending ∧ (sendPlain s cls typ dst slice addr payload).now = s.now ∧ (sendPlain s cls typ dst slice addr payload).free = s.free ∧ (sendPlain s cls typ dst slice addr payload).time = s.time ∧ (sendPlain s cls typ dst slice addr payload).mbx = s.mbx ∧ (sendPlain s cls typ dst slice addr payload).op = s.op ∧ (sendPlain s cls typ dst slice addr payload).tile = s.tile ∧ (sendPlain s cls typ dst slice addr payload).img = s.img ∧ (sendPlain s cls typ dst slice addr payload).mem = s.mem ∧ (sendPlain s cls typ dst slice addr payload).host = s.host ∧ (sendPlain s cls typ dst slice addr payload).reg = s.reg ∧ (sendPlain s cls typ dst slice addr payload).insts = s.insts ∧ (sendPlain s cls typ dst slice addr payload).flt = s.flt ∧ (sendPlain s cls typ dst slice addr payload).pwr = s.pwr ∧ (sendPlain s cls typ dst slice addr payload).met = s.met ∧ (sendPlain s cls typ dst slice addr payload).keep = s.keep := by
  and_intros <;> (simp [sendPlain])

@[simp] theorem notePath_frame (s : State) (dst : Nat) :
    (notePath s dst).pending = s.pending ∧ (notePath s dst).now = s.now ∧ (notePath s dst).free = s.free ∧ (notePath s dst).time = s.time ∧ (notePath s dst).mbx = s.mbx ∧ (notePath s dst).op = s.op ∧ (notePath s dst).tile = s.tile ∧ (notePath s dst).img = s.img ∧ (notePath s dst).mem = s.mem ∧ (notePath s dst).host = s.host ∧ (notePath s dst).reg = s.reg ∧ (notePath s dst).insts = s.insts ∧ (notePath s dst).flt = s.flt ∧ (notePath s dst).pwr = s.pwr ∧ (notePath s dst).met = s.met ∧ (notePath s dst).keep = s.keep ∧ (notePath s dst).arb = s.arb := by
  and_intros <;> (unfold notePath; (try dsimp only); (repeat' split) <;> simp [*])

@[simp] theorem sendReliable_frame (s : State) (op : Option Nat) (inst : Inst) (cls : BitVec 2) (typ : Byte) (dst addr : Nat) (payload : List Byte) :
    (sendReliable s op inst cls typ dst addr payload).pending = s.pending ∧ (sendReliable s op inst cls typ dst addr payload).now = s.now ∧ (sendReliable s op inst cls typ dst addr payload).free = s.free ∧ (sendReliable s op inst cls typ dst addr payload).time = s.time ∧ (sendReliable s op inst cls typ dst addr payload).mbx = s.mbx ∧ (sendReliable s op inst cls typ dst addr payload).op = s.op ∧ (sendReliable s op inst cls typ dst addr payload).tile = s.tile ∧ (sendReliable s op inst cls typ dst addr payload).img = s.img ∧ (sendReliable s op inst cls typ dst addr payload).mem = s.mem ∧ (sendReliable s op inst cls typ dst addr payload).host = s.host ∧ (sendReliable s op inst cls typ dst addr payload).reg = s.reg ∧ (sendReliable s op inst cls typ dst addr payload).insts = s.insts ∧ (sendReliable s op inst cls typ dst addr payload).flt = s.flt ∧ (sendReliable s op inst cls typ dst addr payload).pwr = s.pwr ∧ (sendReliable s op inst cls typ dst addr payload).met = s.met ∧ (sendReliable s op inst cls typ dst addr payload).keep = s.keep := by
  and_intros <;> (unfold sendReliable; (try dsimp only); (repeat' split) <;> simp [*])

@[simp] theorem sendHeld_frame (s : State) :
    (sendHeld s).pending = s.pending ∧ (sendHeld s).now = s.now ∧ (sendHeld s).free = s.free ∧ (sendHeld s).time = s.time ∧ (sendHeld s).mbx = s.mbx ∧ (sendHeld s).op = s.op ∧ (sendHeld s).tile = s.tile ∧ (sendHeld s).img = s.img ∧ (sendHeld s).mem = s.mem ∧ (sendHeld s).host = s.host ∧ (sendHeld s).reg = s.reg ∧ (sendHeld s).insts = s.insts ∧ (sendHeld s).flt = s.flt ∧ (sendHeld s).pwr = s.pwr ∧ (sendHeld s).met = s.met ∧ (sendHeld s).keep = s.keep := by
  and_intros <;> (simp [sendHeld])

@[simp] theorem sendWrites_frame (op : Option Nat) (inst : Inst) (dst : Nat) (n3 : Nat) (n4 : Nat) (x5 : List Byte) (s : State) :
    (sendWrites op inst dst n3 n4 x5 s).pending = s.pending ∧ (sendWrites op inst dst n3 n4 x5 s).now = s.now ∧ (sendWrites op inst dst n3 n4 x5 s).free = s.free ∧ (sendWrites op inst dst n3 n4 x5 s).time = s.time ∧ (sendWrites op inst dst n3 n4 x5 s).mbx = s.mbx ∧ (sendWrites op inst dst n3 n4 x5 s).op = s.op ∧ (sendWrites op inst dst n3 n4 x5 s).tile = s.tile ∧ (sendWrites op inst dst n3 n4 x5 s).img = s.img ∧ (sendWrites op inst dst n3 n4 x5 s).mem = s.mem ∧ (sendWrites op inst dst n3 n4 x5 s).host = s.host ∧ (sendWrites op inst dst n3 n4 x5 s).reg = s.reg ∧ (sendWrites op inst dst n3 n4 x5 s).insts = s.insts ∧ (sendWrites op inst dst n3 n4 x5 s).flt = s.flt ∧ (sendWrites op inst dst n3 n4 x5 s).pwr = s.pwr ∧ (sendWrites op inst dst n3 n4 x5 s).met = s.met ∧ (sendWrites op inst dst n3 n4 x5 s).keep = s.keep := by
  and_intros <;> (fun_induction sendWrites <;> simp_all)

@[simp] theorem emitFabricOp_frame (s : State) (e dst : Nat) (r : Byte) :
    (emitFabricOp s e dst r).pending = s.pending ∧ (emitFabricOp s e dst r).now = s.now ∧ (emitFabricOp s e dst r).free = s.free ∧ (emitFabricOp s e dst r).time = s.time ∧ (emitFabricOp s e dst r).mbx = s.mbx ∧ (emitFabricOp s e dst r).op = s.op ∧ (emitFabricOp s e dst r).tile = s.tile ∧ (emitFabricOp s e dst r).img = s.img ∧ (emitFabricOp s e dst r).reg = s.reg ∧ (emitFabricOp s e dst r).insts = s.insts ∧ (emitFabricOp s e dst r).fab = s.fab ∧ (emitFabricOp s e dst r).pwr = s.pwr ∧ (emitFabricOp s e dst r).met = s.met ∧ (emitFabricOp s e dst r).keep = s.keep ∧ (emitFabricOp s e dst r).arb = s.arb := by
  and_intros <;> (simp [emitFabricOp])

@[simp] theorem emitFabricOp_wf (s : State) (e dst : Nat) (r : Byte) (h0 : Memory.wf s.mem.cells = true) :
    Memory.wf (emitFabricOp s e dst r).mem.cells = true := by simp [emitFabricOp, *]

@[simp] theorem failPeer_frame (s : State) (e dst : Nat) (r : Byte) :
    (failPeer s e dst r).pending = s.pending ∧ (failPeer s e dst r).now = s.now ∧ (failPeer s e dst r).free = s.free ∧ (failPeer s e dst r).time = s.time ∧ (failPeer s e dst r).mbx = s.mbx ∧ (failPeer s e dst r).tile = s.tile ∧ (failPeer s e dst r).img = s.img ∧ (failPeer s e dst r).reg = s.reg ∧ (failPeer s e dst r).insts = s.insts ∧ (failPeer s e dst r).pwr = s.pwr ∧ (failPeer s e dst r).met = s.met ∧ (failPeer s e dst r).keep = s.keep ∧ (failPeer s e dst r).arb = s.arb := by
  and_intros <;> (unfold failPeer; (try dsimp only); (repeat' split) <;> simp [*])

@[simp] theorem failPeer_wf (s : State) (e dst : Nat) (r : Byte) (h0 : Memory.wf s.mem.cells = true) :
    Memory.wf (failPeer s e dst r).mem.cells = true := by unfold failPeer; (try dsimp only); (repeat' split) <;> simp [*]

/-! ### BelfryTime -/

@[simp] theorem setBelfry_frame (s : State) (b : Belfry) :
    (setBelfry s b).pending = s.pending ∧ (setBelfry s b).now = s.now ∧ (setBelfry s b).free = s.free ∧ (setBelfry s b).mbx = s.mbx ∧ (setBelfry s b).op = s.op ∧ (setBelfry s b).tile = s.tile ∧ (setBelfry s b).img = s.img ∧ (setBelfry s b).mem = s.mem ∧ (setBelfry s b).host = s.host ∧ (setBelfry s b).reg = s.reg ∧ (setBelfry s b).insts = s.insts ∧ (setBelfry s b).flt = s.flt ∧ (setBelfry s b).fab = s.fab ∧ (setBelfry s b).pwr = s.pwr ∧ (setBelfry s b).met = s.met ∧ (setBelfry s b).keep = s.keep ∧ (setBelfry s b).arb = s.arb := by
  and_intros <;> (simp [setBelfry])

@[simp] theorem stepTo_frame (s : State) (ns : W64) :
    (stepTo s ns).pending = s.pending ∧ (stepTo s ns).now = s.now ∧ (stepTo s ns).free = s.free ∧ (stepTo s ns).mbx = s.mbx ∧ (stepTo s ns).op = s.op ∧ (stepTo s ns).tile = s.tile ∧ (stepTo s ns).img = s.img ∧ (stepTo s ns).mem = s.mem ∧ (stepTo s ns).host = s.host ∧ (stepTo s ns).reg = s.reg ∧ (stepTo s ns).insts = s.insts ∧ (stepTo s ns).flt = s.flt ∧ (stepTo s ns).fab = s.fab ∧ (stepTo s ns).pwr = s.pwr ∧ (stepTo s ns).met = s.met ∧ (stepTo s ns).keep = s.keep ∧ (stepTo s ns).arb = s.arb := by
  and_intros <;> (simp [stepTo])

@[simp] theorem selectRef_frame (s : State) (r : RefSource) :
    (selectRef s r).pending = s.pending ∧ (selectRef s r).now = s.now ∧ (selectRef s r).free = s.free ∧ (selectRef s r).mbx = s.mbx ∧ (selectRef s r).op = s.op ∧ (selectRef s r).tile = s.tile ∧ (selectRef s r).img = s.img ∧ (selectRef s r).mem = s.mem ∧ (selectRef s r).host = s.host ∧ (selectRef s r).reg = s.reg ∧ (selectRef s r).insts = s.insts ∧ (selectRef s r).flt = s.flt ∧ (selectRef s r).fab = s.fab ∧ (selectRef s r).pwr = s.pwr ∧ (selectRef s r).met = s.met ∧ (selectRef s r).keep = s.keep ∧ (selectRef s r).arb = s.arb := by
  and_intros <;> (simp [selectRef])

@[simp] theorem leaveRef_frame (s : State) :
    (leaveRef s).pending = s.pending ∧ (leaveRef s).now = s.now ∧ (leaveRef s).free = s.free ∧ (leaveRef s).mbx = s.mbx ∧ (leaveRef s).op = s.op ∧ (leaveRef s).tile = s.tile ∧ (leaveRef s).img = s.img ∧ (leaveRef s).mem = s.mem ∧ (leaveRef s).host = s.host ∧ (leaveRef s).reg = s.reg ∧ (leaveRef s).insts = s.insts ∧ (leaveRef s).flt = s.flt ∧ (leaveRef s).fab = s.fab ∧ (leaveRef s).pwr = s.pwr ∧ (leaveRef s).met = s.met ∧ (leaveRef s).keep = s.keep ∧ (leaveRef s).arb = s.arb := by
  and_intros <;> (unfold leaveRef; (try dsimp only); (repeat' split) <;> simp [*])

@[simp] theorem trySelect_frame (s : State) :
    (trySelect s).pending = s.pending ∧ (trySelect s).now = s.now ∧ (trySelect s).free = s.free ∧ (trySelect s).mbx = s.mbx ∧ (trySelect s).op = s.op ∧ (trySelect s).tile = s.tile ∧ (trySelect s).img = s.img ∧ (trySelect s).mem = s.mem ∧ (trySelect s).host = s.host ∧ (trySelect s).reg = s.reg ∧ (trySelect s).insts = s.insts ∧ (trySelect s).flt = s.flt ∧ (trySelect s).fab = s.fab ∧ (trySelect s).pwr = s.pwr ∧ (trySelect s).met = s.met ∧ (trySelect s).keep = s.keep ∧ (trySelect s).arb = s.arb := by
  and_intros <;> (unfold trySelect; (try dsimp only); (repeat' split) <;> simp [*])

@[simp] theorem measure_frame (s : State) (loc ref : Int) :
    (measure s loc ref).pending = s.pending ∧ (measure s loc ref).now = s.now ∧ (measure s loc ref).mbx = s.mbx ∧ (measure s loc ref).op = s.op ∧ (measure s loc ref).tile = s.tile ∧ (measure s loc ref).img = s.img ∧ (measure s loc ref).mem = s.mem ∧ (measure s loc ref).host = s.host ∧ (measure s loc ref).reg = s.reg ∧ (measure s loc ref).insts = s.insts ∧ (measure s loc ref).flt = s.flt ∧ (measure s loc ref).fab = s.fab ∧ (measure s loc ref).pwr = s.pwr ∧ (measure s loc ref).met = s.met ∧ (measure s loc ref).keep = s.keep ∧ (measure s loc ref).arb = s.arb := by
  and_intros <;> (unfold measure; (try dsimp only); (repeat' split) <;> simp [*])

@[simp] theorem ppsStep_frame (s : State) (v : W64) :
    (ppsStep s v).pending = s.pending ∧ (ppsStep s v).now = s.now ∧ (ppsStep s v).free = s.free ∧ (ppsStep s v).mbx = s.mbx ∧ (ppsStep s v).op = s.op ∧ (ppsStep s v).tile = s.tile ∧ (ppsStep s v).img = s.img ∧ (ppsStep s v).mem = s.mem ∧ (ppsStep s v).host = s.host ∧ (ppsStep s v).reg = s.reg ∧ (ppsStep s v).insts = s.insts ∧ (ppsStep s v).flt = s.flt ∧ (ppsStep s v).fab = s.fab ∧ (ppsStep s v).pwr = s.pwr ∧ (ppsStep s v).met = s.met ∧ (ppsStep s v).keep = s.keep ∧ (ppsStep s v).arb = s.arb := by
  and_intros <;> (unfold ppsStep; (try dsimp only); (repeat' split) <;> simp [*])

@[simp] theorem loseRef_frame (s : State) (r : RefSource) :
    (loseRef s r).pending = s.pending ∧ (loseRef s r).now = s.now ∧ (loseRef s r).free = s.free ∧ (loseRef s r).mbx = s.mbx ∧ (loseRef s r).op = s.op ∧ (loseRef s r).tile = s.tile ∧ (loseRef s r).img = s.img ∧ (loseRef s r).mem = s.mem ∧ (loseRef s r).host = s.host ∧ (loseRef s r).reg = s.reg ∧ (loseRef s r).insts = s.insts ∧ (loseRef s r).flt = s.flt ∧ (loseRef s r).fab = s.fab ∧ (loseRef s r).pwr = s.pwr ∧ (loseRef s r).met = s.met ∧ (loseRef s r).keep = s.keep ∧ (loseRef s r).arb = s.arb := by
  and_intros <;> (unfold loseRef; (try dsimp only); (repeat' split) <;> simp [*])

@[simp] theorem ppsLate_frame (s : State) :
    (ppsLate s).pending = s.pending ∧ (ppsLate s).now = s.now ∧ (ppsLate s).free = s.free ∧ (ppsLate s).mbx = s.mbx ∧ (ppsLate s).op = s.op ∧ (ppsLate s).tile = s.tile ∧ (ppsLate s).img = s.img ∧ (ppsLate s).mem = s.mem ∧ (ppsLate s).host = s.host ∧ (ppsLate s).reg = s.reg ∧ (ppsLate s).insts = s.insts ∧ (ppsLate s).flt = s.flt ∧ (ppsLate s).fab = s.fab ∧ (ppsLate s).pwr = s.pwr ∧ (ppsLate s).met = s.met ∧ (ppsLate s).keep = s.keep ∧ (ppsLate s).arb = s.arb := by
  and_intros <;> (unfold ppsLate; (try dsimp only); (repeat' split) <;> simp [*])

@[simp] theorem setTimeWrite_frame (s : State) (v : W64) :
    (setTimeWrite s v).pending = s.pending ∧ (setTimeWrite s v).now = s.now ∧ (setTimeWrite s v).free = s.free ∧ (setTimeWrite s v).mbx = s.mbx ∧ (setTimeWrite s v).op = s.op ∧ (setTimeWrite s v).tile = s.tile ∧ (setTimeWrite s v).img = s.img ∧ (setTimeWrite s v).mem = s.mem ∧ (setTimeWrite s v).host = s.host ∧ (setTimeWrite s v).reg = s.reg ∧ (setTimeWrite s v).insts = s.insts ∧ (setTimeWrite s v).flt = s.flt ∧ (setTimeWrite s v).fab = s.fab ∧ (setTimeWrite s v).pwr = s.pwr ∧ (setTimeWrite s v).met = s.met ∧ (setTimeWrite s v).keep = s.keep ∧ (setTimeWrite s v).arb = s.arb := by
  and_intros <;> (unfold setTimeWrite; (try dsimp only); (repeat' split) <;> simp [*])

@[simp] theorem sendOnLink_frame (s : State) (l : Nat) (typ : Byte) (payload : List Byte) :
    (sendOnLink s l typ payload).pending = s.pending ∧ (sendOnLink s l typ payload).now = s.now ∧ (sendOnLink s l typ payload).free = s.free ∧ (sendOnLink s l typ payload).time = s.time ∧ (sendOnLink s l typ payload).mbx = s.mbx ∧ (sendOnLink s l typ payload).op = s.op ∧ (sendOnLink s l typ payload).tile = s.tile ∧ (sendOnLink s l typ payload).img = s.img ∧ (sendOnLink s l typ payload).mem = s.mem ∧ (sendOnLink s l typ payload).host = s.host ∧ (sendOnLink s l typ payload).reg = s.reg ∧ (sendOnLink s l typ payload).insts = s.insts ∧ (sendOnLink s l typ payload).flt = s.flt ∧ (sendOnLink s l typ payload).pwr = s.pwr ∧ (sendOnLink s l typ payload).met = s.met ∧ (sendOnLink s l typ payload).keep = s.keep := by
  and_intros <;> (simp [sendOnLink])

@[simp] theorem applyRoutes_frame (s : State) (at_ : Nat) :
    (applyRoutes s at_).pending = s.pending ∧ (applyRoutes s at_).now = s.now ∧ (applyRoutes s at_).free = s.free ∧ (applyRoutes s at_).time = s.time ∧ (applyRoutes s at_).mbx = s.mbx ∧ (applyRoutes s at_).op = s.op ∧ (applyRoutes s at_).tile = s.tile ∧ (applyRoutes s at_).img = s.img ∧ (applyRoutes s at_).mem = s.mem ∧ (applyRoutes s at_).host = s.host ∧ (applyRoutes s at_).insts = s.insts ∧ (applyRoutes s at_).flt = s.flt ∧ (applyRoutes s at_).fab = s.fab ∧ (applyRoutes s at_).pwr = s.pwr ∧ (applyRoutes s at_).met = s.met ∧ (applyRoutes s at_).keep = s.keep ∧ (applyRoutes s at_).arb = s.arb := by
  and_intros <;> (simp [applyRoutes])

@[simp] theorem noteLimits_frame (s : State) (k : Nat) :
    (noteLimits s k).pending = s.pending ∧ (noteLimits s k).now = s.now ∧ (noteLimits s k).free = s.free ∧ (noteLimits s k).time = s.time ∧ (noteLimits s k).mbx = s.mbx ∧ (noteLimits s k).op = s.op ∧ (noteLimits s k).tile = s.tile ∧ (noteLimits s k).img = s.img ∧ (noteLimits s k).mem = s.mem ∧ (noteLimits s k).host = s.host ∧ (noteLimits s k).insts = s.insts ∧ (noteLimits s k).flt = s.flt ∧ (noteLimits s k).fab = s.fab ∧ (noteLimits s k).pwr = s.pwr ∧ (noteLimits s k).met = s.met ∧ (noteLimits s k).keep = s.keep ∧ (noteLimits s k).arb = s.arb := by
  and_intros <;> (unfold noteLimits; (try dsimp only); (repeat' split) <;> simp [*])

@[simp] theorem applyEpochReg_frame (s : State) (k : Nat) :
    (applyEpochReg s k).pending = s.pending ∧ (applyEpochReg s k).now = s.now ∧ (applyEpochReg s k).free = s.free ∧ (applyEpochReg s k).time = s.time ∧ (applyEpochReg s k).mbx = s.mbx ∧ (applyEpochReg s k).op = s.op ∧ (applyEpochReg s k).tile = s.tile ∧ (applyEpochReg s k).img = s.img ∧ (applyEpochReg s k).mem = s.mem ∧ (applyEpochReg s k).host = s.host ∧ (applyEpochReg s k).insts = s.insts ∧ (applyEpochReg s k).flt = s.flt ∧ (applyEpochReg s k).fab = s.fab ∧ (applyEpochReg s k).pwr = s.pwr ∧ (applyEpochReg s k).met = s.met ∧ (applyEpochReg s k).keep = s.keep ∧ (applyEpochReg s k).arb = s.arb := by
  and_intros <;> (unfold applyEpochReg; (try dsimp only); (repeat' split) <;> simp [*])

@[simp] theorem stopCad_frame (s : State) (c : Nat) :
    (stopCad s c).pending = s.pending ∧ (stopCad s c).now = s.now ∧ (stopCad s c).free = s.free ∧ (stopCad s c).op = s.op ∧ (stopCad s c).tile = s.tile ∧ (stopCad s c).img = s.img ∧ (stopCad s c).mem = s.mem ∧ (stopCad s c).host = s.host ∧ (stopCad s c).reg = s.reg ∧ (stopCad s c).insts = s.insts ∧ (stopCad s c).flt = s.flt ∧ (stopCad s c).fab = s.fab ∧ (stopCad s c).pwr = s.pwr ∧ (stopCad s c).met = s.met ∧ (stopCad s c).keep = s.keep ∧ (stopCad s c).arb = s.arb := by
  and_intros <;> (simp [stopCad])

@[simp] theorem cadEpoch_frame (e : Nat) (s : State) (c : Nat) :
    (cadEpoch e s c).pending = s.pending ∧ (cadEpoch e s c).now = s.now ∧ (cadEpoch e s c).free = s.free ∧ (cadEpoch e s c).op = s.op ∧ (cadEpoch e s c).tile = s.tile ∧ (cadEpoch e s c).img = s.img ∧ (cadEpoch e s c).mem = s.mem ∧ (cadEpoch e s c).host = s.host ∧ (cadEpoch e s c).reg = s.reg ∧ (cadEpoch e s c).insts = s.insts ∧ (cadEpoch e s c).flt = s.flt ∧ (cadEpoch e s c).fab = s.fab ∧ (cadEpoch e s c).pwr = s.pwr ∧ (cadEpoch e s c).met = s.met ∧ (cadEpoch e s c).keep = s.keep ∧ (cadEpoch e s c).arb = s.arb := by
  and_intros <;> (unfold cadEpoch; (try dsimp only); (repeat' split) <;> simp [*])

@[simp] theorem stepFallback_frame (s : State) :
    (stepFallback s).pending = s.pending ∧ (stepFallback s).now = s.now ∧ (stepFallback s).free = s.free ∧ (stepFallback s).time = s.time ∧ (stepFallback s).mbx = s.mbx ∧ (stepFallback s).op = s.op ∧ (stepFallback s).img = s.img ∧ (stepFallback s).mem = s.mem ∧ (stepFallback s).host = s.host ∧ (stepFallback s).insts = s.insts ∧ (stepFallback s).flt = s.flt ∧ (stepFallback s).fab = s.fab ∧ (stepFallback s).pwr = s.pwr ∧ (stepFallback s).met = s.met ∧ (stepFallback s).keep = s.keep ∧ (stepFallback s).arb = s.arb := by
  and_intros <;> (unfold stepFallback; (try dsimp only); (repeat' split) <;> simp (disch := (intros; (try dsimp only); (repeat' split) <;> (try simp [*]))) [*])

@[simp] theorem tickCad_frame (s : State) (c : Nat) :
    (tickCad s c).pending = s.pending ∧ (tickCad s c).now = s.now ∧ (tickCad s c).free = s.free ∧ (tickCad s c).op = s.op ∧ (tickCad s c).tile = s.tile ∧ (tickCad s c).img = s.img ∧ (tickCad s c).reg = s.reg ∧ (tickCad s c).insts = s.insts ∧ (tickCad s c).fab = s.fab ∧ (tickCad s c).pwr = s.pwr ∧ (tickCad s c).met = s.met ∧ (tickCad s c).keep = s.keep ∧ (tickCad s c).arb = s.arb := by
  and_intros <;> (simp [tickCad])

@[simp] theorem tickCad_wf (s : State) (c : Nat) (h0 : Memory.wf s.mem.cells = true) :
    Memory.wf (tickCad s c).mem.cells = true := by unfold tickCad; (try dsimp only); (repeat' split) <;> simp (disch := (intros; (try dsimp only); (repeat' split) <;> (try simp [*]))) [*]

/-! ### Ops -/

@[simp] theorem drainAll_frame (s : State) :
    (drainAll s).pending = s.pending ∧ (drainAll s).now = s.now ∧ (drainAll s).free = s.free ∧ (drainAll s).time = s.time ∧ (drainAll s).op = s.op ∧ (drainAll s).tile = s.tile ∧ (drainAll s).img = s.img ∧ (drainAll s).reg = s.reg ∧ (drainAll s).insts = s.insts ∧ (drainAll s).flt = s.flt ∧ (drainAll s).fab = s.fab ∧ (drainAll s).pwr = s.pwr ∧ (drainAll s).met = s.met ∧ (drainAll s).keep = s.keep ∧ (drainAll s).arb = s.arb := by
  and_intros <;> (simp [drainAll])

@[simp] theorem drainAll_wf (s : State) (h0 : Memory.wf s.mem.cells = true) :
    Memory.wf (drainAll s).mem.cells = true := by unfold drainAll; (try dsimp only); (repeat' split) <;> simp (disch := (intros; (try dsimp only); (repeat' split) <;> (try simp [*]))) [*]

@[simp] theorem idle_frame (s : State) :
    (idle s).pending = s.pending ∧ (idle s).free = s.free ∧ (idle s).op = s.op ∧ (idle s).tile = s.tile ∧ (idle s).img = s.img ∧ (idle s).reg = s.reg ∧ (idle s).insts = s.insts ∧ (idle s).flt = s.flt ∧ (idle s).fab = s.fab ∧ (idle s).pwr = s.pwr ∧ (idle s).met = s.met ∧ (idle s).keep = s.keep ∧ (idle s).arb = s.arb := by
  and_intros <;> (simp [idle])

@[simp] theorem idle_wf (s : State) (h0 : Memory.wf s.mem.cells = true) :
    Memory.wf (idle s).mem.cells = true := by simp [idle, *]



end Sys2Proof.Machine
end

