-- ==== Sys2Proof/Laws/Canonical.lean ====
section
/-! SUPPORT. For every further operation, up to the launch table: that it leaves memory alone, or that it keeps it canonical. -/

namespace Sys2Proof.Machine

open Sys2Proof

/-! ### Lantern -/

@[simp] theorem emitLantern_wf (s : State) (p v kind n : Nat) (h0 : Memory.wf s.mem.cells = true) :
    Memory.wf (emitLantern s p v kind n).mem.cells = true := by simp [emitLantern, *]

@[simp] theorem emitBreach_wf (s : State) (p n : Nat) (h0 : Memory.wf s.mem.cells = true) :
    Memory.wf (emitBreach s p n).mem.cells = true := by unfold emitBreach; (try dsimp only); (repeat' split) <;> simp [*]

@[simp] theorem ltnTileDone_mem (s : State) (e : Nat) (w : LtnWork) (t : Nat) :
    (ltnTileDone s e w t).mem = s.mem := by unfold ltnTileDone; (try dsimp only); (repeat' split) <;> simp [*]

@[simp] theorem raiseLoads_mem (s : State) (p n : Nat) :
    (raiseLoads s p n).mem = s.mem := by simp [raiseLoads]

@[simp] theorem portGrant_mem (s : State) (p : Nat) :
    (portGrant s p).mem = s.mem := by unfold portGrant; (try dsimp only); (repeat' split) <;> simp [*]

@[simp] theorem portGrants_mem (p : Nat) (n1 : Nat) (s : State) :
    (portGrants p n1 s).mem = s.mem := by fun_induction portGrants <;> simp_all

@[simp] theorem servePort_mem (s : State) (p : Nat) :
    (servePort s p).mem = s.mem := by unfold servePort; (try dsimp only); (repeat' split) <;> simp [*]

@[simp] theorem portWrite_mem (s : State) (p : Nat) (u : PortUser) (n : Nat) :
    (portWrite s p u n).mem = s.mem := by unfold portWrite; (try dsimp only); (repeat' split) <;> simp [*]

/-! ### ArrayOps -/

@[simp] theorem setArrOf_mem (s : State) (p a : Nat) (v : Arr) :
    (setArrOf s p a v).mem = s.mem := by simp [setArrOf]

@[simp] theorem moveArr_wf (s : State) (p a : Nat) (st : ArrState) (why : Nat) (action : Byte) (h0 : Memory.wf s.mem.cells = true) :
    Memory.wf (moveArr s p a st why action).mem.cells = true := by unfold moveArr; (try dsimp only); (repeat' split) <;> simp [*]

@[simp] theorem addJob_mem (s : State) (p : Nat) (j : Job) :
    (addJob s p j).mem = s.mem := by simp [addJob]

@[simp] theorem spareOut_mem (s : State) (p l : Nat) :
    (spareOut s p l).mem = s.mem := by unfold spareOut; (try dsimp only); (repeat' split) <;> simp [*]

@[simp] theorem fenceArr_wf (s : State) (p a why : Nat) (h0 : Memory.wf s.mem.cells = true) :
    Memory.wf (fenceArr s p a why).mem.cells = true := by unfold fenceArr; (try dsimp only); (repeat' split) <;> simp [*]

@[simp] theorem notePass_mem (s : State) (p a : Nat) :
    (notePass s p a).mem = s.mem := by simp [notePass]

@[simp] theorem countFail_wf (s : State) (p a why : Nat) (h0 : Memory.wf s.mem.cells = true) :
    Memory.wf (countFail s p a why).1.mem.cells = true := by unfold countFail; (try dsimp only); (repeat' split) <;> simp [*]

@[simp] theorem collectSlots_wf (s : State) (h0 : Memory.wf s.mem.cells = true) :
    Memory.wf (collectSlots s).mem.cells = true := by unfold collectSlots; (try dsimp only); (repeat' split) <;> simp (disch := (intros; (try dsimp only); (repeat' split) <;> (try simp [*]))) [*]

@[simp] theorem endLoad_wf (s : State) (reason : Nat) (h0 : Memory.wf s.mem.cells = true) :
    Memory.wf (endLoad s reason).mem.cells = true := by unfold endLoad; (try dsimp only); (repeat' split) <;> simp [*]

@[simp] theorem adoptSlot_mem (slot : Nat) (s : State) (n : Nat) :
    (adoptSlot slot s n).mem = s.mem := by simp [adoptSlot]

@[simp] theorem loadCheck_wf (s : State) (h0 : Memory.wf s.mem.cells = true) :
    Memory.wf (loadCheck s).mem.cells = true := by unfold loadCheck; (try dsimp only); (repeat' split) <;> simp (disch := (intros; (try dsimp only); (repeat' split) <;> (try simp [*]))) [*]

@[simp] theorem noteProgress_mem (s : State) :
    (noteProgress s).mem = s.mem := by simp [noteProgress]

@[simp] theorem writeRecord_mem (s : State) (p n l : Nat) (slot : Option Nat) :
    (writeRecord s p n l slot).mem = s.mem := by unfold writeRecord; (try dsimp only); (repeat' split) <;> simp [*]

@[simp] theorem swing_wf (n p : Nat) (s : State) (r : Rewrite) (h0 : Memory.wf s.mem.cells = true) :
    Memory.wf (swing n p s r).mem.cells = true := by
  have key : ∀ u : State, Memory.wf u.mem.cells = true →
      Memory.wf (loadCheck (if r.kind = .rolling then noteProgress u else u)).mem.cells = true := by
    intro u hu; split <;> simp [hu]
  have mv : ∀ (c : Bool) (u : State) (x : ArrState) (a k : Nat) (b : Byte), Memory.wf u.mem.cells = true →
      Memory.wf (if c = true then u else moveArr u p a x k b).mem.cells = true := by
    intro c u x a k b hu; split <;> simp [hu]
  have cw : ∀ u : State, Memory.wf u.mem.cells = true →
      Memory.wf (if r.kind = .sparing then closeWindow u (unitArray p r.old) else u).mem.cells = true := by
    intro u hu; split <;> simp [hu]
  unfold swing
  apply key
  dsimp only
  split
  · exact h0
  · rw [writeRecord_mem]
    apply cw
    apply moveArr_wf
    exact mv _ _ _ _ _ _ h0

@[simp] theorem goInPlace_wf (s : State) (p : Nat) (r : Rewrite) (why : Nat) (h0 : Memory.wf s.mem.cells = true) :
    Memory.wf (goInPlace s p r why).mem.cells = true := by unfold goInPlace; (try dsimp only); (repeat' split) <;> simp [*]

@[simp] theorem beginRolling_wf (n p k : Nat) (s : State) (l : Nat) (h0 : Memory.wf s.mem.cells = true) :
    Memory.wf (beginRolling n p k s l).mem.cells = true := by unfold beginRolling; (try dsimp only); (repeat' split) <;> simp [*]

@[simp] theorem nextRewrites_wf (n p : Nat) (s : State) (h0 : Memory.wf s.mem.cells = true) :
    Memory.wf (nextRewrites n p s).mem.cells = true := by unfold nextRewrites; (try dsimp only); (repeat' split) <;> simp (disch := (intros; (try dsimp only); (repeat' split) <;> (try simp [*]))) [*]

@[simp] theorem newFailed_wf (n p : Nat) (s : State) (r : Rewrite) (why : Nat) (h0 : Memory.wf s.mem.cells = true) :
    Memory.wf (newFailed n p s r why).mem.cells = true := by unfold newFailed; (try dsimp only); (repeat' split) <;> simp [*]

@[simp] theorem doSwings_wf (s : State) (p : Nat) (h0 : Memory.wf s.mem.cells = true) :
    Memory.wf (doSwings s p).mem.cells = true := by unfold doSwings; (try dsimp only); (repeat' split) <;> simp (disch := (intros; (try dsimp only); (repeat' split) <;> (try simp (disch := (intros; (try dsimp only); (repeat' split) <;> (try simp [*]))) [*]))) [*]

@[simp] theorem startRecal_wf (s : State) (p a why : Nat) (h0 : Memory.wf s.mem.cells = true) :
    Memory.wf (startRecal s p a why).mem.cells = true := by unfold startRecal; (try dsimp only); (repeat' split) <;> simp [*]

/-! ### KvPage -/

@[simp] theorem setDvalid_wf (s : State) (inst : Inst) (a : Nat) (v : Bool) (h0 : Memory.wf s.mem.cells = true) :
    Memory.wf (setDvalid s inst a v).mem.cells = true := by unfold setDvalid; (try dsimp only); (repeat' split) <;> simp [*]

@[simp] theorem kvAppend_wf (s : State) (op : Nat) (dst v n : Nat) (codes : List Byte) (h0 : Memory.wf s.mem.cells = true) :
    Memory.wf (kvAppend s op dst v n codes).mem.cells = true := by unfold kvAppend; (try dsimp only); (repeat' split) <;> simp [*]

@[simp] theorem sealPage_wf (s : State) (inst : Inst) (x : SealDue) (h0 : Memory.wf s.mem.cells = true) :
    Memory.wf (sealPage s inst x).mem.cells = true := by unfold sealPage; (try dsimp only); (repeat' split) <;> simp [*]

/-! ### PassStart -/

@[simp] theorem failStart_mem (s : State) (e : Nat) (r : Byte) (detail : Nat) :
    (failStart s e r detail).mem = s.mem := by simp [failStart]

@[simp] theorem askPasses_mem (s : State) (e : Nat) (w : PassWork) :
    (askPasses s e w).mem = s.mem := by simp [askPasses]

@[simp] theorem startWork_mem (s : State) (e : Nat) (w : Work) :
    (startWork s e w).mem = s.mem := by simp [startWork]

@[simp] theorem startPass_mem (s : State) (e : Nat) (exact : Bool) :
    (startPass s e exact).mem = s.mem := by unfold startPass; (try dsimp only); (repeat' split) <;> simp [*]

@[simp] theorem startDrain_mem (s : State) (e : Nat) :
    (startDrain s e).mem = s.mem := by unfold startDrain; (try dsimp only); (repeat' split) <;> simp [*]

@[simp] theorem startLtnLoad_mem (s : State) (e : Nat) (l : List Byte) (range : List Nat) :
    (startLtnLoad s e l range).mem = s.mem := by unfold startLtnLoad; (try dsimp only); (repeat' split) <;> simp [*]

@[simp] theorem startLtn_mem (s : State) (e : Nat) (load : Bool) :
    (startLtn s e load).mem = s.mem := by unfold startLtn; (try dsimp only); (repeat' split) <;> simp [*]

@[simp] theorem ltnLoadTile_wf (s : State) (e : Nat) (w : LtnWork) (t : Nat) (h0 : Memory.wf s.mem.cells = true) :
    Memory.wf (ltnLoadTile s e w t).mem.cells = true := by unfold ltnLoadTile; (try dsimp only); (repeat' split) <;> simp [*]

/-! ### Accum -/

@[simp] theorem putPass_mem (s : State) (e : Nat) (w : PassWork) :
    (putPass s e w).mem = s.mem := by unfold putPass; (try dsimp only); (repeat' split) <;> simp [*]

@[simp] theorem failPass_mem (s : State) (e : Nat) (r : Byte) (detail : Nat) :
    (failPass s e r detail).mem = s.mem := by unfold failPass; (try dsimp only); (repeat' split) <;> simp [*]

@[simp] theorem blockFull_mem (s : State) (p n b : Nat) (e : Nat) (w : PassWork) :
    (blockFull s p n b e w).mem = s.mem := by unfold blockFull; (try dsimp only); (repeat' split) <;> simp [*]

@[simp] theorem endRun_mem (s : State) (p : Nat) (q : PassReq) (sum : List W32) :
    (endRun s p q sum).mem = s.mem := by unfold endRun; (try dsimp only); (repeat' split) <;> simp [*]

@[simp] theorem advanceRun_mem (p n : Nat) (s : State) (r : Run) (q : PassReq) (v : List W32) :
    (advanceRun p n s r q v).mem = s.mem := by
  induction n generalizing s r q v with
  | zero => rfl
  | succ n ih =>
    unfold advanceRun; dsimp only
    split
    · simp
    · split
      · simp
      · rw [ih]; simp

@[simp] theorem park_mem (s : State) (p : Nat) (q : PassReq) (v : List W32) :
    (park s p q v).mem = s.mem := by simp [park]

@[simp] theorem deliver_mem (s : State) (p : Nat) (q : PassReq) (v : List W32) :
    (deliver s p q v).mem = s.mem := by unfold deliver; (try dsimp only); (repeat' split) <;> simp [*]

@[simp] theorem drainOut_wf (e n : Nat) (k : Block) (x : Fill) (s : State) (r : Nat × Nat × Bool) (h0 : Memory.wf s.mem.cells = true) :
    Memory.wf (drainOut e n k x s r).mem.cells = true := by unfold drainOut; (try dsimp only); (repeat' split) <;> simp [*]

@[simp] theorem posAccepted_mem (s : State) (e : Nat) :
    (posAccepted s e).mem = s.mem := by unfold posAccepted; (try dsimp only); (repeat' split) <;> simp [*]

/-! ### TilePass -/

@[simp] theorem emitResidue_wf (s : State) (u : UnitId) (action : Byte) (inst : Option Inst) (stage outcome handle ix : Nat) (h0 : Memory.wf s.mem.cells = true) :
    Memory.wf (emitResidue s u action inst stage outcome handle ix).mem.cells = true := by simp [emitResidue, *]

@[simp] theorem rereadOverflow_wf (s : State) (p : Nat) (q : PassReq) (h0 : Memory.wf s.mem.cells = true) :
    Memory.wf (rereadOverflow s p q).mem.cells = true := by unfold rereadOverflow; (try dsimp only); (repeat' split) <;> simp (disch := (intros; (try dsimp only); (repeat' split) <;> (try simp [*]))) [*]

@[simp] theorem queueExact_mem (s : State) (p : Nat) (why : ExactFor) (f : Flight) :
    (queueExact s p why f).mem = s.mem := by simp [queueExact]

@[simp] theorem noteSubst_mem (s : State) (e : Nat) :
    (noteSubst s e).mem = s.mem := by simp [noteSubst]

@[simp] theorem overflowFail_mem (s : State) (p e : Nat) (bad : Option Byte) :
    (overflowFail s p e bad).mem = s.mem := by unfold overflowFail; (try dsimp only); (repeat' split) <;> simp [*]

@[simp] theorem admitPass_wf (s : State) (p : Nat) (q : PassReq) (w : PassWork) (h0 : Memory.wf s.mem.cells = true) :
    Memory.wf (admitPass s p q w).mem.cells = true := by unfold admitPass; (try dsimp only); (repeat' split) <;> simp [*]

@[simp] theorem raiseExact_wf (s : State) (p : Nat) (h0 : Memory.wf s.mem.cells = true) :
    Memory.wf (raiseExact s p).mem.cells = true := by unfold raiseExact; (try dsimp only); (repeat' split) <;> simp [*]

@[simp] theorem leaveQueue_mem (s : State) (p : Nat) (x : ExactReq) :
    (leaveQueue s p x).mem = s.mem := by simp [leaveQueue]

@[simp] theorem rejoinQueue_mem (s : State) (p : Nat) (x : ExactReq) :
    (rejoinQueue s p x).mem = s.mem := by simp [rejoinQueue]

@[simp] theorem preemptExact_mem (s : State) (p : Nat) :
    (preemptExact s p).1.mem = s.mem := by unfold preemptExact; (try dsimp only); (repeat' split) <;> simp [*]

@[simp] theorem takeExact_mem (s : State) (p from_ : Nat) (x : ExactReq) (reserved : Bool) :
    (takeExact s p from_ x reserved).mem = s.mem := by simp [takeExact]

@[simp] theorem grantExact_mem (s : State) (p from_ : Nat) :
    (grantExact s p from_).mem = s.mem := by unfold grantExact; (try dsimp only); (repeat' split) <;> simp [*]

@[simp] theorem kickMates_mem (s : State) (p : Nat) :
    (kickMates s p).mem = s.mem := by unfold kickMates; (try dsimp only); (repeat' split) <;> simp [*]

@[simp] theorem kickExact_wf (s : State) (p : Nat) (h0 : Memory.wf s.mem.cells = true) :
    Memory.wf (kickExact s p).mem.cells = true := by unfold kickExact; (try dsimp only); (repeat' split) <;> simp [*]

@[simp] theorem rewriteBad_wf (s : State) (p : Nat) (inst : Inst) (es : List W64) (h0 : Memory.wf s.mem.cells = true) :
    Memory.wf (rewriteBad s p inst es).mem.cells = true := by unfold rewriteBad; (try dsimp only); (repeat' split) <;> simp (disch := (intros; (try dsimp only); (repeat' split) <;> (try simp [*]))) [*]

@[simp] theorem emitCheck_wf (s : State) (p a : Nat) (inst : Inst) (o : CheckOut) (h0 : Memory.wf s.mem.cells = true) :
    Memory.wf (emitCheck s p a inst o).mem.cells = true := by simp [emitCheck, *]

@[simp] theorem finishPass_mem (s : State) (p : Nat) (f : Flight) :
    (finishPass s p f).mem = s.mem := by unfold finishPass; (try dsimp only); (repeat' split) <;> simp [*]

@[simp] theorem stageStep_wf (n p : Nat) (s : State) (r : Rewrite) (h0 : Memory.wf s.mem.cells = true) :
    Memory.wf (stageStep n p s r).mem.cells = true := by unfold stageStep; (try dsimp only); (repeat' split) <;> simp [*]

@[simp] theorem setTimes_mem (s : State) (p tb : Nat) (again : List Flight) :
    (setTimes s p tb again).mem = s.mem := by simp [setTimes]

/-! ### XferEngines -/

@[simp] theorem sendReads_mem (e : Nat) (inst : Inst) (d : Nat) (n : Nat) (n' : Nat) (n'' : Nat) (s : State) :
    (sendReads e inst d n n' n'' s).mem = s.mem := by fun_induction sendReads <;> simp_all

@[simp] theorem tagReads_mem (s : State) (e : Nat) (t : ReadTag) :
    (tagReads s e t).mem = s.mem := by simp [tagReads]

@[simp] theorem dropReads_mem (s : State) (e : Nat) :
    (dropReads s e).mem = s.mem := by simp [dropReads]

@[simp] theorem askHost_mem (s : State) (e row : Nat) (inst : Inst) (t : ReadTag) :
    (askHost s e row inst t).mem = s.mem := by unfold askHost; (try dsimp only); (repeat' split) <;> simp [*]

@[simp] theorem freeReq_mem (s : State) (tag : Nat) :
    (freeReq s tag).mem = s.mem := by simp [freeReq]

/-! ### Attn -/

@[simp] theorem putAttn_mem (s : State) (e : Nat) (w : AttnWork) :
    (putAttn s e w).mem = s.mem := by unfold putAttn; (try dsimp only); (repeat' split) <;> simp [*]

@[simp] theorem startAttn_wf (s : State) (e : Nat) (h0 : Memory.wf s.mem.cells = true) :
    Memory.wf (startAttn s e).mem.cells = true := by
  unfold startAttn; dsimp only
  split
  · rw [failStart_mem]; exact h0
  · split
    · rw [failStart_mem]; exact h0
    · simp only [putAttn_mem, opFlags_frame]; exact h0

@[simp] theorem writeRow_wf (s : State) (e : Nat) (w : AttnWork) (r : AttnRow) (h0 : Memory.wf s.mem.cells = true) :
    Memory.wf (writeRow s e w r).mem.cells = true := by unfold writeRow; (try dsimp only); (repeat' split) <;> simp (disch := (intros; (try dsimp only); (repeat' split) <;> (try simp [*]))) [*]

@[simp] theorem writeLost_wf (s : State) (e : Nat) (w : AttnWork) (r : AttnRow) (h0 : Memory.wf s.mem.cells = true) :
    Memory.wf (writeLost s e w r).mem.cells = true := by unfold writeLost; (try dsimp only); (repeat' split) <;> simp (disch := (intros; (try dsimp only); (repeat' split) <;> (try simp [*]))) [*]

@[simp] theorem askPeer_mem (s : State) (e : Nat) (inst : Inst) (got : Tab (List Byte)) (d a n : Nat) :
    (askPeer s e inst got d a n).mem = s.mem := by unfold askPeer; (try dsimp only); (repeat' split) <;> simp (disch := (intros; (try dsimp only); (repeat' split) <;> (try simp [*]))) [*]

/-- Reading a page leaves memory alone, whatever it comes to. -/
theorem readPage_mem (s t : State) (e row : Nat) (w : AttnWork) (pl : PagePlace) (x b n : Nat) (d : BurstIn) :
    (readPage s e row w pl x b n d = .wait t → t.mem = s.mem) ∧
    (∀ r, readPage s e row w pl x b n d = .lost r t → t.mem = s.mem) ∧
    (∀ pg, readPage s e row w pl x b n d = .data pg t → t.mem = s.mem) := by
  unfold readPage; dsimp only
  refine ⟨?_, fun r => ?_, fun pg => ?_⟩ <;> (repeat' split) <;> intro h <;>
    simp only [PageRead.wait.injEq, PageRead.lost.injEq, PageRead.data.injEq, reduceCtorEq] at h <;>
    first | (subst h; simp) | (obtain ⟨-, h⟩ := h; subst h; simp)

@[simp] theorem rowLost_wf (s : State) (e row : Nat) (why : Byte) (h0 : Memory.wf s.mem.cells = true) :
    Memory.wf (rowLost s e row why).mem.cells = true := by unfold rowLost; (try dsimp only); (repeat' split) <;> simp [*]

@[simp] theorem attendPage_wf (s : State) (e row : Nat) (w : AttnWork) (r : AttnRow) (b : Nat) (rest : List Nat) (pg : PageData) (h0 : Memory.wf s.mem.cells = true) :
    Memory.wf (attendPage s e row w r b rest pg).mem.cells = true := by unfold attendPage; (try dsimp only); (repeat' split) <;> simp [*]

@[simp] theorem attendNext_wf (s : State) (e row : Nat) (w : AttnWork) (r : AttnRow) (b : Nat) (rest : List Nat) (d : BurstIn)
    (h0 : Memory.wf s.mem.cells = true) : Memory.wf (attendNext s e row w r b rest d).mem.cells = true := by
  unfold attendNext; dsimp only
  split
  · simp [h0]
  · split
    · simp [h0]
    · split
      · simp [h0]
      · split <;> rename_i h
        · rw [(readPage_mem ..).1 h]; exact h0
        · exact rowLost_wf _ _ _ _ (by rw [(readPage_mem ..).2.1 _ h]; exact h0)
        · exact attendPage_wf _ _ _ _ _ _ _ _ (by rw [(readPage_mem ..).2.2 _ h]; exact h0)

@[simp] theorem attnData_mem (s : State) (e d a : Nat) (l : List Byte) :
    (attnData s e d a l).mem = s.mem := by unfold attnData; (try dsimp only); (repeat' split) <;> simp [*]

@[simp] theorem attnPeerLost_wf (s : State) (e d : Nat) (h0 : Memory.wf s.mem.cells = true) :
    Memory.wf (attnPeerLost s e d).mem.cells = true := by unfold attnPeerLost; (try dsimp only); (repeat' split) <;> simp (disch := (intros; (try dsimp only); (repeat' split) <;> (try simp [*]))) [*]

/-! ### Sampler -/

@[simp] theorem startSample_mem (s : State) (e : Nat) :
    (startSample s e).mem = s.mem := by unfold startSample; (try dsimp only); (repeat' split) <;> simp [*]

@[simp] theorem addCount_wf (s : State) (inst : Inst) (vocab tab t : Nat) (h0 : Memory.wf s.mem.cells = true) :
    Memory.wf (addCount s inst vocab tab t).1.mem.cells = true := by unfold addCount; (try dsimp only); (repeat' split) <;> simp [*]

@[simp] theorem produce_wf (s : State) (e : Nat) (w : SampleWork) (a row : Nat) (h0 : Memory.wf s.mem.cells = true) :
    Memory.wf (produce s e w a row).1.mem.cells = true := by unfold produce; (try dsimp only); (repeat' split) <;> simp (disch := (intros; (try dsimp only); (repeat' split) <;> (try simp [*]))) [*]

@[simp] theorem putOut_wf (s : State) (e : Nat) (w : SampleWork) (row : Nat) (l : List Byte) (h0 : Memory.wf s.mem.cells = true) :
    Memory.wf (putOut s e w row l).mem.cells = true := by simp [putOut, *]

@[simp] theorem sampleOne_wf (s : State) (e : Nat) (w : SampleWork) (u : SampleUnit) (h0 : Memory.wf s.mem.cells = true) :
    Memory.wf (sampleOne s e w u).1.mem.cells = true := by simp [sampleOne, *]

@[simp] theorem sampleDraft_wf (s : State) (e : Nat) (w : SampleWork) (u : SampleUnit) (h0 : Memory.wf s.mem.cells = true) :
    Memory.wf (sampleDraft s e w u).1.mem.cells = true := by simp [sampleDraft, *]

theorem verifyWalk_wf (e : Nat) (w : SampleWork) (u : SampleUnit) (k n : Nat) (x : Walk)
    (h0 : Memory.wf x.st.mem.cells = true) : Memory.wf (verifyWalk e w u k n x).st.mem.cells = true := by
  induction k generalizing n x with
  | zero => exact h0
  | succ k ih =>
    unfold verifyWalk; dsimp only
    have hp := produce_wf x.st e w u.recAddr.toNat (u.row + n) h0
    split
    · exact hp
    · exact ih _ _ hp
@[simp] theorem sampleVerify_wf (s : State) (e : Nat) (w : SampleWork) (u : SampleUnit) (h0 : Memory.wf s.mem.cells = true) :
    Memory.wf (sampleVerify s e w u).1.mem.cells = true := by
  unfold sampleVerify; dsimp only
  simp only [opCounts_frame]
  exact putOut_wf _ _ _ _ _ (verifyWalk_wf _ _ _ _ _ _ h0)

@[simp] theorem putSample_mem (s : State) (e : Nat) (w : SampleWork) :
    (putSample s e w).mem = s.mem := by unfold putSample; (try dsimp only); (repeat' split) <;> simp [*]

@[simp] theorem copyToken_wf (e : Nat) (q : SeqRec) (seqA src dst : Nat) (s : State) (layer : Nat) (h0 : Memory.wf s.mem.cells = true) :
    Memory.wf (copyToken e q seqA src dst s layer).mem.cells = true := by unfold copyToken; (try dsimp only); (repeat' split) <;> simp (disch := (intros; (try dsimp only); (repeat' split) <;> (try simp [*]))) [*]

@[simp] theorem compact_wf (s : State) (e : Nat) (c : Compaction) (h0 : Memory.wf s.mem.cells = true) :
    Memory.wf (compact s e c).mem.cells = true := by
  unfold compact; dsimp only
  apply wrNat_wf
  apply foldl_wf _ _ _ _ h0
  intro s x h
  apply foldl_wf _ _ _ _ h
  intro s y h
  exact copyToken_wf _ _ _ _ _ _ _ h

/-! ### Xfer -/

@[simp] theorem putXfer_mem (s : State) (e : Nat) (w : XferWork) :
    (putXfer s e w).mem = s.mem := by simp [putXfer]

@[simp] theorem writePeer_mem (e : Nat) (inst : Inst) (d n a off : Nat) (l : List Byte) (s : State) :
    (writePeer e inst d n a off l s).mem = s.mem := by
  induction n generalizing a off l s with
  | zero => rfl
  | succ n ih =>
    unfold writePeer; dsimp only
    split
    · rfl
    · rw [ih]; split <;> simp

@[simp] theorem askPieces_mem (s : State) (e : Nat) (inst : Inst) (t : ReadTag) (ps : List (XPlace × Nat)) :
    (askPieces s e inst t ps).mem = s.mem := by unfold askPieces; (try dsimp only); (repeat' split) <;> simp (disch := (intros; (try dsimp only); (repeat' split) <;> (try simp [*]))) [*]

@[simp] theorem askNext_mem (s : State) (e : Nat) :
    (askNext s e).mem = s.mem := by unfold askNext; (try dsimp only); (repeat' split) <;> simp [*]

@[simp] theorem grantXfer_mem (s : State) (x : Nat) :
    (grantXfer s x).mem = s.mem := by unfold grantXfer; (try dsimp only); (repeat' split) <;> simp [*]

@[simp] theorem releaseXfer_mem (s : State) (e : Nat) :
    (releaseXfer s e).mem = s.mem := by unfold releaseXfer; (try dsimp only); (repeat' split) <;> simp [*]

@[simp] theorem endXfer_mem (s : State) (e : Nat) (r : Byte) (detail : Nat) :
    (endXfer s e r detail).mem = s.mem := by unfold endXfer; (try dsimp only); (repeat' split) <;> simp [*]

@[simp] theorem preemptXfer_mem (s : State) (x : Nat) :
    (preemptXfer s x).mem = s.mem := by unfold preemptXfer; (try dsimp only); (repeat' split) <;> simp [*]

@[simp] theorem xferAdvance_wf (s : State) (e : Nat) (h0 : Memory.wf s.mem.cells = true) :
    Memory.wf (xferAdvance s e).mem.cells = true := by
  unfold xferAdvance; dsimp only
  split
  · split
    · split
      · split
        · rw [endXfer_mem]; exact h0
        · split
          · rw [endXfer_mem]; exact counterAdd_wf _ _ _ h0
          · rw [(sendReliable_frame _ _ _ _ _ _ _ _).2.2.2.2.2.2.2.2.1]; exact h0
      · rw [endXfer_mem]; exact h0
    · exact h0
  · exact h0

@[simp] theorem raiseXfer_wf (s : State) (e : Nat) (h0 : Memory.wf s.mem.cells = true) :
    Memory.wf (raiseXfer s e).mem.cells = true := by
  unfold raiseXfer
  split
  · split
    · simp [h0]
    · apply xferAdvance_wf; rw [grantXfer_mem]; exact h0
  · exact h0

@[simp] theorem walkPages_wf (e n : Nat) (s : State) (h0 : Memory.wf s.mem.cells = true) :
    Memory.wf (walkPages e n s).mem.cells = true := by
  induction n generalizing s with
  | zero => exact h0
  | succ n ih =>
    unfold walkPages; dsimp only
    split
    · exact h0
    · split
      · exact raiseXfer_wf _ _ h0
      · split
        · rw [endXfer_mem]; exact h0
        · rw [endXfer_mem]; exact h0
        · split
          · exact h0
          · rw [sendReads_mem]; exact h0
        · split
          · exact h0
          · rw [sendReads_mem]; exact h0
        · split
          · rw [endXfer_mem]; exact h0
          · exact ih _ h0

@[simp] theorem hostAnswered_mem (s : State) (e : Nat) :
    (hostAnswered s e).mem = s.mem := by unfold hostAnswered; (try dsimp only); (repeat' split) <;> simp [*]

theorem beginXfer_wf (s : State) (e : Nat) (q : XFault × XferWork) (h0 : Memory.wf s.mem.cells = true) :
    Memory.wf (match q with
      | (f, w) => match f with
        | some (r, d) => failStart s e r d
        | none => if w.kind = XferKind.pages then walkPages e (w.len + 1) (startWork s e (.xfer w))
          else raiseXfer (startWork s e (.xfer w)) e).mem.cells = true := by
  obtain ⟨f, w⟩ := q
  cases f with
  | some x => obtain ⟨r, d⟩ := x; simp only [failStart_mem]; exact h0
  | none =>
    dsimp only
    split
    · apply walkPages_wf; rw [startWork_mem]; exact h0
    · apply raiseXfer_wf; rw [startWork_mem]; exact h0
@[simp] theorem startXfer_wf (s : State) (e : Nat) (h0 : Memory.wf s.mem.cells = true) :
    Memory.wf (startXfer s e).mem.cells = true := by
  unfold startXfer
  extract_lets o l w
  split
  · rw [failStart_mem]; exact h0
  · exact beginXfer_wf s e _ h0

@[simp] theorem writeBurst_wf (s : State) (e : Nat) (inst : Inst) (p : XPlace) (off : Nat) (l : List Byte) (h0 : Memory.wf s.mem.cells = true) :
    Memory.wf (writeBurst s e inst p off l).mem.cells = true := by unfold writeBurst; (try dsimp only); (repeat' split) <;> simp [*]

@[simp] theorem fillVector_mem (s : State) (e v : Nat) (w : XferWork) (l : List Byte) :
    (fillVector s e v w l).mem = s.mem := by simp [fillVector]

@[simp] theorem fillBurst_mem (s : State) (e : Nat) (w : XferWork) (n : Nat) (l : List Byte) :
    (fillBurst s e w n l).mem = s.mem := by unfold fillBurst; (try dsimp only); (repeat' split) <;> simp [*]

theorem closePage_wf (s t : State) (e : Nat) (w : XferWork) (d : BurstIn) (ht : closePage s e w d = some t)
    (h0 : Memory.wf s.mem.cells = true) : Memory.wf t.mem.cells = true := by
  unfold closePage at ht; dsimp only at ht
  (repeat' split at ht) <;> first | (cases ht; done) | (cases ht; simp [h0])

theorem landBurst_wf (s t : State) (e : Nat) (w : XferWork) (d : BurstIn) (ht : landBurst s e w d = some t)
    (h0 : Memory.wf s.mem.cells = true) : Memory.wf t.mem.cells = true := by
  unfold landBurst at ht; dsimp only at ht
  split at ht
  · cases ht
  · split at ht
    · cases ht
    · cases ht; simp [h0]
    · cases ht; (repeat' split) <;> simp [h0]

@[simp] theorem xferData_wf (s : State) (e d a : Nat) (l : List Byte) (h0 : Memory.wf s.mem.cells = true) :
    Memory.wf (xferData s e d a l).mem.cells = true := by
  unfold xferData; dsimp only
  split
  · exact h0
  · split
    · exact walkPages_wf _ _ _ h0
    · exact h0

@[simp] theorem readerFailed_wf (s : State) (x : HostReader) (h0 : Memory.wf s.mem.cells = true) :
    Memory.wf (readerFailed s x).mem.cells = true := by unfold readerFailed; (try dsimp only); (repeat' split) <;> simp [*]

@[simp] theorem doubtAt_wf (s : State) (inst : Inst) (w : XferWork) (p : Nat) (t : State) (o : Nat)
    (h0 : Memory.wf t.mem.cells = true) : Memory.wf (doubtAt s inst w p t o).mem.cells = true := by
  unfold doubtAt; (repeat' split) <;> simp [h0]

@[simp] theorem doubt_wf (s : State) (e : Nat) (h0 : Memory.wf s.mem.cells = true) :
    Memory.wf (doubt s e).mem.cells = true := by
  unfold doubt; dsimp only
  (repeat' split) <;> first | exact h0 | exact foldl_wf _ (fun t o h => doubtAt_wf _ _ _ _ t o h) _ _ h0

@[simp] theorem stopXfer_wf (s : State) (e : Nat) (r : Byte) (detail : Nat) (h0 : Memory.wf s.mem.cells = true) :
    Memory.wf (stopXfer s e r detail).mem.cells = true := by unfold stopXfer; (try dsimp only); (repeat' split) <;> simp [*]

@[simp] theorem moveXfer_mem (station : Nat) (s : State) (e : Nat) :
    (moveXfer station s e).mem = s.mem := by unfold moveXfer; (try dsimp only); (repeat' split) <;> simp [*]

@[simp] theorem fenceXfer_wf (s : State) (x : Nat) (h0 : Memory.wf s.mem.cells = true) :
    Memory.wf (fenceXfer s x).mem.cells = true := by unfold fenceXfer; (try dsimp only); (repeat' split) <;> simp [*]

/-! ### Coll -/

@[simp] theorem putColl_mem (s : State) (e : Nat) (w : CollWork) :
    (putColl s e w).mem = s.mem := by simp [putColl]

@[simp] theorem sendCtrl_mem (s : State) (op : Option Nat) (inst : Inst) (w : CollWork) (kind r missing : Nat) :
    (sendCtrl s op inst w kind r missing).mem = s.mem := by simp [sendCtrl]

@[simp] theorem foldChunk_wf (s : State) (e : Nat) (w : CollWork) (c : Nat) (h0 : Memory.wf s.mem.cells = true) :
    Memory.wf (foldChunk s e w c).mem.cells = true := by simp [foldChunk, *]

@[simp] theorem undefDst_wf (s : State) (e : Nat) (w : CollWork) (h0 : Memory.wf s.mem.cells = true) :
    Memory.wf (undefDst s e w).mem.cells = true := by unfold undefDst; (try dsimp only); (repeat' split) <;> simp [*]

@[simp] theorem endColl_wf (s : State) (e : Nat) (r : Byte) (missing : Nat) (h0 : Memory.wf s.mem.cells = true) :
    Memory.wf (endColl s e r missing).mem.cells = true := by unfold endColl; (try dsimp only); (repeat' split) <;> simp [*]

@[simp] theorem leaveColl_wf (s : State) (e : Nat) (r : Byte) (missing : Nat) (h0 : Memory.wf s.mem.cells = true) :
    Memory.wf (leaveColl s e r missing).mem.cells = true := by unfold leaveColl; (try dsimp only); (repeat' split) <;> simp [*]

@[simp] theorem memberLost_wf (s : State) (e missing : Nat) (h0 : Memory.wf s.mem.cells = true) :
    Memory.wf (memberLost s e missing).mem.cells = true := by unfold memberLost; (try dsimp only); (repeat' split) <;> simp [*]

@[simp] theorem sendPulls_mem (e n : Nat) (s : State) : (sendPulls e n s).mem = s.mem := by
  induction n generalizing s with
  | zero => rfl
  | succ n ih =>
    unfold sendPulls; dsimp only
    split
    · rfl
    · split
      · rfl
      · split
        · rw [ih]; simp
        · split
          · rfl
          · rw [ih]; simp

@[simp] theorem servePull_wf (s : State) (e : Nat) (w : CollWork) (m : CollMsg) (off : Nat) (q : W32) (h0 : Memory.wf s.mem.cells = true) :
    Memory.wf (servePull s e w m off q).mem.cells = true := by unfold servePull; (try dsimp only); (repeat' split) <;> simp [*]

@[simp] theorem arriveRank_mem (s : State) (e r : Nat) :
    (arriveRank s e r).mem = s.mem := by unfold arriveRank; (try dsimp only); (repeat' split) <;> simp [*]

@[simp] theorem takeEarly_wf (s : State) (e : Nat) (h0 : Memory.wf s.mem.cells = true) :
    Memory.wf (takeEarly s e).mem.cells = true := by unfold takeEarly; (try dsimp only); (repeat' split) <;> simp (disch := (intros; (try dsimp only); (repeat' split) <;> (try simp [*]))) [*]

@[simp] theorem ownPart_wf (s : State) (e : Nat) (h0 : Memory.wf s.mem.cells = true) :
    Memory.wf (ownPart s e).mem.cells = true := by unfold ownPart; (try dsimp only); (repeat' split) <;> simp (disch := (intros; (try dsimp only); (repeat' split) <;> (try simp [*]))) [*]

@[simp] theorem collAdvance_wf (s : State) (e : Nat) (h0 : Memory.wf s.mem.cells = true) :
    Memory.wf (collAdvance s e).mem.cells = true := by unfold collAdvance; (try dsimp only); (repeat' split) <;> simp [*]

@[simp] theorem collGoOn_wf (s : State) (e : Nat) (h0 : Memory.wf s.mem.cells = true) :
    Memory.wf (collGoOn s e).mem.cells = true := by unfold collGoOn; (try dsimp only); (repeat' split) <;> simp [*]

@[simp] theorem beginColl_wf (s : State) (e : Nat) (h0 : Memory.wf s.mem.cells = true) :
    Memory.wf (beginColl s e).mem.cells = true := by unfold beginColl; (try dsimp only); (repeat' split) <;> simp (disch := (intros; (try dsimp only); (repeat' split) <;> (try simp [*]))) [*]

@[simp] theorem grantColl_wf (n : Nat) (s : State) (h0 : Memory.wf s.mem.cells = true) :
    Memory.wf (grantColl n s).mem.cells = true := by fun_induction grantColl <;> simp_all

@[simp] theorem releaseColl_wf (s : State) (e : Nat) (h0 : Memory.wf s.mem.cells = true) :
    Memory.wf (releaseColl s e).mem.cells = true := by unfold releaseColl; (try dsimp only); (repeat' split) <;> simp [*]

@[simp] theorem startColl_wf (s : State) (e : Nat) (reserved : Option (Nat × Nat)) (h0 : Memory.wf s.mem.cells = true) :
    Memory.wf (startColl s e reserved).mem.cells = true := by unfold startColl; (try dsimp only); (repeat' split) <;> simp [*]

@[simp] theorem keepEarly_mem (s : State) (x : EarlyColl) :
    (keepEarly s x).mem = s.mem := by unfold keepEarly; (try dsimp only); (repeat' split) <;> simp [*]

@[simp] theorem takePull_wf (s : State) (x : EarlyColl) (h0 : Memory.wf s.mem.cells = true) :
    Memory.wf (takePull s x).mem.cells = true := by unfold takePull; (try dsimp only); (repeat' split) <;> simp (disch := (intros; (try dsimp only); (repeat' split) <;> (try simp [*]))) [*]

@[simp] theorem tryFold_wf (s : State) (e c : Nat) (h0 : Memory.wf s.mem.cells = true) :
    Memory.wf (tryFold s e c).mem.cells = true := by unfold tryFold; (try dsimp only); (repeat' split) <;> simp [*]

@[simp] theorem sendAllPulls_mem (s : State) :
    (sendAllPulls s).mem = s.mem := by unfold sendAllPulls; (try dsimp only); (repeat' split) <;> simp (disch := (intros; (try dsimp only); (repeat' split) <;> (try simp [*]))) [*]

@[simp] theorem takeData_wf (s : State) (src : W16) (q : Nat) (data : List Byte) (h0 : Memory.wf s.mem.cells = true) :
    Memory.wf (takeData s src q data).mem.cells = true := by unfold takeData; (try dsimp only); (repeat' split) <;> simp (disch := (intros; (try dsimp only); (repeat' split) <;> (try simp [*]))) [*]

@[simp] theorem takeArrive_wf (s : State) (x : EarlyColl) (h0 : Memory.wf s.mem.cells = true) :
    Memory.wf (takeArrive s x).mem.cells = true := by unfold takeArrive; (try dsimp only); (repeat' split) <;> simp [*]

@[simp] theorem takeRelease_wf (s : State) (slice : Nat) (m : CollMsg) (h0 : Memory.wf s.mem.cells = true) :
    Memory.wf (takeRelease s slice m).mem.cells = true := by unfold takeRelease; (try dsimp only); (repeat' split) <;> simp [*]

@[simp] theorem takeAbort_wf (s : State) (x : EarlyColl) (h0 : Memory.wf s.mem.cells = true) :
    Memory.wf (takeAbort s x).mem.cells = true := by unfold takeAbort; (try dsimp only); (repeat' split) <;> simp [*]

@[simp] theorem fenceColl_wf (s : State) (x : Nat) (h0 : Memory.wf s.mem.cells = true) :
    Memory.wf (fenceColl s x).mem.cells = true := by unfold fenceColl; (try dsimp only); (repeat' split) <;> simp [*]

/-! ### Frames -/

@[simp] theorem dropSlice_wf (s : State) (f : Frame) (h0 : Memory.wf s.mem.cells = true) :
    Memory.wf (dropSlice s f).mem.cells = true := by unfold dropSlice; (try dsimp only); (repeat' split) <;> simp [*]

@[simp] theorem relayFrame_wf (s : State) (l : Link) (f : Frame) (h0 : Memory.wf s.mem.cells = true) :
    Memory.wf (relayFrame s l f).mem.cells = true := by unfold relayFrame; (try dsimp only); (repeat' split) <;> simp [*]

@[simp] theorem takeCredit_mem (s : State) (l p n : Nat) :
    (takeCredit s l p n).mem = s.mem := by unfold takeCredit; (try dsimp only); (repeat' split) <;> simp [*]

@[simp] theorem takeCred_mem (s : State) (l : Nat) (f : Frame) :
    (takeCred s l f).mem = s.mem := by unfold takeCred; (try dsimp only); (repeat' split) <;> simp [*]

@[simp] theorem receive_wf (s : State) (l : Link) (f : Frame) (k : State → State) (hk : ∀ s, Memory.wf s.mem.cells = true → Memory.wf (k s).mem.cells = true) (h0 : Memory.wf s.mem.cells = true) :
    Memory.wf (receive s l f k).mem.cells = true := by unfold receive; (try dsimp only); (repeat' split) <;> simp [*]

@[simp] theorem setRx_mem (s : State) (src : W16) (cls : BitVec 2) (v : RxWindow) :
    (setRx s src cls v).mem = s.mem := by simp [setRx]

@[simp] theorem sendAck_mem (s : State) (f : Frame) :
    (sendAck s f).mem = s.mem := by simp [sendAck]

@[simp] theorem sendNak_mem (s : State) (f : Frame) (reason : Byte) :
    (sendNak s f reason).mem = s.mem := by simp [sendNak]

@[simp] theorem refuse_mem (s : State) (f : Frame) (reason : Byte) :
    (refuse s f reason).mem = s.mem := by unfold refuse; (try dsimp only); (repeat' split) <;> simp [*]

@[simp] theorem malformed_mem (s : State) :
    (malformed s).mem = s.mem := by simp [malformed]

@[simp] theorem reliably_wf (s : State) (f : Frame) (ap ag : State → State)
    (h1 : ∀ s, Memory.wf s.mem.cells = true → Memory.wf (ap s).mem.cells = true)
    (h2 : ∀ s, Memory.wf s.mem.cells = true → Memory.wf (ag s).mem.cells = true) (h0 : Memory.wf s.mem.cells = true) :
    Memory.wf (reliably s f ap ag).mem.cells = true := by
  unfold reliably
  dsimp only
  split
  · exact h0
  · apply h2; simp [h0]
  · simp [h1 s h0]

@[simp] theorem answerRead_mem (s : State) (f : Frame) (a n : Nat) :
    (answerRead s f a n).mem = s.mem := by unfold answerRead; (try dsimp only); (repeat' split) <;> simp [*]

@[simp] theorem applyAtomic_wf (s : State) (f : Frame) (m : AtomicMsg) (a : Nat) (h0 : Memory.wf s.mem.cells = true) :
    Memory.wf (applyAtomic s f m a).mem.cells = true := by unfold applyAtomic; (try dsimp only); (repeat' split) <;> simp [*]

@[simp] theorem opGoesOn_wf (s : State) (e : Nat) (h0 : Memory.wf s.mem.cells = true) :
    Memory.wf (opGoesOn s e).mem.cells = true := by unfold opGoesOn; (try dsimp only); (repeat' split) <;> simp [*]

@[simp] theorem opFailsFor_wf (s : State) (e dst : Nat) (r : Byte) (h0 : Memory.wf s.mem.cells = true) :
    Memory.wf (opFailsFor s e dst r).mem.cells = true := by unfold opFailsFor; (try dsimp only); (repeat' split) <;> simp (disch := (intros; (try dsimp only); (repeat' split) <;> (try simp [*]))) [*]

@[simp] theorem readArrived_wf (s : State) (e d a : Nat) (l : List Byte) (h0 : Memory.wf s.mem.cells = true) :
    Memory.wf (readArrived s e d a l).mem.cells = true := by unfold readArrived; (try dsimp only); (repeat' split) <;> simp [*]

@[simp] theorem receiveLink_mem (s : State) (l : Nat) (f : Frame) (k : State → State) (hk : ∀ s, (k s).mem = s.mem) :
    (receiveLink s l f k).mem = s.mem := by unfold receiveLink; (try dsimp only); (repeat' split) <;> simp [*]

@[simp] theorem relayTime_mem (s : State) (m : TimeMsg) :
    (relayTime s m).mem = s.mem := by simp [relayTime]

@[simp] theorem recheckPaths_mem (s : State) :
    (recheckPaths s).mem = s.mem := by simp [recheckPaths]

@[simp] theorem loseDest_wf (s : State) (dst : Nat) (es : List Nat) (h0 : Memory.wf s.mem.cells = true) :
    Memory.wf (loseDest s dst es).mem.cells = true := by unfold loseDest; (try dsimp only); (repeat' split) <;> simp (disch := (intros; (try dsimp only); (repeat' split) <;> (try simp [*]))) [*]

@[simp] theorem refusedNow_wf (s : State) (c : TxCopy) (h0 : Memory.wf s.mem.cells = true) :
    Memory.wf (refusedNow s c).mem.cells = true := by unfold refusedNow; (try dsimp only); (repeat' split) <;> simp [*]

/-! ### LaunchTable -/

@[simp] theorem freeLaunch_mem (s : State) (i : Nat) :
    (freeLaunch s i).mem = s.mem := by simp [freeLaunch]

@[simp] theorem sendLaunch_mem (s : State) (inst : Inst) (dst kind : Nat) (m : LaunchMsg) :
    (sendLaunch s inst dst kind m).mem = s.mem := by unfold sendLaunch; (try dsimp only); (repeat' split) <;> simp [*]

@[simp] theorem setGroup_mem (s : State) (n : Nat) (g : GroupLaunch) :
    (setGroup s n g).mem = s.mem := by simp [setGroup]

@[simp] theorem openGroup_mem (s : State) (slice : Nat) (m : LaunchMsg) :
    (openGroup s slice m).mem = s.mem := by unfold openGroup; (try dsimp only); (repeat' split) <;> simp [*]

@[simp] theorem hearMember_mem (s : State) (slice : Nat) (m : LaunchMsg) (f : GroupLaunch → GroupLaunch) :
    (hearMember s slice m f).mem = s.mem := by unfold hearMember; (try dsimp only); (repeat' split) <;> simp [*]

@[simp] theorem tellCoord_mem (s : State) (inst : Inst) (g : Nat) (kind : Nat) (tag : W32) (t : W64) (why : Byte) :
    (tellCoord s inst g kind tag t why).mem = s.mem := by unfold tellCoord; (try dsimp only); (repeat' split) <;> simp [*]

@[simp] theorem freeReserved_wf (s : State) (l : Launch) (h0 : Memory.wf s.mem.cells = true) :
    Memory.wf (freeReserved s l).mem.cells = true := by unfold freeReserved; (try dsimp only); (repeat' split) <;> simp [*]

@[simp] theorem finishHeld_wf (s : State) (i : Nat) (h0 : Memory.wf s.mem.cells = true) :
    Memory.wf (finishHeld s i).mem.cells = true := by unfold finishHeld; (try dsimp only); (repeat' split) <;> simp (disch := (intros; (try dsimp only); (repeat' split) <;> (try simp [*]))) [*]

@[simp] theorem missEntry_wf (s : State) (i : Nat) (why r : Byte) (h0 : Memory.wf s.mem.cells = true) :
    Memory.wf (missEntry s i why r).mem.cells = true := by unfold missEntry; (try dsimp only); (repeat' split) <;> simp [*]

@[simp] theorem fenceEntry_wf (s : State) (i : Nat) (h0 : Memory.wf s.mem.cells = true) :
    Memory.wf (fenceEntry s i).mem.cells = true := by unfold fenceEntry; (try dsimp only); (repeat' split) <;> simp [*]

@[simp] theorem fenceLaunches_wf (s : State) (h0 : Memory.wf s.mem.cells = true) :
    Memory.wf (fenceLaunches s).mem.cells = true := by unfold fenceLaunches; (try dsimp only); (repeat' split) <;> simp (disch := (intros; (try dsimp only); (repeat' split) <;> (try simp [*]))) [*]

/-! ### Fence -/

@[simp] theorem failOp_wf (r : Byte) (detail : Nat) (s : State) (e : Nat) (h0 : Memory.wf s.mem.cells = true) :
    Memory.wf (failOp r detail s e).mem.cells = true := by unfold failOp; (try dsimp only); (repeat' split) <;> simp [*]

@[simp] theorem failNaming_wf (s : State) (f : Nat → Bool) (h0 : Memory.wf s.mem.cells = true) :
    Memory.wf (failNaming s f).mem.cells = true := by unfold failNaming; (try dsimp only); (repeat' split) <;> simp (disch := (intros; (try dsimp only); (repeat' split) <;> (try simp [*]))) [*]

@[simp] theorem fenceSpire_wf (s : State) (n : Nat) (action : Byte) (cause src : Nat) (h0 : Memory.wf s.mem.cells = true) :
    Memory.wf (fenceSpire s n action cause src).mem.cells = true := by unfold fenceSpire; (try dsimp only); (repeat' split) <;> simp (disch := (intros; (try dsimp only); (repeat' split) <;> (try simp [*]))) [*]

@[simp] theorem fenceDevice_wf (s : State) (action : Byte) (cause src : Nat) (h0 : Memory.wf s.mem.cells = true) :
    Memory.wf (fenceDevice s action cause src).mem.cells = true := by unfold fenceDevice; (try dsimp only); (repeat' split) <;> simp (disch := (intros; (try dsimp only); (repeat' split) <;> (try simp [*]))) [*]

@[simp] theorem mapTile_mem (s : State) (n q : Nat) :
    (mapTile s n q).mem = s.mem := by simp [mapTile]

@[simp] theorem noteMoved_mem (s : State) (fs : List Flight) :
    (noteMoved s fs).mem = s.mem := by simp [noteMoved]

@[simp] theorem returnShared_mem (s : State) (p : Nat) :
    (returnShared s p).mem = s.mem := by unfold returnShared; (try dsimp only); (repeat' split) <;> simp [*]

@[simp] theorem fenceTile_wf (s : State) (p : Nat) (action : Byte) (cause src : Nat) (h0 : Memory.wf s.mem.cells = true) :
    Memory.wf (fenceTile s p action cause src).mem.cells = true := by unfold fenceTile; (try dsimp only); (repeat' split) <;> simp (disch := (intros; (try dsimp only); (repeat' split) <;> (try simp [*]))) [*]

@[simp] theorem escalate_wf (s : State) (w : Window) (u : UnitId) (h0 : Memory.wf s.mem.cells = true) :
    Memory.wf (escalate s w u).mem.cells = true := by unfold escalate; (try dsimp only); (repeat' split) <;> simp [*]

@[simp] theorem arrayFault_wf (s : State) (p a why : Nat) (h0 : Memory.wf s.mem.cells = true) :
    Memory.wf (arrayFault s p a why).mem.cells = true := by unfold arrayFault; (try dsimp only); (repeat' split) <;> simp [*]

/-! ### Program -/

@[simp] theorem emitRecompute_wf (s : State) (p : Nat) (f : Flight) (h0 : Memory.wf s.mem.cells = true) :
    Memory.wf (emitRecompute s p f).mem.cells = true := by simp [emitRecompute, *]

@[simp] theorem mismatch_wf (s : State) (p : Nat) (f : Flight) (h0 : Memory.wf s.mem.cells = true) :
    Memory.wf (mismatch s p f).mem.cells = true := by unfold mismatch; (try dsimp only); (repeat' split) <;> simp (disch := (intros; (try dsimp only); (repeat' split) <;> (try simp [*]))) [*]

@[simp] theorem recomputeLost_mem (s : State) (p : Nat) (q : PassReq) :
    (recomputeLost s p q).mem = s.mem := by unfold recomputeLost; (try dsimp only); (repeat' split) <;> simp [*]

@[simp] theorem activateArr_wf (n p : Nat) (s : State) (l : Nat) (h0 : Memory.wf s.mem.cells = true) :
    Memory.wf (activateArr n p s l).mem.cells = true := by unfold activateArr; (try dsimp only); (repeat' split) <;> simp [*]

@[simp] theorem tryActivate_wf (s : State) (p : Nat) (h0 : Memory.wf s.mem.cells = true) :
    Memory.wf (tryActivate s p).mem.cells = true := by
  have k : ∀ (o : Option Nat) (u : State), Memory.wf u.mem.cells = true →
      Memory.wf (match o with
        | some old => closeWindow (emitRestored u (unitTile old) (unitTile p) actRestored) (unitTile old)
        | none => u).mem.cells = true := by
    intro o u hu; split <;> simp [hu]
  unfold tryActivate; dsimp only
  split
  · split
    · exact h0
    · apply loadCheck_wf
      apply nextRewrites_wf
      apply k
      apply foldl_wf _ _ _ _ h0
      intro s x h; exact activateArr_wf _ _ _ _ h
  · exact h0

@[simp] theorem fullRetry_wf (s : State) (p : Nat) (j : Job) (l : Nat) (h0 : Memory.wf s.mem.cells = true) :
    Memory.wf (fullRetry s p j l).mem.cells = true := by unfold fullRetry; (try dsimp only); (repeat' split) <;> simp [*]

@[simp] theorem jobFailed_wf (s : State) (p : Nat) (j : Job) (why : Nat) (h0 : Memory.wf s.mem.cells = true) :
    Memory.wf (jobFailed s p j why).mem.cells = true := by unfold jobFailed; (try dsimp only); (repeat' split) <;> simp [*]

@[simp] theorem enterWriting_wf (s : State) (p : Nat) (j : Job) (h0 : Memory.wf s.mem.cells = true) :
    Memory.wf (enterWriting s p j).mem.cells = true := by unfold enterWriting; (try dsimp only); (repeat' split) <;> simp [*]

@[simp] theorem takeJob_mem (s : State) (p : Nat) (j : Job) :
    (takeJob s p j).mem = s.mem := by simp [takeJob]

@[simp] theorem eraseDone_wf (s : State) (p : Nat) (j : Job) (clean : Bool) (h0 : Memory.wf s.mem.cells = true) :
    Memory.wf (eraseDone s p j clean).mem.cells = true := by unfold eraseDone; (try dsimp only); (repeat' split) <;> simp [*]

@[simp] theorem portVerified_mem (s : State) (p l repairs class1 : Nat) :
    (portVerified s p l repairs class1).mem = s.mem := by simp [portVerified]

@[simp] theorem askTouchup_mem (s : State) (p a : Nat) (j : Job) :
    (askTouchup s p a j).mem = s.mem := by simp [askTouchup]

@[simp] theorem calibrated_wf (s : State) (p a : Nat) (h0 : Memory.wf s.mem.cells = true) :
    Memory.wf (calibrated s p a).mem.cells = true := by unfold calibrated; (try dsimp only); (repeat' split) <;> simp [*]

@[simp] theorem stageIllegal_wf (s : State) (p l a : Nat) (fresh : List FailedPair) (h0 : Memory.wf s.mem.cells = true) :
    Memory.wf (stageIllegal s p l a fresh).1.mem.cells = true := by unfold stageIllegal; (try dsimp only); (repeat' split) <;> simp [*]

@[simp] theorem drainedInPlace_wf (s : State) (p a : Nat) (r : Rewrite) (h0 : Memory.wf s.mem.cells = true) :
    Memory.wf (drainedInPlace s p a r).mem.cells = true := by unfold drainedInPlace; (try dsimp only); (repeat' split) <;> simp [*]

end Sys2Proof.Machine
end

