-- ==== Sys2Proof/Laws/Canonical2.lean ====
section
/-! SUPPORT. The same for the operations after it: register writes, images, units, the Keep and the host. -/

namespace Sys2Proof.Machine

open Sys2Proof

/-! ### Access -/

@[simp] theorem orderTo_mem (s : State) (by_ : Requester) (b : Blk) (f : State → State) (hf : ∀ s, (f s).mem = s.mem) :
    (orderTo s by_ b f).mem = s.mem := by
  unfold orderTo; split
  · rfl
  · split
    · exact hf s
    · rfl

@[simp] theorem orderTo_wf (s : State) (by_ : Requester) (b : Blk) (f : State → State)
    (hf : ∀ s, Memory.wf s.mem.cells = true → Memory.wf (f s).mem.cells = true) (h0 : Memory.wf s.mem.cells = true) :
    Memory.wf (orderTo s by_ b f).mem.cells = true := by
  unfold orderTo; split
  · exact h0
  · split
    · exact hf s h0
    · exact h0

@[simp] theorem bitsTo_mem (s : State) (by_ : Requester) (b : Blk) (o mask effect : Nat) (contains : Bool) (f : State → State) (hf : ∀ s, (f s).mem = s.mem) :
    (bitsTo s by_ b o mask effect contains f).mem = s.mem := by unfold bitsTo; (try dsimp only); (repeat' split) <;> simp (disch := (intros; (try dsimp only); (repeat' split) <;> (try simp [*]))) [*]

@[simp] theorem bitsTo_wf (s : State) (by_ : Requester) (b : Blk) (o mask effect : Nat) (contains : Bool) (f : State → State) (hf : ∀ s, Memory.wf s.mem.cells = true → Memory.wf (f s).mem.cells = true) (h0 : Memory.wf s.mem.cells = true) :
    Memory.wf (bitsTo s by_ b o mask effect contains f).mem.cells = true := by unfold bitsTo; (try dsimp only); (repeat' split) <;> simp (disch := (intros; (try dsimp only); (repeat' split) <;> (try simp [*]))) [*]

@[simp] theorem viewTo_mem (s : State) (by_ : Requester) (b : Blk) (o mask : Nat) (view : View) (old v : Nat) (contains : Bool) (f : State → Nat → State) (hf : ∀ s x1, (f s x1).mem = s.mem) :
    (viewTo s by_ b o mask view old v contains f).mem = s.mem := by unfold viewTo; (try dsimp only); (repeat' split) <;> simp [*]

@[simp] theorem viewTo_wf (s : State) (by_ : Requester) (b : Blk) (o mask : Nat) (view : View) (old v : Nat) (contains : Bool) (f : State → Nat → State) (hf : ∀ s x1, Memory.wf s.mem.cells = true → Memory.wf (f s x1).mem.cells = true) (h0 : Memory.wf s.mem.cells = true) :
    Memory.wf (viewTo s by_ b o mask view old v contains f).mem.cells = true := by unfold viewTo; (try dsimp only); (repeat' split) <;> simp [*]

@[simp] theorem regTo_mem (s : State) (by_ : Requester) (b : Blk) (o : Nat) (view : View) (v : Nat) (f : State → Nat → State) (hf : ∀ s x1, (f s x1).mem = s.mem) :
    (regTo s by_ b o view v f).mem = s.mem := by unfold regTo; (try dsimp only); (repeat' split) <;> simp [*]

/-! ### Images -/

@[simp] theorem emitImage_wf (s : State) (action : Byte) (reason event : Nat) (id : W64) (h0 : Memory.wf s.mem.cells = true) :
    Memory.wf (emitImage s action reason event id).mem.cells = true := by simp [emitImage, *]

@[simp] theorem failLoad_wf (s : State) (reason : Nat) (id : W64) (h0 : Memory.wf s.mem.cells = true) :
    Memory.wf (failLoad s reason id).mem.cells = true := by simp [failLoad, *]

@[simp] theorem abortLoad_wf (s : State) (h0 : Memory.wf s.mem.cells = true) :
    Memory.wf (abortLoad s).mem.cells = true := by unfold abortLoad; (try dsimp only); (repeat' split) <;> simp [*]

@[simp] theorem setMode_mem (s : State) (m : LoadMode) :
    (setMode s m).mem = s.mem := by simp [setMode]

@[simp] theorem startLoad_wf (s : State) (by_ : Requester) (m : LoadMode) (h0 : Memory.wf s.mem.cells = true) :
    Memory.wf (startLoad s by_ m).mem.cells = true := by
  unfold startLoad
  refine orderTo_wf _ _ _ _ ?_ h0
  intro s h; dsimp only
  split
  · exact emitImage_wf _ _ _ _ _ h
  · split
    · exact abortLoad_wf _ h
    · exact h

@[simp] theorem reportReserve_wf (s : State) (m : LoadMode) (f : ImageFile) (h0 : Memory.wf s.mem.cells = true) :
    Memory.wf (reportReserve s m f).mem.cells = true := by unfold reportReserve; (try dsimp only); (repeat' split) <;> simp (disch := (intros; (try dsimp only); (repeat' split) <;> (try simp [*]))) [*]

@[simp] theorem wrScattered_wf (s : State) (a : Nat) (l : List (Nat × Byte)) (h0 : Memory.wf s.mem.cells = true) :
    Memory.wf (wrScattered s a l).mem.cells = true := by unfold wrScattered; (try dsimp only); (repeat' split) <;> simp (disch := (intros; (try dsimp only); (repeat' split) <;> (try simp [*]))) [*]

@[simp] theorem placeImage_wf (s : State) (f : ImageFile) (k base : Nat) (h0 : Memory.wf s.mem.cells = true) :
    Memory.wf (placeImage s f k base).mem.cells = true := by unfold placeImage; (try dsimp only); (repeat' split) <;> simp (disch := (intros; (try dsimp only); (repeat' split) <;> (try simp [*]))) [*]

@[simp] theorem programArr_wf (p k : Nat) (s : State) (l : Nat) (h0 : Memory.wf s.mem.cells = true) :
    Memory.wf (programArr p k s l).mem.cells = true := by unfold programArr; (try dsimp only); (repeat' split) <;> simp [*]

@[simp] theorem keepArr_wf (p n k : Nat) (s : State) (l : Nat) (h0 : Memory.wf s.mem.cells = true) :
    Memory.wf (keepArr p n k s l).mem.cells = true := by unfold keepArr; (try dsimp only); (repeat' split) <;> simp [*]

@[simp] theorem takeImage_wf (m : LoadMode) (f : ImageFile) (k : Nat) (kept : List (Nat × Nat)) (s : State) (n : Nat)
    (h0 : Memory.wf s.mem.cells = true) : Memory.wf (takeImage m f k kept s n).mem.cells = true := by
  unfold takeImage
  dsimp only
  apply tryActivate_wf
  apply foldl_wf
  · intro s l h; split <;> simp [h]
  · exact h0

@[simp] theorem rewriteTile_wf (m : LoadMode) (f : ImageFile) (k old : Nat) (kept : List (Nat × Nat)) (s : State) (n : Nat) (h0 : Memory.wf s.mem.cells = true) :
    Memory.wf (rewriteTile m f k old kept s n).mem.cells = true := by simp [rewriteTile, *]

@[simp] theorem commitLoad_wf (s : State) (m : LoadMode) (f : ImageFile) (k base : Nat) (h0 : Memory.wf s.mem.cells = true) :
    Memory.wf (commitLoad s m f k base).mem.cells = true := by unfold commitLoad; (try dsimp only); (repeat' split) <;> simp (disch := (intros; (try dsimp only); (repeat' split) <;> (try simp (disch := (intros; (try dsimp only); (repeat' split) <;> (try simp [*]))) [*]))) [*]

/-! ### Links -/

@[simp] theorem setFld_mem (s : State) (b : Blk) (o lo w v : Nat) :
    (setFld s b o lo w v).mem = s.mem := by simp [setFld]

@[simp] theorem emitLink_wf (s : State) (l : Nat) (h0 : Memory.wf s.mem.cells = true) :
    Memory.wf (emitLink s l).mem.cells = true := by simp [emitLink, *]

@[simp] theorem notePaths_mem (s : State) :
    (notePaths s).mem = s.mem := by simp [notePaths]

@[simp] theorem linkTo_wf (s : State) (l : Nat) (k : LinkSt) (st : LinkState) (h0 : Memory.wf s.mem.cells = true) :
    Memory.wf (linkTo s l k st).mem.cells = true := by unfold linkTo; (try dsimp only); (repeat' split) <;> simp [*]

@[simp] theorem toBackoff_wf (s : State) (l : Nat) (h0 : Memory.wf s.mem.cells = true) :
    Memory.wf (toBackoff s l).mem.cells = true := by simp [toBackoff, *]

@[simp] theorem toDetect_wf (s : State) (l : Nat) (retry : Bool) (h0 : Memory.wf s.mem.cells = true) :
    Memory.wf (toDetect s l retry).mem.cells = true := by unfold toDetect; (try dsimp only); (repeat' split) <;> simp [*]

@[simp] theorem toDisabled_wf (s : State) (l : Nat) (h0 : Memory.wf s.mem.cells = true) :
    Memory.wf (toDisabled s l).mem.cells = true := by simp [toDisabled, *]

@[simp] theorem linkCfgWritten_wf (s : State) (l : Nat) (retrain : Bool) (h0 : Memory.wf s.mem.cells = true) :
    Memory.wf (linkCfgWritten s l retrain).mem.cells = true := by unfold linkCfgWritten; (try dsimp only); (repeat' split) <;> simp [*]

@[simp] theorem sendIdent_mem (s : State) (l : Nat) :
    (sendIdent s l).mem = s.mem := by simp [sendIdent]

@[simp] theorem sendInitialCredits_mem (s : State) (l : Nat) :
    (sendInitialCredits s l).mem = s.mem := by simp [sendInitialCredits]

/-! ### OpRun -/

@[simp] theorem kickTiles_wf (s : State) (h0 : Memory.wf s.mem.cells = true) :
    Memory.wf (kickTiles s).mem.cells = true := by unfold kickTiles; (try dsimp only); (repeat' split) <;> simp (disch := (intros; (try dsimp only); (repeat' split) <;> (try simp [*]))) [*]

@[simp] theorem completeOp_wf (s : State) (e : Nat) (h0 : Memory.wf s.mem.cells = true) :
    Memory.wf (completeOp s e).mem.cells = true := by unfold completeOp; (try dsimp only); (repeat' split) <;> simp [*]

/-! ### Launch -/

@[simp] theorem placeArm_mem (s : State) (t : Tid) (d : GReg) (a at_ : Nat) (group : Bool) (e i : Nat) :
    (placeArm s t d a at_ group e i).mem = s.mem := by unfold placeArm; (try dsimp only); (repeat' split) <;> simp [*]

@[simp] theorem badGroupArm_mem (s : State) (t : Tid) (d : GReg) (a e : Nat) (r : Byte) (detail : Nat) :
    (badGroupArm s t d a e r detail).mem = s.mem := by simp [badGroupArm]

@[simp] theorem issueArm_wf (s : State) (t : Tid) (g : Guard) (d a b : GReg) (group : Bool) (h0 : Memory.wf s.mem.cells = true) :
    Memory.wf (issueArm s t g d a b group).mem.cells = true := by unfold issueArm; (try dsimp only); (repeat' split) <;> simp (disch := (intros; (try dsimp only); (repeat' split) <;> (try simp [*]))) [*]

@[simp] theorem disarmEntry_wf (s : State) (i : Nat) (h0 : Memory.wf s.mem.cells = true) :
    Memory.wf (disarmEntry s i).mem.cells = true := by unfold disarmEntry; (try dsimp only); (repeat' split) <;> simp [*]

@[simp] theorem giveVerdict_mem (s : State) (slice : Nat) (m : LaunchMsg) (go : Bool) :
    (giveVerdict s slice m go).mem = s.mem := by unfold giveVerdict; (try dsimp only); (repeat' split) <;> simp (disch := (intros; (try dsimp only); (repeat' split) <;> (try simp [*]))) [*]

@[simp] theorem giveOutcome_wf (s : State) (i : Nat) (oc : BitVec 2) (missing : Nat) (h0 : Memory.wf s.mem.cells = true) :
    Memory.wf (giveOutcome s i oc missing).mem.cells = true := by unfold giveOutcome; (try dsimp only); (repeat' split) <;> simp [*]

@[simp] theorem tellMembers_mem (s : State) (g : GroupLaunch) (kind : Nat) (m : LaunchMsg) :
    (tellMembers s g kind m).mem = s.mem := by simp [tellMembers]

@[simp] theorem deviceFailed_wf (s : State) (d : Nat) (h0 : Memory.wf s.mem.cells = true) :
    Memory.wf (deviceFailed s d).mem.cells = true := by unfold deviceFailed; (try dsimp only); (repeat' split) <;> simp [*]

/-! ### Faults -/

@[simp] theorem loseImages_wf (s : State) (k : Nat) (h0 : Memory.wf s.mem.cells = true) :
    Memory.wf (loseImages s k).mem.cells = true := by unfold loseImages; (try dsimp only); (repeat' split) <;> simp (disch := (intros; (try dsimp only); (repeat' split) <;> (try simp [*]))) [*]

@[simp] theorem fenceStack_wf (s : State) (k : Nat) (action : Byte) (cause src : Nat) (h0 : Memory.wf s.mem.cells = true) :
    Memory.wf (fenceStack s k action cause src).mem.cells = true := by
  unfold fenceStack
  apply foldl_wf
  · intro s t h; exact restartThr_wf _ _ _ _ _ h
  · apply foldl_wf
    · intro s t h
      exact failCounter_wf _ _ _ (fun s a v h => counterAdd_wf s a v h) h
    · exact loseImages_wf _ _ (emitFenced_wf _ _ _ _ _ h0)

@[simp] theorem correctedError_wf (s : State) (a : Nat) (h0 : Memory.wf s.mem.cells = true) :
    Memory.wf (correctedError s a).mem.cells = true := by unfold correctedError; (try dsimp only); (repeat' split) <;> simp [*]

@[simp] theorem poisonLine_wf (s : State) (a : Nat) (h0 : Memory.wf s.mem.cells = true) :
    Memory.wf (poisonLine s a).mem.cells = true := by unfold poisonLine; (try dsimp only); (repeat' split) <;> simp [*]

@[simp] theorem fenceAttn_wf (s : State) (n : Nat) (action : Byte) (cause src : Nat) (h0 : Memory.wf s.mem.cells = true) :
    Memory.wf (fenceAttn s n action cause src).mem.cells = true := by simp [fenceAttn, *]

@[simp] theorem faultXfer_wf (s : State) (x : Nat) (cause : Nat) (h0 : Memory.wf s.mem.cells = true) :
    Memory.wf (faultXfer s x cause).mem.cells = true := by unfold faultXfer; (try dsimp only); (repeat' split) <;> simp [*]

@[simp] theorem faultColl_wf (s : State) (n : Nat) (cause : Nat) (h0 : Memory.wf s.mem.cells = true) :
    Memory.wf (faultColl s n cause).mem.cells = true := by simp [faultColl, *]

@[simp] theorem faultSampler_wf (s : State) (cause : Nat) (h0 : Memory.wf s.mem.cells = true) :
    Memory.wf (faultSampler s cause).mem.cells = true := by simp [faultSampler, *]

@[simp] theorem faultLink_wf (s : State) (l : Nat) (h0 : Memory.wf s.mem.cells = true) :
    Memory.wf (faultLink s l).mem.cells = true := by unfold faultLink; (try dsimp only); (repeat' split) <;> simp [*]

@[simp] theorem containFault_wf (s : State) (u : UnitId) (cause : Nat) (h0 : Memory.wf s.mem.cells = true) :
    Memory.wf (containFault s u cause).mem.cells = true := by unfold containFault; (try dsimp only); (repeat' split) <;> simp [*]

@[simp] theorem hardFault_wf (s : State) (u : UnitId) (cause : Nat) (h0 : Memory.wf s.mem.cells = true) :
    Memory.wf (hardFault s u cause).mem.cells = true := by unfold hardFault; (try dsimp only); (repeat' split) <;> simp (disch := (intros; (try dsimp only); (repeat' split) <;> (try simp [*]))) [*]

@[simp] theorem keepFence_wf (s : State) (u : UnitId) (h0 : Memory.wf s.mem.cells = true) :
    Memory.wf (keepFence s u).mem.cells = true := by unfold keepFence; (try dsimp only); (repeat' split) <;> simp [*]

@[simp] theorem tileResidue_mem (s : State) (p k : Nat) :
    (tileResidue s p k).1.mem = s.mem := by simp [tileResidue]

@[simp] theorem domeResidue_mem (s : State) (k : Nat) :
    (domeResidue s k).1.mem = s.mem := by simp [domeResidue]

@[simp] theorem residueRecord_wf (s : State) (u : UnitId) (inst : Option Inst) (stage handle ix : Nat) (again : Bool) (h0 : Memory.wf s.mem.cells = true) :
    Memory.wf (residueRecord s u inst stage handle ix again).mem.cells = true := by unfold residueRecord; (try dsimp only); (repeat' split) <;> simp [*]

@[simp] theorem tileUnitResidue_wf (s : State) (t : TileId) (key stage : Nat) (f : Option Flight)
    (h0 : Memory.wf s.mem.cells = true) : Memory.wf (tileUnitResidue s t key stage f).mem.cells = true := by
  unfold tileUnitResidue
  extract_lets p
  split
  · exact h0
  · have hr := tileResidue_mem s p key
    generalize tileResidue s p key = q at hr ⊢
    obtain ⟨u, again⟩ := q
    have hu : Memory.wf u.mem.cells = true := by rw [show u.mem = s.mem from hr]; exact h0
    dsimp only
    split
    · exact hardFault_wf _ _ _ (residueRecord_wf _ _ _ _ _ _ _ hu)
    · exact residueRecord_wf _ _ _ _ _ _ _ hu

@[simp] theorem readoutResidue_wf (s : State) (t : TileId) (a : Nat) (h0 : Memory.wf s.mem.cells = true) :
    Memory.wf (readoutResidue s t a).mem.cells = true := by unfold readoutResidue; (try dsimp only); (repeat' split) <;> simp [*]

@[simp] theorem domeUnitResidue_wf (s : State) (u : UnitId) (key stage : Nat) (e : Option Nat) (ix : Nat) (h0 : Memory.wf s.mem.cells = true) :
    Memory.wf (domeUnitResidue s u key stage e ix).mem.cells = true := by unfold domeUnitResidue; (try dsimp only); (repeat' split) <;> simp [*]

@[simp] theorem upsetSlot_mem (s : State) (p k : Nat) (v : W64) :
    (upsetSlot s p k v).mem = s.mem := by unfold upsetSlot; (try dsimp only); (repeat' split) <;> simp [*]

/-! ### Power -/

@[simp] theorem setDom_mem (s : State) (d : Nat) (v : Dom) :
    (setDom s d v).mem = s.mem := by simp [setDom]

@[simp] theorem startDom_mem (s : State) (d : Nat) :
    (startDom s d).mem = s.mem := by unfold startDom; (try dsimp only); (repeat' split) <;> simp [*]

@[simp] theorem endChan_wf (s : State) (k err : Nat) (h0 : Memory.wf s.mem.cells = true) :
    Memory.wf (endChan s k err).mem.cells = true := by unfold endChan; (try dsimp only); (repeat' split) <;> simp [*]

@[simp] theorem stopChans_wf (s : State) (h0 : Memory.wf s.mem.cells = true) :
    Memory.wf (stopChans s).mem.cells = true := by unfold stopChans; (try dsimp only); (repeat' split) <;> simp (disch := (intros; (try dsimp only); (repeat' split) <;> (try simp [*]))) [*]

@[simp] theorem domRefuse_wf (s : State) (d code : Nat) (h0 : Memory.wf s.mem.cells = true) :
    Memory.wf (domRefuse s d code).mem.cells = true := by simp [domRefuse, *]

@[simp] theorem dropDom_wf (s : State) (d : Nat) (h0 : Memory.wf s.mem.cells = true) :
    Memory.wf (dropDom s d).mem.cells = true := by unfold dropDom; (try dsimp only); (repeat' split) <;> simp (disch := (intros; (try dsimp only); (repeat' split) <;> (try simp [*]))) [*]

@[simp] theorem domOffReq_wf (s : State) (d : Nat) (h0 : Memory.wf s.mem.cells = true) :
    Memory.wf (domOffReq s d).mem.cells = true := by unfold domOffReq; (try dsimp only); (repeat' split) <;> simp [*]

@[simp] theorem domProgress_mem (s : State) :
    (domProgress s).mem = s.mem := by unfold domProgress; (try dsimp only); (repeat' split) <;> simp [*]

@[simp] theorem domOnReq_wf (s : State) (d : Nat) (h0 : Memory.wf s.mem.cells = true) :
    Memory.wf (domOnReq s d).mem.cells = true := by unfold domOnReq; (try dsimp only); (repeat' split) <;> simp [*]

@[simp] theorem domainCtl_wf (s : State) (by_ : Requester) (d : Nat) (on : Bool) (h0 : Memory.wf s.mem.cells = true) :
    Memory.wf (domainCtl s by_ d on).mem.cells = true := by
  have k : ∀ u : State, Memory.wf u.mem.cells = true →
      Memory.wf (if (!u.keep.running || u.pwr.domBusy.isSome) = true then u
        else if 47 ≤ d then domRefuse u d 3 else if on = true then domOnReq u d else domOffReq u d).mem.cells = true := by
    intro u hu
    split
    · exact hu
    · split
      · simp [hu]
      · split <;> simp [hu]
  unfold domainCtl
  refine orderTo_wf _ _ _ _ ?_ h0
  intro s h
  apply k
  split
  · simp [h]
  · exact h

@[simp] theorem advanceUp_mem (n : Nat) (s : State) :
    (advanceUp n s).mem = s.mem := by fun_induction advanceUp <;> simp_all

@[simp] theorem beginUp_mem (s : State) :
    (beginUp s).mem = s.mem := by unfold beginUp; (try dsimp only); (repeat' split) <;> simp [*]

@[simp] theorem domComes_wf (s : State) (d : Nat) (h0 : Memory.wf s.mem.cells = true) :
    Memory.wf (domComes s d).mem.cells = true := by unfold domComes; (try dsimp only); (repeat' split) <;> simp (disch := (intros; (try dsimp only); (repeat' split) <;> (try simp [*]))) [*]

@[simp] theorem resetRegs_mem (s : State) (cadences : Bool) :
    (resetRegs s cadences).mem = s.mem := by simp [resetRegs]

@[simp] theorem dropWork_mem (s : State) :
    (dropWork s).mem = s.mem := by simp [dropWork]

@[simp] theorem losePower_wf (s : State) (h0 : Memory.wf s.mem.cells = true) :
    Memory.wf (losePower s).mem.cells = true := by simp [losePower, *]

@[simp] theorem setCause_mem (s : State) (n : Nat) :
    (setCause s n).mem = s.mem := by simp [setCause]

/-! ### Keep -/

@[simp] theorem endKeep_mem (s : State) (r : Nat) :
    (endKeep s r).mem = s.mem := by simp [endKeep]

@[simp] theorem beginKeep_mem (s : State) (c : KeepCmd) :
    (beginKeep s c).mem = s.mem := by simp [beginKeep]

@[simp] theorem setCmdArg_mem (s : State) (v : W64) :
    (setCmdArg s v).mem = s.mem := by simp [setCmdArg]

@[simp] theorem keepCmd_wf (s : State) (by_ : Requester) (f : State → State)
    (hf : ∀ s, Memory.wf s.mem.cells = true → Memory.wf (f s).mem.cells = true) (h0 : Memory.wf s.mem.cells = true) :
    Memory.wf (keepCmd s by_ f).mem.cells = true := by
  unfold keepCmd
  refine orderTo_wf _ _ _ _ ?_ h0
  intro s h
  dsimp only
  split
  · exact h
  · split
    · exact hf _ h
    · exact h

@[simp] theorem keepArg_wf (s : State) (by_ : Requester) (arg : W64) (f : State → State)
    (hf : ∀ s, Memory.wf s.mem.cells = true → Memory.wf (f s).mem.cells = true) (h0 : Memory.wf s.mem.cells = true) :
    Memory.wf (keepArg s by_ arg f).mem.cells = true := keepCmd_wf _ _ _ hf (orderTo_wf _ _ _ _ (fun _ h => h) h0)

@[simp] theorem ownerCmd_wf (by_ : Requester) (f : State → State) (s : State)
    (hf : ∀ s, Memory.wf s.mem.cells = true → Memory.wf (f s).mem.cells = true) (h0 : Memory.wf s.mem.cells = true) :
    Memory.wf (ownerCmd by_ f s).mem.cells = true := by
  unfold ownerCmd
  split
  · exact h0
  · split
    · exact h0
    · exact hf s h0

@[simp] theorem noteMgmt_mem (s : State) (cmd : Nat) (reply : Option (Tid × GReg)) :
    (noteMgmt s cmd reply).mem = s.mem := by simp [noteMgmt]

@[simp] theorem restoreYields_mem (s : State) :
    (restoreYields s).mem = s.mem := by unfold restoreYields; (try dsimp only); (repeat' split) <;> simp (disch := (intros; (try dsimp only); (repeat' split) <;> (try simp [*]))) [*]

@[simp] theorem abortSweep_mem (s : State) :
    (abortSweep s).mem = s.mem := by unfold abortSweep; (try dsimp only); (repeat' split) <;> simp [*]

@[simp] theorem startRestore_mem (s : State) :
    (startRestore s).mem = s.mem := by simp [startRestore]

@[simp] theorem doRestore_mem (s : State) :
    (doRestore s).mem = s.mem := by unfold doRestore; (try dsimp only); (repeat' split) <;> simp [*]

@[simp] theorem tellThreads_mem (ts : List Tid) (s : State) :
    (tellThreads ts s).mem = s.mem := by unfold tellThreads; (try dsimp only); (repeat' split) <;> simp (disch := (intros; (try dsimp only); (repeat' split) <;> (try simp [*]))) [*]

@[simp] theorem zeroiseOps_wf (s : State) (h0 : Memory.wf s.mem.cells = true) :
    Memory.wf (zeroiseOps s).mem.cells = true := by unfold zeroiseOps; (try dsimp only); (repeat' split) <;> simp (disch := (intros; (try dsimp only); (repeat' split) <;> (try simp [*]))) [*]

@[simp] theorem startZeroise_wf (s : State) (h0 : Memory.wf s.mem.cells = true) :
    Memory.wf (startZeroise s).mem.cells = true := by
  have key : ∀ (l : List (Nat × Image)) (u : State), Memory.wf u.mem.cells = true →
      Memory.wf (l.foldl (fun s (_, i) => zeroRange s i.base i.size) u).mem.cells = true :=
    fun l u h => foldl_wf _ (fun t x h => by simp [h]) l u h
  simp only [startZeroise]
  refine key _ _ (zeroiseOps_wf _ (fenceLaunches_wf _ ?_))
  have h1 : Memory.wf (abortSweep (abortLoad s)).mem.cells = true := by simp [h0]
  exact emitImage_wf _ _ _ _ _ h1

@[simp] theorem doZeroise_wf (arg : W64) (s : State) (h0 : Memory.wf s.mem.cells = true) :
    Memory.wf (doZeroise arg s).mem.cells = true := by unfold doZeroise; (try dsimp only); (repeat' split) <;> simp [*]

@[simp] theorem mgmtCode_mem (s : State) (t : Tid) (d : GReg) (code : Nat) :
    (mgmtCode s t d code).mem = s.mem := by simp [mgmtCode]

@[simp] theorem doSweep_mem (n : Nat) (ref : W16) (s : State) :
    (doSweep n ref s).mem = s.mem := by unfold doSweep; (try dsimp only); (repeat' split) <;> simp [*]

@[simp] theorem writeUserSet_mem (s : State) (n : Nat) (cells : List (Nat × Byte)) :
    (writeUserSet s n cells).mem = s.mem := by simp [writeUserSet]

@[simp] theorem doRetest_mem (u : UnitId) (s : State) :
    (doRetest u s).mem = s.mem := by unfold doRetest; (try dsimp only); (repeat' split) <;> simp [*]

@[simp] theorem recalibrate_wf (p : Nat) (s : State) (a : Nat) (h0 : Memory.wf s.mem.cells = true) :
    Memory.wf (recalibrate p s a).mem.cells = true := by unfold recalibrate; (try dsimp only); (repeat' split) <;> simp [*]

@[simp] theorem returnTile_wf (s : State) (p : Nat) (h0 : Memory.wf s.mem.cells = true) :
    Memory.wf (returnTile s p).mem.cells = true := by unfold returnTile; (try dsimp only); (repeat' split) <;> simp (disch := (intros; (try dsimp only); (repeat' split) <;> (try simp [*]))) [*]

@[simp] theorem zeroStack_wf (s : State) (k : Nat) (h0 : Memory.wf s.mem.cells = true) :
    Memory.wf (zeroStack s k).mem.cells = true := by simp [zeroStack, *]

@[simp] theorem restoreUnit_wf (s : State) (u : UnitId) (h0 : Memory.wf s.mem.cells = true) :
    Memory.wf (restoreUnit s u).mem.cells = true := by unfold restoreUnit; (try dsimp only); (repeat' split) <;> simp (disch := (intros; (try dsimp only); (repeat' split) <;> (try simp (disch := (intros; (try dsimp only); (repeat' split) <;> (try simp [*]))) [*]))) [*]

@[simp] theorem endRetest_wf (s : State) (u : UnitId) (ok : Bool) (h0 : Memory.wf s.mem.cells = true) :
    Memory.wf (endRetest s u ok).mem.cells = true := by unfold endRetest; (try dsimp only); (repeat' split) <;> simp [*]

@[simp] theorem doAnchor_mem (arg : W64) (s : State) :
    (doAnchor arg s).mem = s.mem := by unfold doAnchor; (try dsimp only); (repeat' split) <;> simp [*]

@[simp] theorem doRevoke_mem (arg : W64) (s : State) :
    (doRevoke arg s).mem = s.mem := by simp [doRevoke]

@[simp] theorem doFloor_mem (arg : W64) (s : State) :
    (doFloor arg s).mem = s.mem := by unfold doFloor; (try dsimp only); (repeat' split) <;> simp [*]

@[simp] theorem doPolicy_mem (s : State) :
    (doPolicy s).mem = s.mem := by simp [doPolicy]

@[simp] theorem keepDo_wf (by_ : Requester) (code : Nat) (arg : W64) (s : State) (h0 : Memory.wf s.mem.cells = true) :
    Memory.wf (keepDo by_ code arg s).mem.cells = true := by unfold keepDo; (try dsimp only); (repeat' split) <;> simp [*]

@[simp] theorem emitKeepRestart_wf (s : State) (h0 : Memory.wf s.mem.cells = true) :
    Memory.wf (emitKeepRestart s).mem.cells = true := by simp [emitKeepRestart, *]

@[simp] theorem bootKeep_mem (s : State) (copyA copyB : Bool) :
    (bootKeep s copyA copyB).mem = s.mem := by simp [bootKeep]

/-! ### RegWrite -/

@[simp] theorem notePend_mem (s : State) (b : Blk) (o : Nat) (d : RDesc) :
    (notePend s b o d).mem = s.mem := by unfold notePend; (try dsimp only); (repeat' split) <;> simp [*]

@[simp] theorem storeReg_mem (s : State) (b : Blk) (o : Nat) (d : RDesc) (new : W64) :
    (storeReg s b o d new).mem = s.mem := by unfold storeReg; (try dsimp only); (repeat' split) <;> simp [*]

/-! ### Instances -/

@[simp] theorem setRefused_mem (s : State) (n : Nat) :
    (setRefused s n).mem = s.mem := by simp [setRefused]

@[simp] theorem scrubLost_mem (s : State) (n : Nat) (old : List Nat) :
    (scrubLost s n old).mem = s.mem := by unfold scrubLost; (try dsimp only); (repeat' split) <;> simp [*]

@[simp] theorem instWrite_mem (s : State) (n o : Nat) (view : View) (v : Nat) :
    (instWrite s n o view v).mem = s.mem := by unfold instWrite; (try dsimp only); (repeat' split) <;> simp [*]

@[simp] theorem townWrite_mem (s : State) (n : Nat) (view : View) (v : Nat) :
    (townWrite s n view v).mem = s.mem := by unfold townWrite; (try dsimp only); (repeat' split) <;> simp [*]

@[simp] theorem emitInst_wf (s : State) (n : Inst) (what : Nat) (h0 : Memory.wf s.mem.cells = true) :
    Memory.wf (emitInst s n what).mem.cells = true := by simp [emitInst, *]

@[simp] theorem resetLaunch_wf (s : State) (i : Nat) (h0 : Memory.wf s.mem.cells = true) :
    Memory.wf (resetLaunch s i).mem.cells = true := by unfold resetLaunch; (try dsimp only); (repeat' split) <;> simp [*]

@[simp] theorem resetOp_wf (s : State) (e : Nat) (h0 : Memory.wf s.mem.cells = true) :
    Memory.wf (resetOp s e).mem.cells = true := by unfold resetOp; (try dsimp only); (repeat' split) <;> simp [*]

@[simp] theorem resetThread_mem (s : State) (t : Nat) :
    (resetThread s t).mem = s.mem := by simp [resetThread]

@[simp] theorem dropChans_mem (s : State) :
    (dropChans s).mem = s.mem := by simp [dropChans]

@[simp] theorem beginReset_wf (s : State) (n : Inst) (trigger : Nat) (after : IState) (h0 : Memory.wf s.mem.cells = true) :
    Memory.wf (beginReset s n trigger after).mem.cells = true := by unfold beginReset; (try dsimp only); (repeat' split) <;> simp (disch := (intros; (try dsimp only); (repeat' split) <;> (try simp (disch := (intros; (try dsimp only); (repeat' split) <;> (try simp [*]))) [*]))) [*]

@[simp] theorem askReset_wf (s : State) (n : Inst) (trigger : Nat) (h0 : Memory.wf s.mem.cells = true) :
    Memory.wf (askReset s n trigger).mem.cells = true := by unfold askReset; (try dsimp only); (repeat' split) <;> simp [*]

@[simp] theorem enableInst_mem (s : State) (n : Inst) :
    (enableInst s n).mem = s.mem := by unfold enableInst; (try dsimp only); (repeat' split) <;> simp [*]

@[simp] theorem disableInst_wf (s : State) (n : Inst) (h0 : Memory.wf s.mem.cells = true) :
    Memory.wf (disableInst s n).mem.cells = true := by unfold disableInst; (try dsimp only); (repeat' split) <;> simp [*]

@[simp] theorem resetMsix_mem (s : State) (n : Inst) :
    (resetMsix s n).mem = s.mem := by simp [resetMsix]

@[simp] theorem clearOwned_mem (s : State) (n : Inst) :
    (clearOwned s n).mem = s.mem := by simp [clearOwned]

/-! ### Resets -/

@[simp] theorem resetDevice_wf (s : State) (flr : Bool) (h0 : Memory.wf s.mem.cells = true) :
    Memory.wf (resetDevice s flr).mem.cells = true := by unfold resetDevice; (try dsimp only); (repeat' split) <;> simp [*]

@[simp] theorem powerOn_wf (s : State) (copyA copyB : Bool) (h0 : Memory.wf s.mem.cells = true) :
    Memory.wf (powerOn s copyA copyB).mem.cells = true := by simp [powerOn, *]

/-! ### HostIo -/

@[simp] theorem hostAnswer_mem (s : State) (l : List Byte) :
    (hostAnswer s l).mem = s.mem := by simp [hostAnswer]

@[simp] theorem loadDone_mem (s : State) (t : Nat) (h : HostLoad) (data : List Byte) :
    (loadDone s t h data).mem = s.mem := by simp [loadDone]

@[simp] theorem loadFailed_wf (s : State) (t : Nat) (h : HostLoad) (h0 : Memory.wf s.mem.cells = true) :
    Memory.wf (loadFailed s t h).mem.cells = true := by unfold loadFailed; (try dsimp only); (repeat' split) <;> simp [*]

/-! ### Doe -/

@[simp] theorem doePut_mem (s : State) (kind : Byte) (data : List Byte) :
    (doePut s kind data).mem = s.mem := by simp [doePut]

@[simp] theorem doeSigned_mem (s : State) (kind : Byte) (data : List Byte) :
    (doeSigned s kind data).mem = s.mem := by simp [doeSigned]

@[simp] theorem spdm_wf (s : State) (f : State → State)
    (hf : ∀ s, Memory.wf s.mem.cells = true → Memory.wf (f s).mem.cells = true) (h0 : Memory.wf s.mem.cells = true) :
    Memory.wf (spdm s f).mem.cells = true := by
  unfold spdm
  split
  · exact h0
  · split
    · exact hf s h0
    · exact h0

/-! ### Thermal -/

@[simp] theorem metIdle_mem (s : State) (x input filter : Nat) :
    (metIdle s x input filter).mem = s.mem := by unfold metIdle; (try dsimp only); (repeat' split) <;> simp [*]

@[simp] theorem markSensor_wf (s : State) (i : Nat) (mark : BitVec 2) (h0 : Memory.wf s.mem.cells = true) :
    Memory.wf (markSensor s i mark).mem.cells = true := by unfold markSensor; (try dsimp only); (repeat' split) <;> simp [*]

@[simp] theorem silentStack_wf (s : State) (k : Nat) (h0 : Memory.wf s.mem.cells = true) :
    Memory.wf (silentStack s k).mem.cells = true := by unfold silentStack; (try dsimp only); (repeat' split) <;> simp [*]

@[simp] theorem sampleSensor_wf (s : State) (r : Nat × W16) (h0 : Memory.wf s.mem.cells = true) :
    Memory.wf (sampleSensor s r).mem.cells = true := by unfold sampleSensor; (try dsimp only); (repeat' split) <;> simp [*]

@[simp] theorem noteCool_mem (s : State) :
    (noteCool s).mem = s.mem := by unfold noteCool; (try dsimp only); (repeat' split) <;> simp [*]

@[simp] theorem crosscheck_wf (s : State) (i : Nat) (h0 : Memory.wf s.mem.cells = true) :
    Memory.wf (crosscheck s i).mem.cells = true := by unfold crosscheck; (try dsimp only); (repeat' split) <;> simp [*]

@[simp] theorem judgeSuspect_wf (s : State) (i : Nat) (v : W16) (h0 : Memory.wf s.mem.cells = true) :
    Memory.wf (judgeSuspect s i v).mem.cells = true := by unfold judgeSuspect; (try dsimp only); (repeat' split) <;> simp [*]

@[simp] theorem compensate_mem (s : State) (k : Nat) :
    (compensate s k).mem = s.mem := by unfold compensate; (try dsimp only); (repeat' split) <;> simp [*]

/-! ### Metrology -/

@[simp] theorem beginMet_mem (s : State) (x input filter : Nat) (holder : Option (Fin 8)) (reserved : Bool) :
    (beginMet s x input filter holder reserved).mem = s.mem := by simp [beginMet]

@[simp] theorem grantMet_mem (s : State) (x : Nat) :
    (grantMet s x).mem = s.mem := by unfold grantMet; (try dsimp only); (repeat' split) <;> simp [*]

@[simp] theorem raiseChan_mem (s : State) (k : Nat) :
    (raiseChan s k).mem = s.mem := by simp [raiseChan]

@[simp] theorem closeChan_wf (s : State) (k err : Nat) (h0 : Memory.wf s.mem.cells = true) :
    Memory.wf (closeChan s k err).mem.cells = true := by simp [closeChan, *]

@[simp] theorem startChan_wf (s : State) (x ch : Nat) (h0 : Memory.wf s.mem.cells = true) :
    Memory.wf (startChan s x ch).mem.cells = true := by unfold startChan; (try dsimp only); (repeat' split) <;> simp [*]

@[simp] theorem stopChan_wf (s : State) (x ch : Nat) (h0 : Memory.wf s.mem.cells = true) :
    Memory.wf (stopChan s x ch).mem.cells = true := by unfold stopChan; (try dsimp only); (repeat' split) <;> simp [*]

@[simp] theorem putResult_wf (s : State) (k : Nat) (c : Chan) (code : BitVec 24) (clip : Bool)
    (h0 : Memory.wf s.mem.cells = true) : Memory.wf (putResult s k c code clip).mem.cells = true := by
  have key : ∀ (u : State) (i : Inst) (a n v : Nat) , u = wrNat s i a n v → Memory.wf u.mem.cells = true := by
    intro u i a n v h; rw [h]; exact wrNat_wf _ _ _ _ _ h0
  have key2 : ∀ (u t: State) (i : Inst) (a : Nat) (n v) (b l), t = wrBytes s i b l → u = wrNat t i a n v  → Memory.wf u.mem.cells = true := by
    intro u t i a n v b l h h'; rw [h', h]; exact wrNat_wf _ _ _ _ _ (wrBytes_wf _ _ _ _ h0)
  have e : ∀ t, t = putResult s k c code clip → Memory.wf t.mem.cells = true := by
    intro t h
    rw [putResult] at h
    generalize 2^64 = z at h
    dsimp only at h
    split at h
    · exact key _ _ _ _ _ h
    · exact key2 _ _ _ _ _ _ _ _ rfl h
  exact e _ rfl

@[simp] theorem afterResult_wf (s : State) (k : Nat) (c : Chan) (h0 : Memory.wf s.mem.cells = true) :
    Memory.wf (afterResult s k c).mem.cells = true := by unfold afterResult; (try dsimp only); (repeat' split) <;> simp [*]

@[simp] theorem noteSense_wf (s : State) (k : Nat) (f : SenseTest) (h0 : Memory.wf s.mem.cells = true) :
    Memory.wf (noteSense s k f).mem.cells = true := by unfold noteSense; (try dsimp only); (repeat' split) <;> simp [*]

@[simp] theorem writeTrim_mem (f : Nat) (s : State) (w : TrimWrite) :
    (writeTrim f s w).mem = s.mem := by simp [writeTrim]

@[simp] theorem recalDrifted_wf (f : Nat) (s : State) (w : TrimWrite) (h0 : Memory.wf s.mem.cells = true) :
    Memory.wf (recalDrifted f s w).mem.cells = true := by unfold recalDrifted; (try dsimp only); (repeat' split) <;> simp [*]

@[simp] theorem takeMet_mem (s : State) (x input : Nat) :
    (takeMet s x input).mem = s.mem := by unfold takeMet; (try dsimp only); (repeat' split) <;> simp [*]

/-! ### RegRead -/

@[simp] theorem putLatch_mem (s : State) (l : Latch) :
    (putLatch s l).mem = s.mem := by simp [putLatch]

@[simp] theorem setTorn_mem (s : State) (b : Blk) :
    (setTorn s b).mem = s.mem := by unfold setTorn; (try dsimp only); (repeat' split) <;> simp [*]

@[simp] theorem readLow_mem (s : State) (by_ : Requester) (b : Blk) (o : Nat) (view : View) :
    (readLow s by_ b o view).1.mem = s.mem := by simp [readLow]

@[simp] theorem readHigh_mem (s : State) (by_ : Requester) (b : Blk) (o : Nat) (view : View) :
    (readHigh s by_ b o view).1.mem = s.mem := by unfold readHigh; (try dsimp only); (repeat' split) <;> simp [*]

@[simp] theorem readFrac_mem (s : State) (by_ : Requester) (view : View) :
    (readFrac s by_ view).1.mem = s.mem := by unfold readFrac; (try dsimp only); (repeat' split) <;> simp [*]

@[simp] theorem read32_mem (s : State) (by_ : Requester) (off : Nat) : (read32 s by_ off).1.mem = s.mem := by
  unfold read32; dsimp only
  split
  · rfl
  · split
    · rfl
    · split
      · split
        · exact readLow_mem _ _ _ _ _
        · exact readHigh_mem _ _ _ _ _
      · split
        · exact readFrac_mem _ _ _
        · rfl

/-! ### RegOps -/

@[simp] theorem plainWrite_mem (s : State) (b : Blk) (o : Nat) (d : RDesc) (view : View) (v : Nat) :
    (plainWrite s b o d view v).mem = s.mem := by unfold plainWrite; (try dsimp only); (repeat' split) <;> simp [*]

@[simp] theorem clearBlockStat_mem (s : State) (b : Blk) (v : Nat) :
    (clearBlockStat s b v).mem = s.mem := by simp [clearBlockStat]

@[simp] theorem writeGlobal_mem (s : State) (o : Nat) (d : RDesc) (view : View) (v : Nat) :
    (writeGlobal s o d view v).mem = s.mem := by unfold writeGlobal; (try dsimp only); (repeat' split) <;> simp [*]

@[simp] theorem writeKeep_wf (s : State) (by_ : Requester) (o : Nat) (d : RDesc) (view : View) (v : Nat)
    (h0 : Memory.wf s.mem.cells = true) : Memory.wf (writeKeep s by_ o d view v).mem.cells = true := by
  unfold writeKeep
  split
  · split
    · exact keepCmd_wf _ _ _ (fun s h => keepDo_wf _ _ _ _ h) h0
    · exact h0
  · split
    · simp [h0]
    · simp [h0]

@[simp] theorem writePwr_wf (s : State) (by_ : Requester) (o : Nat) (d : RDesc) (view : View) (v : Nat)
    (h0 : Memory.wf s.mem.cells = true) : Memory.wf (writePwr s by_ o d view v).mem.cells = true := by
  unfold writePwr; dsimp only
  have hp : Memory.wf (plainWrite s .pwr o d view v).mem.cells = true := by simp [h0]
  split
  · exact domainCtl_wf _ _ _ _ hp
  · split
    · exact domainCtl_wf _ _ _ _ hp
    · exact hp

@[simp] theorem writeBelfry_mem (s : State) (o : Nat) (d : RDesc) (view : View) (v : Nat) :
    (writeBelfry s o d view v).mem = s.mem := by unfold writeBelfry; (try dsimp only); (repeat' split) <;> simp [*]

@[simp] theorem writeCadence_mem (s : State) (i o : Nat) (d : RDesc) (view : View) (v : Nat) :
    (writeCadence s i o d view v).mem = s.mem := by unfold writeCadence; (try dsimp only); (repeat' split) <;> simp [*]

@[simp] theorem writeSec_wf (s : State) (by_ : Requester) (o : Nat) (d : RDesc) (view : View) (v : Nat) (h0 : Memory.wf s.mem.cells = true) :
    Memory.wf (writeSec s by_ o d view v).mem.cells = true := by unfold writeSec; (try dsimp only); (repeat' split) <;> simp [*]

@[simp] theorem writeMet_wf (s : State) (x o : Nat) (d : RDesc) (view : View) (v : Nat) (h0 : Memory.wf s.mem.cells = true) :
    Memory.wf (writeMet s x o d view v).mem.cells = true := by unfold writeMet; (try dsimp only); (repeat' split) <;> simp [*]

@[simp] theorem writeFab_wf (s : State) (o : Nat) (d : RDesc) (view : View) (v : Nat) (h0 : Memory.wf s.mem.cells = true) :
    Memory.wf (writeFab s o d view v).mem.cells = true := by unfold writeFab; (try dsimp only); (repeat' split) <;> simp [*]

@[simp] theorem writeRoute_mem (s : State) (o : Nat) (d : RDesc) (view : View) (v : Nat) :
    (writeRoute s o d view v).mem = s.mem := by unfold writeRoute; (try dsimp only); (repeat' split) <;> simp [*]

@[simp] theorem writeInst_wf (s : State) (n o : Nat) (view : View) (v : Nat) (h0 : Memory.wf s.mem.cells = true) :
    Memory.wf (writeInst s n o view v).mem.cells = true := by unfold writeInst; (try dsimp only); (repeat' split) <;> simp [*]

@[simp] theorem takeWrite_wf (s : State) (by_ : Requester) (b : Blk) (o : Nat) (view : View) (v : Nat) (h0 : Memory.wf s.mem.cells = true) :
    Memory.wf (takeWrite s by_ b o view v).mem.cells = true := by unfold takeWrite; (try dsimp only); (repeat' split) <;> simp [*]

@[simp] theorem writeReg_wf (s : State) (by_ : Requester) (b : Blk) (o : Nat) (view : View) (v : Nat) (h0 : Memory.wf s.mem.cells = true) :
    Memory.wf (writeReg s by_ b o view v).mem.cells = true := by unfold writeReg; (try dsimp only); (repeat' split) <;> simp (disch := (intros; (try dsimp only); (repeat' split) <;> (try simp [*]))) [*]

@[simp] theorem holdLow_mem (s : State) (by_ : Requester) (b : Blk) (o : Nat) (view : View) (v : W32) :
    (holdLow s by_ b o view v).mem = s.mem := by simp [holdLow]

@[simp] theorem dropLatch_mem (s : State) (by_ : Requester) (b : Blk) :
    (dropLatch s by_ b).mem = s.mem := by simp [dropLatch]

@[simp] theorem writeHigh_wf (s : State) (by_ : Requester) (b : Blk) (o : Nat) (view : View) (v : W32) (h0 : Memory.wf s.mem.cells = true) :
    Memory.wf (writeHigh s by_ b o view v).mem.cells = true := by unfold writeHigh; (try dsimp only); (repeat' split) <;> simp [*]

@[simp] theorem write4_wf (s : State) (by_ : Requester) (b : Blk) (off : Nat) (v : W32) (h0 : Memory.wf s.mem.cells = true) :
    Memory.wf (write4 s by_ b off v).mem.cells = true := by
  unfold write4; dsimp only
  split
  · split
    · rw [holdLow_mem]; exact h0
    · exact writeHigh_wf _ _ _ _ _ _ h0
  · exact writeReg_wf _ _ _ _ _ _ h0

@[simp] theorem writeBar0_wf (s : State) (by_ : Requester) (off size : Nat) (v : W64) (h0 : Memory.wf s.mem.cells = true) :
    Memory.wf (writeBar0 s by_ off size v).mem.cells = true := by
  unfold writeBar0
  split
  · exact h0
  · refine orderTo_wf _ _ _ _ ?_ h0
    intro s h
    split
    · exact write4_wf _ _ _ _ _ h
    · split
      · split
        · exact writeReg_wf _ _ _ _ _ _ h
        · exact write4_wf _ _ _ _ _ (write4_wf _ _ _ _ _ h)
      · exact h

@[simp] theorem pageWrite64_mem (s : State) (by_ inst : Inst) (off : Nat) (old v : W64) (high whole : Bool) (f : State → W64 → State) (hf : ∀ s x1, (f s x1).mem = s.mem) :
    (pageWrite64 s by_ inst off old v high whole f).mem = s.mem := by unfold pageWrite64; (try dsimp only); (repeat' split) <;> simp [*]

@[simp] theorem writePage_wf (s : State) (by_ inst : Inst) (off size : Nat) (v : W64) (h0 : Memory.wf s.mem.cells = true) :
    Memory.wf (writePage s by_ inst off size v).mem.cells = true := by unfold writePage; (try dsimp only); (repeat' split) <;> simp [*]





end Sys2Proof.Machine
end

