-- ==== Sys2Proof/Laws/Checkpoint.lean ====
section
/-! SUPPORT. Bytes that are read where they were written, and the checkpoint that a thread's writing of one leaves
(R332, R397). -/

namespace Sys2Proof.Machine

open Sys2Proof

theorem upFrom_getElem? (a n k : Nat) : (upFrom a n)[k]? = if k < n then some (a + k) else none := by
  induction n generalizing a k with
  | zero => simp [upFrom]
  | succ n ih =>
    cases k with
    | zero => simp [upFrom]
    | succ k => simp [upFrom, ih, Nat.add_assoc, Nat.add_comm 1 k]

/-- A list that is stored to stacked memory in service is what is read there. -/
theorem rdBytes_of_get (s : State) (a : Nat) (l : List Byte) (ha : a + l.length ≤ stackedEnd)
    (h : ∀ k, k < l.length → cellGet s.mem.cells (a + k) = l.getD k 0) : rdBytes s a l.length = l := by
  apply List.ext_getElem?
  intro k
  rw [rdBytes, List.getElem?_map, upFrom_getElem?]
  by_cases hk : k < l.length
  · have hs : isStacked (a + k) = true := by simp only [isStacked, decide_eq_true_eq]; omega
    rw [if_pos hk, Option.map_some, rdByte, if_pos hs, h k hk, List.getElem?_eq_getElem hk, List.getD_eq_getElem?_getD,
      List.getElem?_eq_getElem hk]
    rfl
  · rw [if_neg hk, List.getElem?_eq_none (by omega)]; rfl

@[simp] theorem length_padTo (n : Nat) (l : List Byte) : (padTo n l).length = n := by
  simp [padTo]

theorem length_flatMap_upFrom (f : Nat → List Byte) (k : Nat) (h : ∀ x, (f x).length = k) (a n : Nat) :
    ((upFrom a n).flatMap f).length = k * n := by
  induction n generalizing a with
  | zero => rfl
  | succ n ih => rw [upFrom, List.flatMap_cons, List.length_append, h, ih, Nat.mul_succ, Nat.add_comm]

@[simp] theorem length_ctxBytes (t : Nat) (th : Thread) : (ctxBytes t th).length = 0x290 := by
  unfold ctxBytes
  generalize hl : ((upFrom 0 64).flatMap fun r => toBytes (gRd th (BitVec.ofNat 6 r)).toNat 8) = l
  have h : l.length = 8 * 64 := by rw [← hl]; exact length_flatMap_upFrom _ 8 (fun x => length_toBytes _ 8) 0 64
  simp only [List.length_append, h, length_toBytes, List.length_cons, List.length_nil]

/-- The bytes of a slot before its CRC. -/
def slotHead (s : State) (t : Nat) (th : Thread) : List Byte :=
  ctxBytes t th ++ toBytes th.step.toNat 8 ++ toBytes (nsNow s) 8 ++ [BitVec.ofNat 8 (sessionCount s th)] ++ toBytes 0 3

/-- The bytes of a slot after its CRC. -/
def slotTail (s : State) (th : Thread) : List Byte :=
  padTo (0x800 - 0x2A8) (toBytes 0 24 ++ (upFrom 0 (sessionCount s th)).flatMap (sessionBytes s th))

theorem slotBytes_eq (s : State) (t : Nat) (th : Thread) : slotBytes s t th =
    slotHead s t th ++ toBytes (crc32c (slotHead s t th ++ toBytes 0 4 ++ slotTail s th)).toNat 4 ++ slotTail s th := rfl

theorem length_slotHead (s : State) (t : Nat) (th : Thread) : (slotHead s t th).length = 0x2A4 := by
  simp [slotHead]

theorem length_slotTail (s : State) (th : Thread) : (slotTail s th).length = 0x558 := length_padTo _ _

@[simp] theorem length_slotBytes (s : State) (t : Nat) (th : Thread) : (slotBytes s t th).length = 2048 := by
  rw [slotBytes_eq, List.length_append, List.length_append, length_slotHead, length_slotTail, length_toBytes]

/-- A list with a checksum of four bytes in it passes its check. -/
theorem crc_passes (a b : List Byte) (c : W32) (ha : a.length = 0x2A4) :
    (a ++ toBytes c.toNat 4 ++ b).take 0x2A4 = a ∧ (a ++ toBytes c.toNat 4 ++ b).drop 0x2A8 = b ∧
      at_ (a ++ toBytes c.toNat 4 ++ b) 0x2A4 4 = c.toNat := by
  refine ⟨?_, ?_, ?_⟩
  · rw [List.append_assoc, List.take_append_of_le_length (by omega), ← ha, List.take_length]
  · rw [List.drop_append, List.drop_eq_nil_of_le (by simp [ha]), List.nil_append,
      show 0x2A8 - (a ++ toBytes c.toNat 4).length = 0 by simp [ha], List.drop_zero]
  · unfold at_
    rw [List.append_assoc, List.drop_append, List.drop_eq_nil_of_le (by omega), List.nil_append, ha, Nat.sub_self,
      List.drop_zero, List.take_append_of_le_length (by simp), List.take_of_length_le (by simp), ofBytes_toBytes]
    exact Nat.mod_eq_of_lt c.isLt

/-- A slot that holds a checkpoint and reads without error is a valid copy. -/
theorem ckptCopy_slot (s u : State) (a t : Nat) (th : Thread) (hb : rangeBad s a 2048 = false)
    (h : rdBytes s a 2048 = slotBytes u t th) : ckptCopy s a = some (slotBytes u t th) := by
  unfold ckptCopy
  rw [hb, if_neg Bool.false_ne_true]
  dsimp only
  rw [h, slotBytes_eq]
  obtain ⟨h1, h2, h3⟩ := crc_passes (slotHead u t th) (slotTail u th)
    (crc32c (slotHead u t th ++ toBytes 0 4 ++ slotTail u th)) (length_slotHead u t th)
  rw [h1, h2, h3, if_pos rfl]

/-- With the same checkpoint in both copies, that one is in force. -/
theorem checkpoint_both (s u : State) (t : Nat) (th : Thread) (ht : t < 0x20000)
    (hp : ckptCopy s (ckptBase + t * 2048) = some (slotBytes u t th))
    (hm : ckptCopy s ((mirrorBase + t * 2048) ^^^ 0x20000) = some (slotBytes u t th)) :
    checkpoint s t = some (slotBytes u t th) := by
  unfold checkpoint
  rw [if_pos ht, hp, hm]
  dsimp only
  rw [if_neg (Nat.lt_irrefl _)]

end Sys2Proof.Machine
end

