-- ==== Sys2Proof/Laws/Issue.lean ====
section
/-! SUPPORT. What issuing an instruction word does, said once: the fetch, the checks of R195, and the retirement with a g
register, a p register or a float result written; and the entry into a handler. -/

namespace Sys2Proof.Safety

open Sys2Proof Sys2Proof.Machine

/-! ## Registers -/

/-- A g register reads as it was written, and g0 as 0. -/
theorem gRd_gWr (th : Thread) (d r : GReg) (v : W64) :
    gRd (gWr th d v) r = if r = d ∧ r ≠ 0 then v else gRd th r := by
  unfold gRd gWr
  by_cases hd : d = 0
  · subst hd; by_cases hr : r = 0 <;> simp [hr]
  · by_cases hr : r = 0
    · simp [hr]
    · have : r.toNat = d.toNat ↔ r = d := BitVec.toNat_inj
      simp only [hd, hr, if_false, ne_eq, not_false_eq_true, and_true]
      rw [tabGet_tabPut]
      simp only [this]

/-- A p register reads as it was written, and p0 as 1. -/
theorem pRd_pWr (th : Thread) (p q : PReg) (v : Bool) :
    pRd (pWr th p v) q = if q = p ∧ q ≠ 0 then v else pRd th q := by
  have hb : (BitVec.ofNat 8 (2 ^ p.toNat)).getLsbD q.toNat = decide (q = p) := by
    have : ∀ p q : PReg, (BitVec.ofNat 8 (2 ^ p.toNat)).getLsbD q.toNat = decide (q = p) := by decide
    exact this p q
  have hq8 : q.toNat < 8 := q.isLt
  unfold pRd pWr
  by_cases hp : p = 0
  · subst hp; by_cases hq : q = 0 <;> simp [hq]
  · by_cases hq : q = 0
    · simp [hq]
    · cases v <;> by_cases e : q = p <;>
        simp_all [BitVec.getLsbD_or, BitVec.getLsbD_and, BitVec.getLsbD_not]

@[simp] theorem core_gWr (th : Thread) (d : GReg) (v : W64) : core (gWr th d v) = core th := by
  unfold gWr core; split <;> rfl
@[simp] theorem core_retired (th : Thread) : core (retired th) = core th := rfl
@[simp] theorem gRd_retired (th : Thread) (r : GReg) : gRd (retired th) r = gRd th r := rfl
@[simp] theorem pRd_retired (th : Thread) (p : PReg) : pRd (retired th) p = pRd th p := rfl
@[simp] theorem gRd_orFlags (th : Thread) (f : BitVec 4) (r : GReg) : gRd (orFlags th f) r = gRd th r := rfl
@[simp] theorem gRd_pWr (th : Thread) (p : PReg) (v : Bool) (r : GReg) : gRd (pWr th p v) r = gRd th r := by
  unfold pWr; split <;> rfl
@[simp] theorem gWr_pc (th : Thread) (d : GReg) (v : W64) : (gWr th d v).pc = th.pc := by unfold gWr; split <;> rfl
@[simp] theorem gWr_retired (th : Thread) (d : GReg) (v : W64) : (gWr th d v).retired = th.retired := by
  unfold gWr; split <;> rfl
@[simp] theorem pWr_pc (th : Thread) (p : PReg) (v : Bool) : (pWr th p v).pc = th.pc := by unfold pWr; split <;> rfl
@[simp] theorem pWr_retired (th : Thread) (p : PReg) (v : Bool) : (pWr th p v).retired = th.retired := by
  unfold pWr; split <;> rfl
theorem core_pWr (th : Thread) (p : PReg) (v : Bool) : core (pWr th p v) = { core th with pred := (pWr th p v).pred } := by
  unfold pWr core; split <;> rfl

/-! ## The fetch -/

/-- A fetch changes no thread. -/
@[simp] theorem getThr_fetched (s : State) (t u : Nat) : getThr (fetched s t) u = getThr s u := by
  unfold fetched tookTurn; dsimp only; (repeat' split) <;> rfl

/-- What a fetch leaves as it was. -/
theorem fetched_frame (s : State) (t : Tid) : ThreadFrame s (fetched s t.toNat) t where
  elsewhere := by constructor <;> (unfold fetched tookTurn; dsimp only; (repeat' split) <;> rfl)
  threads u _ := getThr_fetched s _ u
  cores c := by
    have key : ∀ (u : State) (k : Nat) (l : List Nat),
        { getCore (setCore u k { getCore u k with icache := l }) c with icache := [], turn := none } =
          { getCore u c with icache := [], turn := none } := by
      intro u k l; rw [getCore_setCore]; split
      · subst_vars; rfl
      · rfl
    have turn : { getCore (tookTurn s t.toNat) c with icache := [], turn := none } =
        { getCore s c with icache := [], turn := none } := by
      unfold tookTurn; split
      · rfl
      · dsimp only; rw [getCore_setCore]; split
        · subst_vars; rfl
        · rfl
    refine Eq.trans ?_ turn
    unfold fetched; dsimp only
    (repeat' split) <;> first | rfl | exact key _ _ _ | skip
    all_goals exact key { tookTurn s t.toNat with free := (tookTurn s t.toNat).free + 1 } _ _
  rings := by unfold fetched tookTurn; dsimp only; (repeat' split) <;> rfl
  gsteps := by unfold fetched tookTurn; dsimp only; (repeat' split) <;> rfl

/-- What a fetch followed by a change of the thread itself leaves as it was. -/
theorem fetched_setThr_frame (s : State) (t : Tid) (th : Thread) :
    ThreadFrame s (setThr (fetched s t.toNat) t.toNat th) t where
  elsewhere := have h := (fetched_frame s t).elsewhere; ⟨h.1, h.2, h.3, h.4, h.5, h.6, h.7, h.8, h.9, h.10, h.11, h.12, h.13, h.14, h.15, h.16⟩
  threads u hu := by rw [getThr_setThr_other _ _ _ _ hu, getThr_fetched]
  cores c := (fetched_frame s t).cores c
  rings := (fetched_frame s t).rings
  gsteps := (fetched_frame s t).gsteps

/-! ## The checks of R195 -/

/-- A word that issues has its effect on the state after the fetch. -/
theorem issueWord_issues {s : State} {t : Tid} {g : Guard} (h : Issues s t g) (op : Nat) (u : W32) (p : Priv)
    (hp : hasPriv (getThr s t.toNat) p = true) (body : State → State) :
    issueWord s t g op u false p body = body (fetched s t.toNat) := by
  obtain ⟨h1, h2, h3⟩ := h
  simp [issueWord, h1, h2, hp, h3]

/-- A word whose guard is false retires. -/
theorem issueWord_guard_false {s : State} {t : Tid} {g : Guard} (h1 : canIssue s t.toNat = true)
    (h2 : fetchFault s t.toNat = none) (h3 : guardOf (getThr s t.toNat) g = false) (op : Nat) (u : W32) (p : Priv)
    (hp : hasPriv (getThr s t.toNat) p = true) (body : State → State) :
    issueWord s t g op u false p body = setThr (fetched s t.toNat) t.toNat (retired (getThr s t.toNat)) := by
  simp [issueWord, h1, h2, hp, h3]

/-- An undefined word raises ILLEGAL, whatever its guard and its privilege. -/
theorem issueWord_illegal {s : State} {t : Tid} (h1 : canIssue s t.toNat = true) (h2 : fetchFault s t.toNat = none)
    (g : Guard) (op : Nat) (u : W32) (p : Priv) (body : State → State) :
    issueWord s t g op u true p body = except (fetched s t.toNat) t.toNat 0x01 0 u := by
  simp [issueWord, h1, h2]

/-- A privileged word of a thread without the privilege raises PRIV, whatever its guard. -/
theorem issueWord_priv {s : State} {t : Tid} (h1 : canIssue s t.toNat = true) (h2 : fetchFault s t.toNat = none)
    (g : Guard) (op : Nat) (u : W32) (p : Priv) (hp : hasPriv (getThr s t.toNat) p = false) (body : State → State) :
    issueWord s t g op u false p body = except (fetched s t.toNat) t.toNat 0x02 0 (BitVec.ofNat 32 op) := by
  simp [issueWord, h1, h2, hp]

/-- A word of a thread that cannot issue has no effect. -/
theorem issueWord_cannot {s : State} {t : Tid} (h : canIssue s t.toNat = false) (g : Guard) (op : Nat) (u : W32)
    (x : Bool) (p : Priv) (body : State → State) : issueWord s t g op u x p body = s := by
  simp [issueWord, h]

/-! ## Retirement with a result -/

/-- A command whose meaning is `issueG` writes its g register. -/
theorem gWrites_of_issueG {c : Instr} {s : State} {t : Tid} {g : Guard} {d a : GReg} {b : Src} {op : Nat}
    {f : Thread → W64} {v : W64} (hc : exec c s = .next (issueG s t g op d a b f)) (h : Issues s t g)
    (hv : f (getThr s t.toNat) = v) : GWrites c s t d v := by
  subst hv
  refine ⟨_, hc, ?_⟩
  rw [issueG, issuePlain, issueWord_issues h _ _ _ rfl, retireG, getThr_fetched]
  refine ⟨fetched_setThr_frame s t _, ?_, ?_, fun r => ?_⟩
  · rw [getThr_setThr_same]; exact ⟨by simp [retired], by simp [retired]⟩
  · rw [getThr_setThr_same, core_retired, core_gWr]
  · rw [getThr_setThr_same, gRd_retired, gRd_gWr]

/-- A command whose meaning is `issueP` writes its p register. -/
theorem pWrites_of_issueP {c : Instr} {s : State} {t : Tid} {g : Guard} {p : PReg} {op : Nat} {u : W32}
    {f : Thread → Bool} {v : Bool} (hc : exec c s = .next (issueP s t g op p u f)) (h : Issues s t g)
    (hv : f (getThr s t.toNat) = v) : PWrites c s t p v := by
  subst hv
  refine ⟨_, hc, ?_⟩
  rw [issueP, issuePlain, issueWord_issues h _ _ _ rfl, retireP, getThr_fetched]
  refine ⟨fetched_setThr_frame s t _, ?_, ?_, fun r => ?_, fun q => ?_⟩
  · rw [getThr_setThr_same]; exact ⟨by simp [retired], by simp [retired]⟩
  · rw [getThr_setThr_same, core_retired, core_pWr]; rfl
  · rw [getThr_setThr_same, gRd_retired, gRd_pWr]
  · rw [getThr_setThr_same, pRd_retired, pRd_pWr]

/-- A command whose meaning is `issueF` writes its float result and ORs its flags into c8. -/
theorem fWrites_of_issueF {c : Instr} {s : State} {t : Tid} {g : Guard} {d a b : GReg} {op : Nat}
    {f : W32 → W32 → Fv} {r : Fv} (hc : exec c s = .next (issueF s t g op d a b f)) (h : Issues s t g)
    (hr : f ((gRd (getThr s t.toNat) a).setWidth 32) ((gRd (getThr s t.toNat) b).setWidth 32) = r) :
    FWrites c s t d r.v r.f := by
  subst hr
  refine ⟨_, hc, ?_⟩
  rw [issueF, issuePlain, issueWord_issues h _ _ _ rfl]
  dsimp only
  rw [getThr_fetched]
  refine ⟨fetched_setThr_frame s t _, ?_, ?_, fun r => ?_⟩
  · rw [getThr_setThr_same]; exact ⟨by simp [retired, orFlags], by simp [retired, orFlags]⟩
  · rw [getThr_setThr_same, core_retired]; unfold gWr orFlags core; split <;> rfl
  · rw [getThr_setThr_same, gRd_retired, gRd_orFlags, gRd_gWr]

/-! ## Exceptions (R189) -/

@[simp] theorem getThr_drainEntry (c : Nat) (s : State) (e : StoreEntry) (u : Nat) :
    getThr (drainEntry c s e) u = getThr s u := by
  have hm : ∀ (i : Inst) (a n v : Nat), (wrNat s i a n v).mbx = s.mbx := fun i a n v => (wrNat_frame s i a n v).2.2.2.2.1
  unfold drainEntry; dsimp only; split
  · exact getThr_of_mbx (hm _ _ _ _) u
  · exact getThr_of_mbx (hm _ _ _ _) u

theorem getThr_drain (c : Nat) (l : List StoreEntry) (s : State) (u : Nat) :
    getThr (l.foldl (drainEntry c) s) u = getThr s u := by
  induction l generalizing s with
  | nil => rfl
  | cons e r ih => rw [List.foldl_cons, ih, getThr_drainEntry]

/-- A release changes no thread. -/
@[simp] theorem getThr_release (s : State) (t u : Nat) : getThr (release s t) u = getThr s u := by
  unfold release; dsimp only; split
  · rfl
  · rw [getThr_drain]; rfl

/-- An acquire changes no thread. -/
@[simp] theorem getThr_acquire (s : State) (t u : Nat) : getThr (acquire s t) u = getThr s u := by
  unfold acquire; split <;> rfl

/-- A thread that has a handler and is not in it enters it. -/
theorem except_canEnter {s : State} {t : Nat} (h : CanEnter (getThr s t)) (code : Nat) (addr : W64) (info : W32) :
    except s t code addr info = enterHandler s t code addr info := by
  have hn : ¬((getThr s t).handler = 0 ∨ (getThr s t).inHandler = true) := by
    rintro (e | e)
    · exact h.1 e
    · rw [h.2] at e; cases e
  unfold except raiseExc; dsimp only; rw [if_neg hn]

/-- A thread that has no handler, or is in it, is ended. -/
theorem except_cannotEnter {s : State} {t : Nat} (h : ¬CanEnter (getThr s t)) (code : Nat) (addr : W64) (info : W32) :
    except s t code addr info = killThread counterAdd s t code addr info := by
  have : (getThr s t).handler = 0 ∨ (getThr s t).inHandler = true := by
    by_cases e : (getThr s t).handler = 0
    · exact .inl e
    · cases e' : (getThr s t).inHandler
      · exact absurd ⟨e, e'⟩ h
      · exact .inr rfl
  unfold except raiseExc; dsimp only; rw [if_pos this]

/-- A HOT thread that enters its handler has its exception registers set and stays HOT. -/
theorem enterHandler_hot {s : State} {t : Nat} (h : (getThr s t).st = .hot) (code : Nat) (addr : W64) (info : W32) :
    Entered (getThr s t) (getThr (enterHandler s t code addr info) t) (BitVec.ofNat 8 code) addr info ∧
      (getThr (enterHandler s t code addr info) t).st = .hot := by
  unfold enterHandler; simp [h, Entered]

/-- A HOT thread's entry into its handler changes no other thread. -/
theorem enterHandler_other {s : State} {t u : Nat} (h : (getThr s t).st = .hot) (hu : u ≠ t) (code : Nat) (addr : W64)
    (info : W32) : getThr (enterHandler s t code addr info) u = getThr s u := by
  unfold enterHandler; simp [h, getThr_setThr_other, hu]

end Sys2Proof.Safety
end

