-- ==== Sys2Proof/Laws/PerInstr.lean ====
section
/-! SUPPORT. For every command: the frame that a well-formed one carries, if it carries one, has the payload its LEN field
says, of at most 1,024 bytes (R309). -/

namespace Sys2Proof.Laws

open Sys2Proof

/-- The fabric frame that a command delivers. -/
def frameOf : Instr → Option Frame
  | .write _ f => some f
  | .read _ f => some f
  | .atomic _ f _ => some f
  | .ack _ f _ => some f
  | .nak _ f _ => some f
  | .readData _ f => some f
  | .atomicData _ f => some f
  | .collPull _ f _ => some f
  | .collData _ f => some f
  | .arrive _ f _ => some f
  | .release _ f _ => some f
  | .abort _ f _ => some f
  | .time _ f _ => some f
  | .delayReq _ f _ => some f
  | .delayResp _ f _ => some f
  | .armed _ f _ => some f
  | .notArmed _ f _ => some f
  | .go _ f _ => some f
  | .nogo _ f _ => some f
  | .noVerdict _ f _ => some f
  | .outcome _ f _ => some f
  | .ident _ f _ => some f
  | _ => none

namespace Framed

/-- A well-formed command that carries a frame carries a legal one. -/
def Statement (i : Instr) : Prop :=
  WellFormed i = true → ∀ f, frameOf i = some f → f.payload.length = f.len.toNat ∧ f.payload.length ≤ 1024

theorem of_none {i : Instr} (h : frameOf i = none) : Statement i := fun _ f hf => by rw [h] at hf; cases hf

theorem of_some {i : Instr} {f : Frame} (h : frameOf i = some f) (hw : WellFormed i = true → frameOk f = true) : Statement i := by
  intro w g hg
  rw [h] at hg
  cases hg
  simpa [frameOk] using hw w

end Framed

theorem Framed.add x0 x1 x2 x3 x4 : Framed.Statement (.add x0 x1 x2 x3 x4) := Framed.of_none rfl
theorem Framed.sub x0 x1 x2 x3 x4 : Framed.Statement (.sub x0 x1 x2 x3 x4) := Framed.of_none rfl
theorem Framed.mul x0 x1 x2 x3 x4 : Framed.Statement (.mul x0 x1 x2 x3 x4) := Framed.of_none rfl
theorem Framed.mulh x0 x1 x2 x3 x4 x5 : Framed.Statement (.mulh x0 x1 x2 x3 x4 x5) := Framed.of_none rfl
theorem Framed.div x0 x1 x2 x3 x4 x5 : Framed.Statement (.div x0 x1 x2 x3 x4 x5) := Framed.of_none rfl
theorem Framed.rem x0 x1 x2 x3 x4 x5 : Framed.Statement (.rem x0 x1 x2 x3 x4 x5) := Framed.of_none rfl
theorem Framed.and x0 x1 x2 x3 x4 : Framed.Statement (.and x0 x1 x2 x3 x4) := Framed.of_none rfl
theorem Framed.or x0 x1 x2 x3 x4 : Framed.Statement (.or x0 x1 x2 x3 x4) := Framed.of_none rfl
theorem Framed.xor x0 x1 x2 x3 x4 : Framed.Statement (.xor x0 x1 x2 x3 x4) := Framed.of_none rfl
theorem Framed.shl x0 x1 x2 x3 x4 : Framed.Statement (.shl x0 x1 x2 x3 x4) := Framed.of_none rfl
theorem Framed.shr x0 x1 x2 x3 x4 : Framed.Statement (.shr x0 x1 x2 x3 x4) := Framed.of_none rfl
theorem Framed.sha x0 x1 x2 x3 x4 : Framed.Statement (.sha x0 x1 x2 x3 x4) := Framed.of_none rfl
theorem Framed.min x0 x1 x2 x3 x4 : Framed.Statement (.min x0 x1 x2 x3 x4) := Framed.of_none rfl
theorem Framed.max x0 x1 x2 x3 x4 : Framed.Statement (.max x0 x1 x2 x3 x4) := Framed.of_none rfl
theorem Framed.minu x0 x1 x2 x3 x4 : Framed.Statement (.minu x0 x1 x2 x3 x4) := Framed.of_none rfl
theorem Framed.maxu x0 x1 x2 x3 x4 : Framed.Statement (.maxu x0 x1 x2 x3 x4) := Framed.of_none rfl
theorem Framed.sel x0 x1 x2 x3 x4 x5 : Framed.Statement (.sel x0 x1 x2 x3 x4 x5) := Framed.of_none rfl
theorem Framed.clz x0 x1 x2 x3 : Framed.Statement (.clz x0 x1 x2 x3) := Framed.of_none rfl
theorem Framed.ctz x0 x1 x2 x3 : Framed.Statement (.ctz x0 x1 x2 x3) := Framed.of_none rfl
theorem Framed.popc x0 x1 x2 x3 : Framed.Statement (.popc x0 x1 x2 x3) := Framed.of_none rfl
theorem Framed.addpc x0 x1 x2 x3 : Framed.Statement (.addpc x0 x1 x2 x3) := Framed.of_none rfl
theorem Framed.cmpEq x0 x1 x2 x3 x4 : Framed.Statement (.cmpEq x0 x1 x2 x3 x4) := Framed.of_none rfl
theorem Framed.cmpNe x0 x1 x2 x3 x4 : Framed.Statement (.cmpNe x0 x1 x2 x3 x4) := Framed.of_none rfl
theorem Framed.cmpLt x0 x1 x2 x3 x4 : Framed.Statement (.cmpLt x0 x1 x2 x3 x4) := Framed.of_none rfl
theorem Framed.cmpLe x0 x1 x2 x3 x4 : Framed.Statement (.cmpLe x0 x1 x2 x3 x4) := Framed.of_none rfl
theorem Framed.cmpLtu x0 x1 x2 x3 x4 : Framed.Statement (.cmpLtu x0 x1 x2 x3 x4) := Framed.of_none rfl
theorem Framed.cmpLeu x0 x1 x2 x3 x4 : Framed.Statement (.cmpLeu x0 x1 x2 x3 x4) := Framed.of_none rfl
theorem Framed.pand x0 x1 x2 x3 x4 : Framed.Statement (.pand x0 x1 x2 x3 x4) := Framed.of_none rfl
theorem Framed.por x0 x1 x2 x3 x4 : Framed.Statement (.por x0 x1 x2 x3 x4) := Framed.of_none rfl
theorem Framed.pxor x0 x1 x2 x3 x4 : Framed.Statement (.pxor x0 x1 x2 x3 x4) := Framed.of_none rfl
theorem Framed.pandn x0 x1 x2 x3 x4 : Framed.Statement (.pandn x0 x1 x2 x3 x4) := Framed.of_none rfl
theorem Framed.moviL x0 x1 x2 x3 : Framed.Statement (.moviL x0 x1 x2 x3) := Framed.of_none rfl
theorem Framed.moviH x0 x1 x2 x3 : Framed.Statement (.moviH x0 x1 x2 x3) := Framed.of_none rfl
theorem Framed.fadd x0 x1 x2 x3 x4 : Framed.Statement (.fadd x0 x1 x2 x3 x4) := Framed.of_none rfl
theorem Framed.fsub x0 x1 x2 x3 x4 : Framed.Statement (.fsub x0 x1 x2 x3 x4) := Framed.of_none rfl
theorem Framed.fmul x0 x1 x2 x3 x4 : Framed.Statement (.fmul x0 x1 x2 x3 x4) := Framed.of_none rfl
theorem Framed.fdiv x0 x1 x2 x3 x4 : Framed.Statement (.fdiv x0 x1 x2 x3 x4) := Framed.of_none rfl
theorem Framed.fsqrt x0 x1 x2 x3 : Framed.Statement (.fsqrt x0 x1 x2 x3) := Framed.of_none rfl
theorem Framed.fmin x0 x1 x2 x3 x4 : Framed.Statement (.fmin x0 x1 x2 x3 x4) := Framed.of_none rfl
theorem Framed.fmax x0 x1 x2 x3 x4 : Framed.Statement (.fmax x0 x1 x2 x3 x4) := Framed.of_none rfl
theorem Framed.fabs x0 x1 x2 x3 : Framed.Statement (.fabs x0 x1 x2 x3) := Framed.of_none rfl
theorem Framed.fneg x0 x1 x2 x3 : Framed.Statement (.fneg x0 x1 x2 x3) := Framed.of_none rfl
theorem Framed.fcmpEq x0 x1 x2 x3 x4 : Framed.Statement (.fcmpEq x0 x1 x2 x3 x4) := Framed.of_none rfl
theorem Framed.fcmpLt x0 x1 x2 x3 x4 : Framed.Statement (.fcmpLt x0 x1 x2 x3 x4) := Framed.of_none rfl
theorem Framed.fcmpLe x0 x1 x2 x3 x4 : Framed.Statement (.fcmpLe x0 x1 x2 x3 x4) := Framed.of_none rfl
theorem Framed.fcmpUn x0 x1 x2 x3 x4 : Framed.Statement (.fcmpUn x0 x1 x2 x3 x4) := Framed.of_none rfl
theorem Framed.cvt x0 x1 x2 x3 x4 x5 : Framed.Statement (.cvt x0 x1 x2 x3 x4 x5) := Framed.of_none rfl
theorem Framed.undefinedInstruction x0 x1 : Framed.Statement (.undefinedInstruction x0 x1) := Framed.of_none rfl
theorem Framed.ld x0 x1 x2 x3 x4 x5 x6 : Framed.Statement (.ld x0 x1 x2 x3 x4 x5 x6) := Framed.of_none rfl
theorem Framed.st x0 x1 x2 x3 x4 x5 : Framed.Statement (.st x0 x1 x2 x3 x4 x5) := Framed.of_none rfl
theorem Framed.prefetch x0 x1 x2 x3 : Framed.Statement (.prefetch x0 x1 x2 x3) := Framed.of_none rfl
theorem Framed.amoAdd x0 x1 x2 x3 x4 x5 : Framed.Statement (.amoAdd x0 x1 x2 x3 x4 x5) := Framed.of_none rfl
theorem Framed.amoSwap x0 x1 x2 x3 x4 x5 : Framed.Statement (.amoSwap x0 x1 x2 x3 x4 x5) := Framed.of_none rfl
theorem Framed.amoCas x0 x1 x2 x3 x4 x5 : Framed.Statement (.amoCas x0 x1 x2 x3 x4 x5) := Framed.of_none rfl
theorem Framed.amoAnd x0 x1 x2 x3 x4 x5 : Framed.Statement (.amoAnd x0 x1 x2 x3 x4 x5) := Framed.of_none rfl
theorem Framed.amoOr x0 x1 x2 x3 x4 x5 : Framed.Statement (.amoOr x0 x1 x2 x3 x4 x5) := Framed.of_none rfl
theorem Framed.amoXor x0 x1 x2 x3 x4 x5 : Framed.Statement (.amoXor x0 x1 x2 x3 x4 x5) := Framed.of_none rfl
theorem Framed.amoMin x0 x1 x2 x3 x4 x5 : Framed.Statement (.amoMin x0 x1 x2 x3 x4 x5) := Framed.of_none rfl
theorem Framed.amoMax x0 x1 x2 x3 x4 x5 : Framed.Statement (.amoMax x0 x1 x2 x3 x4 x5) := Framed.of_none rfl
theorem Framed.amoMinu x0 x1 x2 x3 x4 x5 : Framed.Statement (.amoMinu x0 x1 x2 x3 x4 x5) := Framed.of_none rfl
theorem Framed.amoMaxu x0 x1 x2 x3 x4 x5 : Framed.Statement (.amoMaxu x0 x1 x2 x3 x4 x5) := Framed.of_none rfl
theorem Framed.fence x0 x1 : Framed.Statement (.fence x0 x1) := Framed.of_none rfl
theorem Framed.fenceR x0 x1 : Framed.Statement (.fenceR x0 x1) := Framed.of_none rfl
theorem Framed.fenceA x0 x1 : Framed.Statement (.fenceA x0 x1) := Framed.of_none rfl
theorem Framed.fenceI x0 x1 : Framed.Statement (.fenceI x0 x1) := Framed.of_none rfl
theorem Framed.br x0 x1 x2 : Framed.Statement (.br x0 x1 x2) := Framed.of_none rfl
theorem Framed.brl x0 x1 x2 x3 : Framed.Statement (.brl x0 x1 x2 x3) := Framed.of_none rfl
theorem Framed.jr x0 x1 x2 x3 x4 : Framed.Statement (.jr x0 x1 x2 x3 x4) := Framed.of_none rfl
theorem Framed.exit x0 x1 x2 x3 : Framed.Statement (.exit x0 x1 x2 x3) := Framed.of_none rfl
theorem Framed.nop x0 x1 : Framed.Statement (.nop x0 x1) := Framed.of_none rfl
theorem Framed.step x0 x1 : Framed.Statement (.step x0 x1) := Framed.of_none rfl
theorem Framed.yield x0 x1 : Framed.Statement (.yield x0 x1) := Framed.of_none rfl
theorem Framed.eret x0 x1 : Framed.Statement (.eret x0 x1) := Framed.of_none rfl
theorem Framed.eretSkip x0 x1 : Framed.Statement (.eretSkip x0 x1) := Framed.of_none rfl
theorem Framed.eretTo x0 x1 x2 : Framed.Statement (.eretTo x0 x1 x2) := Framed.of_none rfl
theorem Framed.brk x0 x1 x2 : Framed.Statement (.brk x0 x1 x2) := Framed.of_none rfl
theorem Framed.trap x0 x1 x2 : Framed.Statement (.trap x0 x1 x2) := Framed.of_none rfl
theorem Framed.csrr x0 x1 x2 x3 : Framed.Statement (.csrr x0 x1 x2 x3) := Framed.of_none rfl
theorem Framed.csrw x0 x1 x2 x3 : Framed.Statement (.csrw x0 x1 x2 x3) := Framed.of_none rfl
theorem Framed.rdreg x0 x1 x2 x3 : Framed.Statement (.rdreg x0 x1 x2 x3) := Framed.of_none rfl
theorem Framed.wrreg x0 x1 x2 x3 : Framed.Statement (.wrreg x0 x1 x2 x3) := Framed.of_none rfl
theorem Framed.tctlSuspend x0 x1 x2 x3 : Framed.Statement (.tctlSuspend x0 x1 x2 x3) := Framed.of_none rfl
theorem Framed.tctlResume x0 x1 x2 x3 : Framed.Statement (.tctlResume x0 x1 x2 x3) := Framed.of_none rfl
theorem Framed.tctlAbort x0 x1 x2 x3 : Framed.Statement (.tctlAbort x0 x1 x2 x3) := Framed.of_none rfl
theorem Framed.restoreFactory x0 x1 x2 : Framed.Statement (.restoreFactory x0 x1 x2) := Framed.of_none rfl
theorem Framed.zeroise x0 x1 x2 : Framed.Statement (.zeroise x0 x1 x2) := Framed.of_none rfl
theorem Framed.zarmExpiry x0 : Framed.Statement (.zarmExpiry x0) := Framed.of_none rfl
theorem Framed.pass x0 x1 x2 x3 x4 : Framed.Statement (.pass x0 x1 x2 x3 x4) := Framed.of_none rfl
theorem Framed.passX x0 x1 x2 x3 x4 : Framed.Statement (.passX x0 x1 x2 x3 x4) := Framed.of_none rfl
theorem Framed.drain x0 x1 x2 x3 x4 : Framed.Statement (.drain x0 x1 x2 x3 x4) := Framed.of_none rfl
theorem Framed.ltnLoad x0 x1 x2 x3 x4 : Framed.Statement (.ltnLoad x0 x1 x2 x3 x4) := Framed.of_none rfl
theorem Framed.ltnRel x0 x1 x2 x3 x4 : Framed.Statement (.ltnRel x0 x1 x2 x3 x4) := Framed.of_none rfl
theorem Framed.attn x0 x1 x2 x3 x4 : Framed.Statement (.attn x0 x1 x2 x3 x4) := Framed.of_none rfl
theorem Framed.sample x0 x1 x2 x3 x4 : Framed.Statement (.sample x0 x1 x2 x3 x4) := Framed.of_none rfl
theorem Framed.xferCopy x0 x1 x2 x3 x4 : Framed.Statement (.xferCopy x0 x1 x2 x3 x4) := Framed.of_none rfl
theorem Framed.xferGather x0 x1 x2 x3 x4 : Framed.Statement (.xferGather x0 x1 x2 x3 x4) := Framed.of_none rfl
theorem Framed.xferPages x0 x1 x2 x3 x4 : Framed.Statement (.xferPages x0 x1 x2 x3 x4) := Framed.of_none rfl
theorem Framed.xferFill x0 x1 x2 x3 x4 : Framed.Statement (.xferFill x0 x1 x2 x3 x4) := Framed.of_none rfl
theorem Framed.collAr x0 x1 x2 x3 x4 : Framed.Statement (.collAr x0 x1 x2 x3 x4) := Framed.of_none rfl
theorem Framed.collRs x0 x1 x2 x3 x4 : Framed.Statement (.collRs x0 x1 x2 x3 x4) := Framed.of_none rfl
theorem Framed.collAg x0 x1 x2 x3 x4 : Framed.Statement (.collAg x0 x1 x2 x3 x4) := Framed.of_none rfl
theorem Framed.collA2a x0 x1 x2 x3 x4 : Framed.Statement (.collA2a x0 x1 x2 x3 x4) := Framed.of_none rfl
theorem Framed.collBc x0 x1 x2 x3 x4 : Framed.Statement (.collBc x0 x1 x2 x3 x4) := Framed.of_none rfl
theorem Framed.collBar x0 x1 x2 x3 x4 : Framed.Statement (.collBar x0 x1 x2 x3 x4) := Framed.of_none rfl
theorem Framed.cwait x0 x1 x2 x3 : Framed.Statement (.cwait x0 x1 x2 x3) := Framed.of_none rfl
theorem Framed.waitat x0 x1 x2 x3 : Framed.Statement (.waitat x0 x1 x2 x3) := Framed.of_none rfl
theorem Framed.cntwait x0 x1 x2 x3 x4 x5 : Framed.Statement (.cntwait x0 x1 x2 x3 x4 x5) := Framed.of_none rfl
theorem Framed.arm x0 x1 x2 x3 x4 : Framed.Statement (.arm x0 x1 x2 x3 x4) := Framed.of_none rfl
theorem Framed.armG x0 x1 x2 x3 x4 : Framed.Statement (.armG x0 x1 x2 x3 x4) := Framed.of_none rfl
theorem Framed.disarm x0 x1 x2 x3 : Framed.Statement (.disarm x0 x1 x2 x3) := Framed.of_none rfl
theorem Framed.waitatReturn x0 : Framed.Statement (.waitatReturn x0) := Framed.of_none rfl
theorem Framed.waitLimit x0 : Framed.Statement (.waitLimit x0) := Framed.of_none rfl
theorem Framed.ringDoorbell x0 x1 x2 x3 : Framed.Statement (.ringDoorbell x0 x1 x2 x3) := Framed.of_none rfl
theorem Framed.launchRecord x0 x1 : Framed.Statement (.launchRecord x0 x1) := Framed.of_none rfl
theorem Framed.ringEnable x0 x1 x2 x3 : Framed.Statement (.ringEnable x0 x1 x2 x3) := Framed.of_none rfl
theorem Framed.clrStop x0 x1 x2 : Framed.Statement (.clrStop x0 x1 x2) := Framed.of_none rfl
theorem Framed.cntAdd x0 x1 x2 : Framed.Statement (.cntAdd x0 x1 x2) := Framed.of_none rfl
theorem Framed.abortTid x0 x1 x2 : Framed.Statement (.abortTid x0 x1 x2) := Framed.of_none rfl
theorem Framed.swap x0 : Framed.Statement (.swap x0) := Framed.of_none rfl
theorem Framed.quantumExpiry x0 : Framed.Statement (.quantumExpiry x0) := Framed.of_none rfl
theorem Framed.counterPoll x0 : Framed.Statement (.counterPoll x0) := Framed.of_none rfl
theorem Framed.coreFault x0 x1 : Framed.Statement (.coreFault x0 x1) := Framed.of_none rfl
theorem Framed.threadRestart x0 : Framed.Statement (.threadRestart x0) := Framed.of_none rfl
theorem Framed.operationStart x0 : Framed.Statement (.operationStart x0) := Framed.of_none rfl
theorem Framed.waitExpired x0 : Framed.Statement (.waitExpired x0) := Framed.of_none rfl
theorem Framed.operationComplete x0 : Framed.Statement (.operationComplete x0) := Framed.of_none rfl
theorem Framed.positionWrite x0 x1 : Framed.Statement (.positionWrite x0 x1) := Framed.of_none rfl
theorem Framed.passBoundary x0 : Framed.Statement (.passBoundary x0) := Framed.of_none rfl
theorem Framed.passResult x0 x1 x2 : Framed.Statement (.passResult x0 x1 x2) := Framed.of_none rfl
theorem Framed.blockDrainEnd x0 x1 : Framed.Statement (.blockDrainEnd x0 x1) := Framed.of_none rfl
theorem Framed.seed x0 : Framed.Statement (.seed x0) := Framed.of_none rfl
theorem Framed.quantiseRendezvous x0 x1 : Framed.Statement (.quantiseRendezvous x0 x1) := Framed.of_none rfl
theorem Framed.seal x0 : Framed.Statement (.seal x0) := Framed.of_none rfl
theorem Framed.exactPassDone x0 : Framed.Statement (.exactPassDone x0) := Framed.of_none rfl
theorem Framed.recomputeDone x0 : Framed.Statement (.recomputeDone x0) := Framed.of_none rfl
theorem Framed.ltnCommit x0 x1 : Framed.Statement (.ltnCommit x0 x1) := Framed.of_none rfl
theorem Framed.attnBlock x0 x1 : Framed.Statement (.attnBlock x0 x1) := Framed.of_none rfl
theorem Framed.sampleRow x0 x1 : Framed.Statement (.sampleRow x0 x1) := Framed.of_none rfl
theorem Framed.compactionCopy x0 : Framed.Statement (.compactionCopy x0) := Framed.of_none rfl
theorem Framed.burstDone x0 x1 : Framed.Statement (.burstDone x0 x1) := Framed.of_none rfl
theorem Framed.transferEngineFault x0 : Framed.Statement (.transferEngineFault x0) := Framed.of_none rfl
theorem Framed.write x0 x1 : Framed.Statement (.write x0 x1) := Framed.of_some (f := x1) rfl id
theorem Framed.read x0 x1 : Framed.Statement (.read x0 x1) := Framed.of_some (f := x1) rfl id
theorem Framed.atomic x0 x1 x2 : Framed.Statement (.atomic x0 x1 x2) := Framed.of_some (f := x1) rfl id
theorem Framed.ack x0 x1 x2 : Framed.Statement (.ack x0 x1 x2) := Framed.of_some (f := x1) rfl id
theorem Framed.nak x0 x1 x2 : Framed.Statement (.nak x0 x1 x2) := Framed.of_some (f := x1) rfl id
theorem Framed.readData x0 x1 : Framed.Statement (.readData x0 x1) := Framed.of_some (f := x1) rfl id
theorem Framed.atomicData x0 x1 : Framed.Statement (.atomicData x0 x1) := Framed.of_some (f := x1) rfl id
theorem Framed.collPull x0 x1 x2 : Framed.Statement (.collPull x0 x1 x2) := Framed.of_some (f := x1) rfl id
theorem Framed.collData x0 x1 : Framed.Statement (.collData x0 x1) := Framed.of_some (f := x1) rfl id
theorem Framed.arrive x0 x1 x2 : Framed.Statement (.arrive x0 x1 x2) := Framed.of_some (f := x1) rfl id
theorem Framed.release x0 x1 x2 : Framed.Statement (.release x0 x1 x2) := Framed.of_some (f := x1) rfl id
theorem Framed.abort x0 x1 x2 : Framed.Statement (.abort x0 x1 x2) := Framed.of_some (f := x1) rfl id
theorem Framed.collTimeout x0 : Framed.Statement (.collTimeout x0) := Framed.of_none rfl
theorem Framed.time x0 x1 x2 : Framed.Statement (.time x0 x1 x2) := Framed.of_some (f := x1) rfl id
theorem Framed.delayReq x0 x1 x2 : Framed.Statement (.delayReq x0 x1 x2) := Framed.of_some (f := x1) rfl id
theorem Framed.delayResp x0 x1 x2 : Framed.Statement (.delayResp x0 x1 x2) := Framed.of_some (f := x1) rfl id
theorem Framed.armed x0 x1 x2 : Framed.Statement (.armed x0 x1 x2) := Framed.of_some (f := x1) rfl id
theorem Framed.notArmed x0 x1 x2 : Framed.Statement (.notArmed x0 x1 x2) := Framed.of_some (f := x1) rfl id
theorem Framed.go x0 x1 x2 : Framed.Statement (.go x0 x1 x2) := Framed.of_some (f := x1) rfl id
theorem Framed.nogo x0 x1 x2 : Framed.Statement (.nogo x0 x1 x2) := Framed.of_some (f := x1) rfl id
theorem Framed.noVerdict x0 x1 x2 : Framed.Statement (.noVerdict x0 x1 x2) := Framed.of_some (f := x1) rfl id
theorem Framed.outcome x0 x1 x2 : Framed.Statement (.outcome x0 x1 x2) := Framed.of_some (f := x1) rfl id
theorem Framed.ident x0 x1 x2 : Framed.Statement (.ident x0 x1 x2) := Framed.of_some (f := x1) rfl id
theorem Framed.credit x0 x1 x2 : Framed.Statement (.credit x0 x1 x2) := Framed.of_none rfl
theorem Framed.pfcPause x0 x1 x2 : Framed.Statement (.pfcPause x0 x1 x2) := Framed.of_none rfl
theorem Framed.retransmit x0 : Framed.Statement (.retransmit x0) := Framed.of_none rfl
theorem Framed.pathWaitExpiry x0 : Framed.Statement (.pathWaitExpiry x0) := Framed.of_none rfl
theorem Framed.timeMessageSend : Framed.Statement .timeMessageSend := Framed.of_none rfl
theorem Framed.delayExchange : Framed.Statement .delayExchange := Framed.of_none rfl
theorem Framed.linkEnable x0 x1 : Framed.Statement (.linkEnable x0 x1) := Framed.of_none rfl
theorem Framed.linkDisable x0 x1 : Framed.Statement (.linkDisable x0 x1) := Framed.of_none rfl
theorem Framed.retrain x0 x1 : Framed.Statement (.retrain x0 x1) := Framed.of_none rfl
theorem Framed.signalDetect x0 : Framed.Statement (.signalDetect x0) := Framed.of_none rfl
theorem Framed.trainingComplete x0 x1 : Framed.Statement (.trainingComplete x0 x1) := Framed.of_none rfl
theorem Framed.alignComplete x0 x1 x2 : Framed.Statement (.alignComplete x0 x1 x2) := Framed.of_none rfl
theorem Framed.linkTimeout x0 : Framed.Statement (.linkTimeout x0) := Framed.of_none rfl
theorem Framed.lossOfSignal x0 : Framed.Statement (.lossOfSignal x0) := Framed.of_none rfl
theorem Framed.laneFault x0 x1 x2 : Framed.Statement (.laneFault x0 x1 x2) := Framed.of_none rfl
theorem Framed.degradeDone x0 : Framed.Statement (.degradeDone x0) := Framed.of_none rfl
theorem Framed.backoffEnd x0 : Framed.Statement (.backoffEnd x0) := Framed.of_none rfl
theorem Framed.parkExpiry x0 : Framed.Statement (.parkExpiry x0) := Framed.of_none rfl
theorem Framed.epochBoundary : Framed.Statement .epochBoundary := Framed.of_none rfl
theorem Framed.cadenceTick x0 : Framed.Statement (.cadenceTick x0) := Framed.of_none rfl
theorem Framed.launchDispatch x0 : Framed.Statement (.launchDispatch x0) := Framed.of_none rfl
theorem Framed.commitPoint x0 : Framed.Statement (.commitPoint x0) := Framed.of_none rfl
theorem Framed.verdictDeadline x0 : Framed.Statement (.verdictDeadline x0) := Framed.of_none rfl
theorem Framed.outcomeSend x0 : Framed.Statement (.outcomeSend x0) := Framed.of_none rfl
theorem Framed.outcomeDeadline x0 : Framed.Statement (.outcomeDeadline x0) := Framed.of_none rfl
theorem Framed.ppsEdge x0 x1 : Framed.Statement (.ppsEdge x0 x1) := Framed.of_none rfl
theorem Framed.ptpSync x0 x1 : Framed.Statement (.ptpSync x0 x1) := Framed.of_none rfl
theorem Framed.ptpAnnounce x0 x1 x2 : Framed.Statement (.ptpAnnounce x0 x1 x2) := Framed.of_none rfl
theorem Framed.referenceLoss x0 x1 : Framed.Statement (.referenceLoss x0 x1) := Framed.of_none rfl
theorem Framed.sourceRevert : Framed.Statement .sourceRevert := Framed.of_none rfl
theorem Framed.setTime x0 x1 : Framed.Statement (.setTime x0 x1) := Framed.of_none rfl
theorem Framed.holdoverLimit : Framed.Statement .holdoverLimit := Framed.of_none rfl
theorem Framed.ppsOutPulse : Framed.Statement .ppsOutPulse := Framed.of_none rfl
theorem Framed.ppsOutEnd : Framed.Statement .ppsOutEnd := Framed.of_none rfl
theorem Framed.imageLoadFull x0 : Framed.Statement (.imageLoadFull x0) := Framed.of_none rfl
theorem Framed.imageLoadRolling x0 : Framed.Statement (.imageLoadRolling x0) := Framed.of_none rfl
theorem Framed.imageLoadUnlock x0 : Framed.Statement (.imageLoadUnlock x0) := Framed.of_none rfl
theorem Framed.imageCommit x0 : Framed.Statement (.imageCommit x0) := Framed.of_none rfl
theorem Framed.pvGrant x0 : Framed.Statement (.pvGrant x0) := Framed.of_none rfl
theorem Framed.writingDone x0 x1 : Framed.Statement (.writingDone x0 x1) := Framed.of_none rfl
theorem Framed.verifyingDone x0 x1 : Framed.Statement (.verifyingDone x0 x1) := Framed.of_none rfl
theorem Framed.calDone x0 x1 x2 : Framed.Statement (.calDone x0 x1 x2) := Framed.of_none rfl
theorem Framed.drainingDone x0 x1 : Framed.Statement (.drainingDone x0 x1) := Framed.of_none rfl
theorem Framed.zeroiseComplete : Framed.Statement .zeroiseComplete := Framed.of_none rfl
theorem Framed.instEnable x0 x1 : Framed.Statement (.instEnable x0 x1) := Framed.of_none rfl
theorem Framed.instDisable x0 x1 : Framed.Statement (.instDisable x0 x1) := Framed.of_none rfl
theorem Framed.instReset x0 x1 : Framed.Statement (.instReset x0 x1) := Framed.of_none rfl
theorem Framed.vfFlr x0 : Framed.Statement (.vfFlr x0) := Framed.of_none rfl
theorem Framed.vfEnableClear : Framed.Statement .vfEnableClear := Framed.of_none rfl
theorem Framed.instResetDone x0 : Framed.Statement (.instResetDone x0) := Framed.of_none rfl
theorem Framed.quotaWrite x0 x1 x2 x3 x4 : Framed.Statement (.quotaWrite x0 x1 x2 x3 x4) := Framed.of_none rfl
theorem Framed.memRangeWrite x0 x1 x2 x3 x4 : Framed.Statement (.memRangeWrite x0 x1 x2 x3 x4) := Framed.of_none rfl
theorem Framed.rangeScrubDone x0 : Framed.Statement (.rangeScrubDone x0) := Framed.of_none rfl
theorem Framed.tidWrite x0 x1 x2 x3 : Framed.Statement (.tidWrite x0 x1 x2 x3) := Framed.of_none rfl
theorem Framed.townDataWrite x0 x1 x2 : Framed.Statement (.townDataWrite x0 x1 x2) := Framed.of_none rfl
theorem Framed.residueError x0 : Framed.Statement (.residueError x0) := Framed.of_none rfl
theorem Framed.unitHardFault x0 : Framed.Statement (.unitHardFault x0) := Framed.of_none rfl
theorem Framed.patrolScrub x0 x1 : Framed.Statement (.patrolScrub x0 x1) := Framed.of_none rfl
theorem Framed.stackZeroed x0 : Framed.Statement (.stackZeroed x0) := Framed.of_none rfl
theorem Framed.bar4Read x0 x1 x2 : Framed.Statement (.bar4Read x0 x1 x2) := Framed.of_none rfl
theorem Framed.bar4Write x0 x1 x2 : Framed.Statement (.bar4Write x0 x1 x2) := Framed.of_none rfl
theorem Framed.cxlMemRead x0 : Framed.Statement (.cxlMemRead x0) := Framed.of_none rfl
theorem Framed.cxlMemWrite x0 x1 : Framed.Statement (.cxlMemWrite x0 x1) := Framed.of_none rfl
theorem Framed.hdmCommit x0 x1 x2 x3 x4 : Framed.Statement (.hdmCommit x0 x1 x2 x3 x4) := Framed.of_none rfl
theorem Framed.hostCompletion x0 x1 x2 : Framed.Statement (.hostCompletion x0 x1 x2) := Framed.of_none rfl
theorem Framed.completionTimeout x0 : Framed.Statement (.completionTimeout x0) := Framed.of_none rfl
theorem Framed.msixUnmask x0 x1 : Framed.Statement (.msixUnmask x0 x1) := Framed.of_none rfl
theorem Framed.doeDiscovery x0 : Framed.Statement (.doeDiscovery x0) := Framed.of_none rfl
theorem Framed.getVersion : Framed.Statement .getVersion := Framed.of_none rfl
theorem Framed.getCapabilities : Framed.Statement .getCapabilities := Framed.of_none rfl
theorem Framed.negotiateAlgorithms x0 x1 : Framed.Statement (.negotiateAlgorithms x0 x1) := Framed.of_none rfl
theorem Framed.getDigests : Framed.Statement .getDigests := Framed.of_none rfl
theorem Framed.getCertificate x0 x1 x2 : Framed.Statement (.getCertificate x0 x1 x2) := Framed.of_none rfl
theorem Framed.challenge x0 x1 : Framed.Statement (.challenge x0 x1) := Framed.of_none rfl
theorem Framed.getMeasurements x0 x1 : Framed.Statement (.getMeasurements x0 x1) := Framed.of_none rfl
theorem Framed.perstNFall : Framed.Statement .perstNFall := Framed.of_none rfl
theorem Framed.perstNRise : Framed.Statement .perstNRise := Framed.of_none rfl
theorem Framed.pfFlr : Framed.Statement .pfFlr := Framed.of_none rfl
theorem Framed.perstScrubDone : Framed.Statement .perstScrubDone := Framed.of_none rfl
theorem Framed.p12auxQualified x0 x1 : Framed.Statement (.p12auxQualified x0 x1) := Framed.of_none rfl
theorem Framed.p12auxLoss : Framed.Statement .p12auxLoss := Framed.of_none rfl
theorem Framed.p48Qualified x0 : Framed.Statement (.p48Qualified x0) := Framed.of_none rfl
theorem Framed.p48Warning x0 : Framed.Statement (.p48Warning x0) := Framed.of_none rfl
theorem Framed.p48Loss x0 : Framed.Statement (.p48Loss x0) := Framed.of_none rfl
theorem Framed.pinShort x0 : Framed.Statement (.pinShort x0) := Framed.of_none rfl
theorem Framed.shortRetry x0 x1 : Framed.Statement (.shortRetry x0 x1) := Framed.of_none rfl
theorem Framed.domainOn x0 x1 : Framed.Statement (.domainOn x0 x1) := Framed.of_none rfl
theorem Framed.domainOff x0 x1 : Framed.Statement (.domainOff x0 x1) := Framed.of_none rfl
theorem Framed.domainUsable x0 : Framed.Statement (.domainUsable x0) := Framed.of_none rfl
theorem Framed.sensorSample x0 : Framed.Statement (.sensorSample x0) := Framed.of_none rfl
theorem Framed.sensorCrosscheck : Framed.Statement .sensorCrosscheck := Framed.of_none rfl
theorem Framed.throttleUpdate x0 x1 : Framed.Statement (.throttleUpdate x0 x1) := Framed.of_none rfl
theorem Framed.thermalTrip x0 x1 x2 : Framed.Statement (.thermalTrip x0 x1 x2) := Framed.of_none rfl
theorem Framed.tripClear : Framed.Statement .tripClear := Framed.of_none rfl
theorem Framed.referenceCompensation : Framed.Statement .referenceCompensation := Framed.of_none rfl
theorem Framed.oscTempRead x0 : Framed.Statement (.oscTempRead x0) := Framed.of_none rfl
theorem Framed.keepWatchdog x0 x1 : Framed.Statement (.keepWatchdog x0 x1) := Framed.of_none rfl
theorem Framed.metResult x0 x1 x2 : Framed.Statement (.metResult x0 x1 x2) := Framed.of_none rfl
theorem Framed.channelStart x0 x1 x2 : Framed.Statement (.channelStart x0 x1 x2) := Framed.of_none rfl
theorem Framed.channelStop x0 x1 x2 : Framed.Statement (.channelStop x0 x1 x2) := Framed.of_none rfl
theorem Framed.senseProbe x0 x1 : Framed.Statement (.senseProbe x0 x1) := Framed.of_none rfl
theorem Framed.driftCalibration x0 x1 : Framed.Statement (.driftCalibration x0 x1) := Framed.of_none rfl
theorem Framed.driftMissed x0 : Framed.Statement (.driftMissed x0) := Framed.of_none rfl
theorem Framed.fallbackMeasure x0 x1 : Framed.Statement (.fallbackMeasure x0 x1) := Framed.of_none rfl
theorem Framed.regWrite x0 x1 x2 x3 : Framed.Statement (.regWrite x0 x1 x2 x3) := Framed.of_none rfl
theorem Framed.reg64LowRead x0 x1 : Framed.Statement (.reg64LowRead x0 x1) := Framed.of_none rfl
theorem Framed.reg64HighRead x0 x1 : Framed.Statement (.reg64HighRead x0 x1) := Framed.of_none rfl
theorem Framed.reg64LowWrite x0 x1 x2 : Framed.Statement (.reg64LowWrite x0 x1 x2) := Framed.of_none rfl
theorem Framed.reg64HighWrite x0 x1 x2 : Framed.Statement (.reg64HighWrite x0 x1 x2) := Framed.of_none rfl
theorem Framed.reg64LatchExpiry x0 x1 : Framed.Statement (.reg64LatchExpiry x0 x1) := Framed.of_none rfl
theorem Framed.routePendWrite x0 x1 x2 : Framed.Statement (.routePendWrite x0 x1 x2) := Framed.of_none rfl
theorem Framed.keepRestoreFactory x0 : Framed.Statement (.keepRestoreFactory x0) := Framed.of_none rfl
theorem Framed.restoreFactoryDone : Framed.Statement .restoreFactoryDone := Framed.of_none rfl
theorem Framed.keepZeroise x0 x1 : Framed.Statement (.keepZeroise x0 x1) := Framed.of_none rfl
theorem Framed.sweepConverter x0 : Framed.Statement (.sweepConverter x0) := Framed.of_none rfl
theorem Framed.sweepSensor x0 x1 : Framed.Statement (.sweepSensor x0 x1) := Framed.of_none rfl
theorem Framed.sweepOscillator x0 : Framed.Statement (.sweepOscillator x0) := Framed.of_none rfl
theorem Framed.sweepReference x0 : Framed.Statement (.sweepReference x0) := Framed.of_none rfl
theorem Framed.sweepDone x0 : Framed.Statement (.sweepDone x0) := Framed.of_none rfl
theorem Framed.retest x0 x1 : Framed.Statement (.retest x0 x1) := Framed.of_none rfl
theorem Framed.retestDone x0 : Framed.Statement (.retestDone x0) := Framed.of_none rfl
theorem Framed.otpAnchor x0 x1 : Framed.Statement (.otpAnchor x0 x1) := Framed.of_none rfl
theorem Framed.otpRevoke x0 x1 : Framed.Statement (.otpRevoke x0 x1) := Framed.of_none rfl
theorem Framed.otpFloor x0 x1 : Framed.Statement (.otpFloor x0 x1) := Framed.of_none rfl
theorem Framed.otpPolicyBoth x0 : Framed.Statement (.otpPolicyBoth x0) := Framed.of_none rfl
theorem Framed.badCode x0 x1 : Framed.Statement (.badCode x0 x1) := Framed.of_none rfl
theorem Framed.keepCommandTimeout : Framed.Statement .keepCommandTimeout := Framed.of_none rfl
theorem Framed.pldmFirmwareUpdate x0 : Framed.Statement (.pldmFirmwareUpdate x0) := Framed.of_none rfl
theorem Framed.vfEnableSet : Framed.Statement .vfEnableSet := Framed.of_none rfl
theorem Framed.p48WarningEnd x0 : Framed.Statement (.p48WarningEnd x0) := Framed.of_none rfl
theorem Framed.channelInterval x0 x1 : Framed.Statement (.channelInterval x0 x1) := Framed.of_none rfl

end Sys2Proof.Laws
end

