-- ==== Sys2Proof/Tests/Slice0.lean ====
section
/-! SUPPORT. The model's own tests: small states, words and worked examples of the specification, ill-formed commands, and
for every statement with hypotheses a state and operands that meet them, one for each clause. -/

namespace Sys2Proof.Tests

open Sys2Proof Sys2Proof.Machine Sys2Proof.Safety

set_option Elab.async false

/-! ## States to start from -/

/-- Every domain usable, the host link up. -/
def up : State :=
  { State.reset with
    now := 2000000000000000
    pwr.domains := (upFrom 0 47).map fun d => (d, .usable)
    pwr.p48ok := true
    host.linkUp := true
    host.perst := false
    host.vfEnable := true }

/-- A privileged thread of instance 0, HOT in slot 0 of core 0, with a handler. -/
def thr : Thread :=
  { st := .hot, slot := some 0, pc := 0x1000, handler := 0x2000, priv := true
    g := [(1, 0x3000), (2, 7), (3, 0xFFFFFFFFFFFFFFFF), (4, 0x8000000000000000), (5, 2)], pred := 5 }

/-- Thread 5 is `th`. -/
def withThr (th : Thread) : State := { up with mbx.threads := [(5, th)] }

/-- `n` bytes with numbers at offsets, as offset, width and value. -/
def image (n : Nat) (fs : List (Nat × Nat × Nat)) : List Byte :=
  toBytes (fs.foldl (fun v (o, w, x) => v + x % 2 ^ (8 * w) * 2 ^ (8 * o)) 0) n

/-- A state with bytes placed in memory. -/
def holding (s : State) (a : Nat) (l : List Byte) : State := wrStacked s a l

/-- A register's active and pending value. -/
def reg (s : State) (b : Blk) (o v : Nat) : State := setRegPend (setRegAct s b o (BitVec.ofNat 64 v)) b o (BitVec.ofNat 64 v)

/-- A thread that issues the descriptor at 0x4000, with T in g2. -/
def issuer : Thread := { thr with g := [(1, 0x4000), (2, 20000), (3, 5)] }

/-- Group 1 of instance 0: devices 0 and 1, this one with rank `r`, the coordinator of rank 0. -/
def grouped (s : State) (r : Nat) : State :=
  holding (holding (reg (reg s (.inst 0) 0x090 0x8000) (.inst 0) 0x098 4)
    0x8040 (image 64 [(0, 2, 1), (2, 2, 2), (4, 2, r), (8, 4, 77), (0x10, 8, 0x9000)]))
    0x9000 (if r = 0 then [0, 0, 1, 0] else [1, 0, 0, 0])

/-- Device 1 is reached in slice 0 by link 2, which is ACTIVE. -/
def peered (s : State) : State :=
  { s with reg.routeAct := [(1, 0x0000000B)], fab.links := [(2, { st := .active, width := 8, partner := 1, credits := (upFrom 0 8).map fun p => (p, 1000) })] }

/-- Physical tile 0 of Spire 0, which is device tile 0. -/
def tile0 : TileId := ⟨0, 0⟩
/-- Tile 0 is `x`. -/
def withTile (s : State) (x : Tile) : State := { s with tile.tiles := [(0, x)] }
/-- A pass of operation 7 on array 1 of tile 0. -/
def req7 : PassReq :=
  { op := 7, seq := 0, inst := 0, array := 1, kblock := 0, firstK := 0, lastK := 0, listLast := 0, nblock := 0
    msel := false, oix := 0, vec := 0, pos := 3, reps := 1, variant := 0, unsigned := false, exact := false, blk := 0, slotV := 0 }
/-- The work of operation 7: one item, two vectors. -/
def work7 : PassWork := { items := [⟨0, 1, 0, 0, 3, false⟩], vectors := 2, drainsLeft := 1 }
/-- Operation 7 with some work. -/
def withOp (s : State) (w : Work) : State := { s with op.table := [(7, { used := true, started := true, work := w })] }
/-- A vector of ones. -/
def ones : List Byte := List.replicate 512 1

/-- A frame from device 1 in slice 0. -/
def frame (cls : BitVec 2) (typ : Byte) (seq : W32) (addr : W64) (p : List Byte) : Frame :=
  { version := 1, cls := cls, hop := false, typ := typ, src := 1, dst := 0, slice := 0, seq := seq
    len := BitVec.ofNat 16 p.length, addr := addr, payload := p, fcsOk := true, reservedSet := false }
/-- A frame sent to device 1 that waits for its answer. -/
def copyOf (f : Frame) (op : Nat) : TxCopy := { dst := 1, frame := f, op := some op, inst := 0, gen := 0, tries := 1, sentAt := 5 }
/-- A collective message of collective 1 of group 1, from rank 1. -/
def cmsg : CollMsg := { group := 1, seq := 1, rank := 1, block := 0, phase := 0, listCrc := 77, missing := 1, len := 1024 }
/-- A launch message of group 1 from rank 1, for T = 50000. -/
def lmsg : LaunchMsg := { tag := 6, group := 1, t := 50000, reason := 3, rank := 1, listCrc := 77, outcome := 1, missing := 0 }
/-- The group launch of that message, as its coordinator keeps it. -/
def glaunch : GroupLaunch := { group := 1, tag := 6, t := 50000, inst := 0, members := [0, 1], rank := 0 }
/-- Launch entry 3 is `l`. -/
def withLaunch (s : State) (l : Launch) : State := { s with time.launches := [(3, l)], op.table := [(7, { used := true, launch := some 3, grouped := true })] }

/-- The sections of an image of one array. -/
def sections1 : List SectionRec :=
  [⟨1, 1, 0x1000, 16, 1, true, true⟩, ⟨2, 1, 0x2000, 0x10000, 2, true, true⟩, ⟨3, 1, 0x12000, 0x800, 3, true, true⟩]
/-- An image of one array of tile 0, for the recipient `k`. -/
def imageFor (k : W64) : ImageFile :=
  { fetchOk := true, magic := 0x474D4954, version := 1, headerLength := 0x100, imageId := 9, deviceId := 0x7160
    minRev := 0x10, rollback := 3, sectionCount := 3, imageLength := 0x13DB0, sigOffset := 0x12800, arrays := 1
    headerReservedZero := true, sections := sections1, keyMagic := 0x4B574954, keyVersion := 1, keyRecords := 1
    keyImageId := 9, keyReservedZero := true, keyRecs := [⟨k, true⟩], sigMagic := 0x53474954, sigVersion := 1
    sigFlags := 3, sigReservedZero := true, publisher := 5, ecdsaOk := true, mldsaOk := true
    placement := [⟨0, 2, 0, 1, 0, 0, 0⟩], placementReservedZero := true, weights := [(5, 3)], scales := [(7, 0x38)]
    outliers := [] }
/-- An anchor for that image's publisher, and the registers of its load. -/
def loadable : State :=
  let s := reg (reg (reg (reg (reg up (.inst 0) 0x040 0x8000000000000000) (.inst 0) 0x048 0x100000000) .sec 0x008 0x8000000000000000)
    .sec 0x010 0x13DB0) .sec 0x018 0x8000000000100000
  { s with img.anchors := [(2, { hash := 5, valid := true, floor := 3 })], img.load := some { mode := .full } }

/-! ## Small tests -/

/-- The state after a command. -/
def after (c : Instr) (s : State) : State :=
  match exec c s with
  | .next s' => s'
  | _ => s

/-- The guard that is always true. -/
def always : Guard := ⟨0, false⟩

/-- A register of thread 5 after a command. -/
def g5 (c : Instr) (s : State) (r : GReg) : W64 := gRd (getThr (after c s) 5) r

/-! The words of the publishing thread, as 08_mbx_encoding.md writes them out: each is defined, and the instruction it
stands for does what the example says at its address. -/

theorem test_words_defined :
    ([0x60143000C0000000, 0x64002940C0000000, 0x000A280080000040, 0x000C300080000008, 0x0005140080000001,
      0x3401140090000020, 0x80800000FFFFFFFA, 0x6C00000010000000, 0x68002D5008000000, 0x8C00000000000000] : List W64).all
      definedWord = true := by decide +kernel

/-- An opcode outside the table, and a reserved bit of ADD that is set (R194). -/
theorem test_undefined_words : definedWord 0xFFFFFFFFFFFFFFFF = false ∧ definedWord 0x0005140081000001 = false := by decide +kernel

theorem test_branch_back :
    (getThr (after (.br 5 always 0xFFFFFFFA) (withThr { thr with pc := 0x1030 })) 5).pc = 0x1000 := by decide +kernel

theorem test_add_step : g5 (.add 5 always 1 1 (.imm 64)) (withThr thr) 1 = 0x3040 := by decide +kernel

theorem test_cmp_lt : pRd (getThr (after (.cmpLt 5 always 1 2 (.imm 32)) (withThr thr)) 5) 1 = true := by decide +kernel

/-- A false guard retires the word as a no-operation (R196). -/
theorem test_false_guard :
    g5 (.add 5 ⟨0, true⟩ 1 1 (.imm 64)) (withThr thr) 1 = 0x3000 ∧
      (getThr (after (.add 5 ⟨0, true⟩ 1 1 (.imm 64)) (withThr thr)) 5).pc = 0x1008 := by decide +kernel

/-! Corners of R201 and R202. -/

theorem test_add_wraps : g5 (.add 5 always 9 3 (.imm 5)) (withThr thr) 9 = 4 := by decide +kernel
theorem test_g0_discards : g5 (.add 5 always 0 3 (.imm 5)) (withThr thr) 0 = 0 := by decide +kernel
theorem test_div_by_zero : g5 (.div 5 always false 9 1 0) (withThr thr) 9 = 0xFFFFFFFFFFFFFFFF ∧
    g5 (.rem 5 always false 9 1 0) (withThr thr) 9 = 0x3000 := by decide +kernel
theorem test_div_overflow : g5 (.div 5 always false 9 4 3) (withThr thr) 9 = 0x8000000000000000 ∧
    g5 (.rem 5 always false 9 4 3) (withThr thr) 9 = 0 := by decide +kernel
theorem test_sha_sign : g5 (.sha 5 always 9 4 (.imm 63)) (withThr thr) 9 = 0xFFFFFFFFFFFFFFFF := by decide +kernel
theorem test_mulh_signed : g5 (.mulh 5 always false 9 3 3) (withThr thr) 9 = 0 ∧
    g5 (.mulh 5 always true 9 3 3) (withThr thr) 9 = 0xFFFFFFFFFFFFFFFE := by decide +kernel

/-! The conversions that 02_number_formats.md and 08_mbx_encoding.md work out. -/

theorem test_cvt_third : g5 (.cvt 5 always 8 7 0xF 0xA) (withThr { thr with g := [(7, 0x3E99999A)] }) 8 = 0x2A := by decide +kernel
theorem test_e4m3_saturates : fromF32 0xA 0x43FA0000 = (0x7E, flagSat) := by decide +kernel
theorem test_e4m3_infinity : fromF32 0xA 0x7F800000 = (0x7F, flagInv) := by decide +kernel
theorem test_e2m1_tie : (fromF32 0x8 0x40200000).1 = 4 := by decide +kernel

/-- Why the order of a sum is fixed: 2^24 + 1 + 1 is 2^24 one by one (R39, R50). -/
theorem test_sum_order : (f32add (f32add 0x4B800000 0x3F800000).v 0x3F800000).v = 0x4B800000 ∧
    (f32add 0x4B800000 (f32add 0x3F800000 0x3F800000).v).v = 0x4B800001 := by decide +kernel

/-! The column of 02_number_formats.md: scales 0x2A, 0x18, 0x30 and 0x2A, segment sums −1, 250, −1,003 and 17. Rows 0 to 3
are those of the example; other rows are chosen to give the other sums. -/

/-- The scales of column 0, its four segments. -/
def exampleScales : Tab Byte := [(0, 0x2A), (1, 0x18), (2, 0x30), (3, 0x2A)]

/-- Its weights: the four of segment 0, and rows that bring the sums of the other segments. -/
def exampleWts : List Wt :=
  [⟨0, 0, 1⟩, ⟨1, 0, -1⟩, ⟨3, 0, 1⟩, ⟨128, 0, 1⟩, ⟨129, 0, 1⟩] ++
    ((upFrom 256 8).map fun r => ⟨r, 0, -1⟩) ++ [⟨384, 0, 1⟩]

/-- Its activations: 37, −90, 5, −128; 125 twice; 125 seven times and 128 as −(−128)…; 77 in row 300; 17. -/
def exampleActs : List Byte :=
  [37, 0xA6, 5, 0x80] ++ List.replicate 124 0 ++ [125, 125] ++ List.replicate 126 0 ++
    (List.replicate 7 127 ++ [114]) ++ List.replicate 36 0 ++ [77] ++ List.replicate 83 0 ++ [17] ++ List.replicate 127 0

theorem test_example_segments : (upFrom 0 4).map (segSum exampleWts false false exampleActs 0) = [-1, 250, -1003, 17] := by
  decide +kernel

/-- Variant 3 gives −484.90625, variant 0 omits entry 2 and gives −480.09375. -/
theorem test_example_column :
    (exactCol exampleScales exampleWts false false exampleActs [0x30_4000_0085, 0xA0_8300_4B05] 0).v = 0xC3F27400 ∧
      (exactCol exampleScales exampleWts false false exampleActs [0x30_4000_0085] 0).v = 0xC3F00C00 := by decide +kernel

/-- SHA-384 of "abc", the worked example of FIPS 180-4 (log entry 74). -/
theorem test_sha384_abc : wordOf ((sha384 [0x61, 0x62, 0x63]).take 8) = 0xCB00753F45A35E8B := by decide +kernel

/-- The entry that 04_correction_lantern.md encodes. -/
theorem test_entry_fields :
    eArray 0x00000BA083004B05 = 5 ∧ eRow 0x00000BA083004B05 = 300 ∧ eCol 0x00000BA083004B05 = 0 ∧
      eVariant 0x00000BA083004B05 = 3 ∧ eClass 0x00000BA083004B05 = 2 ∧ eValue 0x00000BA083004B05 = 0xA0 ∧
      eResidue 0x00000BA083004B05 = 11 := by decide +kernel

/-- The torn read of 06_belfry.md: NOW low is read at NS = 0x5_FFFF_FFF0; then time passes. -/
def afterLow (d ns : Nat) : State :=
  match execReg64LowRead (.fn 0) ⟨.bar0 0x10008, 4⟩ { up with time.belfry.ns := 0x5FFFFFFF0 } with
  | .next s => { s with now := s.now + d, time.belfry.ns := BitVec.ofNat 64 ns }
  | _ => up

/-- 400 ns later the high half is the one latched; 2 µs later it is the live one, and TORN is set. -/
theorem test_torn_read :
    (after (.reg64HighRead (.fn 0) 0x1000C) (afterLow 16000 0x600000010)).host.readOut = [5, 0, 0, 0] ∧
      (after (.reg64HighRead (.fn 0) 0x1000C) (afterLow 80000 0x6000007C0)).host.readOut = [6, 0, 0, 0] := by decide +kernel

/-! The queue and the table. -/

theorem test_step_pops : step { up with pending := [.badCode (.fn 0) 0x20] } = exec (.badCode (.fn 0) 0x20) up := rfl

theorem test_table_gives_no_bits : decodeTableWord 64 0x60143000C0000000 = none := rfl

/-! ## Ill-formed commands -/

theorem test_wf_size : WellFormed (.regWrite (.fn 0) (.bar0 0x20) 9 0) = false ∧ WellFormed (.regWrite (.fn 0) (.bar0 0x20) 0 0) = false ∧
    WellFormed (.regWrite (.fn 0) (.bar0 0x20) 8 0) = true := by decide
theorem test_wf_defined_word : WellFormed (.undefinedInstruction 5 0x0005140080000001) = false := by decide +kernel
theorem test_wf_bar4_read : WellFormed (.bar4Read 0 0 0) = false ∧ WellFormed (.bar4Read 0 0 4097) = false := by decide
theorem test_wf_bar4_write : WellFormed (.bar4Write 0 0 []) = false ∧ WellFormed (.bar4Write 0 0 (List.replicate 513 1)) = false := by
  decide +kernel
theorem test_wf_cxl : WellFormed (.cxlMemWrite 0 [1]) = false := by decide
theorem test_wf_completion : WellFormed (.hostCompletion 0 false (List.replicate 9 1)) = false := by decide
theorem test_wf_bad_code : WellFormed (.badCode (.fn 0) 0x01) = false := by decide
theorem test_wf_codes : WellFormed (.passResult tile0 0 [(4224, 0)]) = false := by decide
theorem test_wf_sparse : WellFormed (.imageCommit { imageFor 7 with weights := [(5, 0)] }) = false ∧
    WellFormed (.imageCommit { imageFor 7 with scales := [(7, 1), (7, 2)] }) = false := by decide +kernel
theorem test_wf_frame : WellFormed (.write 0 { frame 0 1 9 0 [1] with len := 2 }) = false ∧
    WellFormed (.write 0 (frame 0 1 9 0 (List.replicate 1025 0))) = false := by decide +kernel

/-! ## What meets the hypotheses of the statements -/

/-- Thread 5 of the next state, with the checkpoint of which STEP is 44. -/
def stepped : Thread := { thr with step := 44, handler := 0x2000 }

/-- Thread 5 has a checkpoint and waits for a slot after a restart. -/
def parked : State :=
  setThr (writeCheckpoint (withThr stepped) 5) 5 { stepped with restart := some 0x0C, slot := none, st := .waiting }

theorem parked_get (a k : Nat) (ha : a = 0x5FC0002800 ∨ a = 0x5FD0022800) (hk : k < 2048) :
    cellGet parked.mem.cells (a + k) = (slotBytes (withThr stepped) 5 stepped).getD k 0 := by
  have e : cellGet parked.mem.cells (a + k) = cellGet (wrStacked (wrStacked (withThr stepped) 0x5FC0002800
      (slotBytes (withThr stepped) 5 stepped)) 0x5FD0022800 (slotBytes (withThr stepped) 5 stepped)).mem.cells (a + k) := rfl
  have f : ∀ n, (getStack (withThr stepped) n).fenced = false := fun n => rfl
  rw [e, wrStacked_get, getStack_wrStacked, wrStacked_get, length_slotBytes]
  rcases ha with rfl | rfl
  · rw [if_neg (by omega), if_pos ⟨by omega, by omega, f _⟩, Nat.add_sub_cancel_left]
  · rw [if_pos ⟨by omega, by omega, f _⟩, Nat.add_sub_cancel_left]

theorem parked_checkpoint : checkpoint parked 5 = some (slotBytes (withThr stepped) 5 stepped) := by
  have h : ∀ a, a = 0x5FC0002800 ∨ a = 0x5FD0022800 → ckptCopy parked a = some (slotBytes (withThr stepped) 5 stepped) := by
    intro a ha
    apply ckptCopy_slot
    · have hp : parked.mem.poison = [] := rfl
      have hs : ∀ n, (getStack parked n).fenced = false := fun n => rfl
      simp [rangeBad, hp, hs]
    · have hl := length_slotBytes (withThr stepped) 5 stepped
      rw [← hl]
      apply rdBytes_of_get
      · rw [hl]; unfold stackedEnd; omega
      · intro k hk; rw [hl] at hk; exact parked_get a k ha hk
  exact checkpoint_both _ _ _ _ (by decide) (h _ (Or.inl rfl)) (h _ (Or.inr rfl))
/-- The check of a header does not depend on the upper half of EXC_INFO. -/
theorem headerOk_of (s : State) (i : Inst) (a k : Nat) (lg : Nat → Bool) (h : headerFault s i a k 0 lg = none) :
    HeaderOk s i a k lg := by
  intro u
  unfold headerFault at h ⊢
  dsimp only at h ⊢
  iterate 4
    split at h
    · cases h
    rw [if_neg (by assumption)]
  exact h

/-- Nothing is bad in a state without poison and fenced stacks. -/
theorem fine (s : State) (hp : s.mem.poison = []) (hs : s.mem.stackTab = []) (a : Nat) : lineBad s a = false := by
  simp [lineBad, hp, hs, getStack, tabGet]

/-- The state with a descriptor of a kind at 0x4000, and a thread that names it. -/
def descr (k : Nat) : State :=
  holding (withThr issuer) 0x4000 (image 128 [(0, 1, k), (1, 1, if k = 0xA0 ∨ k = 0xA1 then 0 else 1)])

/-- The image of the fixtures meets no fault, whatever the device's key is (R124 to R129). -/
theorem loadable_fine : loadFault loadable .full (imageFor Config.deviceKeyId) = none := by
  unfold loadFault
  rw [if_neg (by decide +kernel), if_neg (by decide +kernel), if_neg (by decide +kernel), if_neg (by decide +kernel),
    show anchorOf loadable (imageFor Config.deviceKeyId) = some { hash := 5, valid := true, floor := 3 } from by decide +kernel]
  dsimp only
  rw [if_neg (by decide +kernel), if_neg (by simp [imageFor]), if_neg (by simp [imageFor]), if_neg (by decide +kernel),
    if_neg (by decide +kernel), show contentFault loadable .full (imageFor Config.deviceKeyId) = none from by decide +kernel]
  dsimp only
  rw [if_pos (by decide +kernel)]

/-- The same value stands under every number of a range. -/
theorem tabGet_const {α : Type} (d v : α) (a n p : Nat) (ha : a ≤ p) (hp : p < a + n) :
    tabGet d ((upFrom a n).map fun q => (q, v)) p = v := by
  induction n generalizing a with
  | zero => omega
  | succ n ih =>
    by_cases h : a = p
    · simp [upFrom, tabGet, h]
    · rw [upFrom, List.map_cons]
      have := ih (a + 1) (by omega) (by omega)
      simp only [tabGet, if_neg (Ne.symm h), this]

/-- A device of which every array has been erased. -/
def erasedAll : State :=
  { up with img.zeroise := true, tile.tiles := (upFrom 0 1056).map fun p => (p, { erased := List.replicate 68 0 }) }

theorem erased_all : allErased erasedAll = true := by
  unfold allErased
  rw [List.all_eq_true]
  intro p hp
  have h : getTile erasedAll p = { erased := List.replicate 68 0 } := by
    obtain ⟨k, hk⟩ := List.mem_iff_getElem?.1 hp
    rw [upFrom_getElem?] at hk
    split at hk
    · cases hk; exact tabGet_const _ _ 0 1056 _ (by omega) (by omega)
    · cases hk
  rw [h]; rfl

/-- O1. -/
theorem met_StepRunsFrontCommand : ∃ (s : State) (c : Instr) (r : List Instr), s.pending = c :: r :=
  ⟨{ up with pending := [Instr.zeroiseComplete] }, Instr.zeroiseComplete, [], rfl⟩

/-- O2. -/
theorem met_IdleCyclePassesTime :
    ∃ s : State, s.pending = [] := by
  exact ⟨up, by decide +kernel⟩

/-- O5. -/
theorem met_MemoryStaysCanonical : ∃ s s' : State, Memory.wf s.mem.cells = true ∧ step s = .next s' :=
  ⟨State.reset, _, by decide, rfl⟩

/-- O6. -/
theorem met_IntegerResults :
    ∃ (s : State) (t : Tid) (g : Guard), Issues s t g := by
  exact ⟨(withThr thr), 5, (⟨0,false⟩ : Guard), by unfold Issues; decide +kernel⟩

/-- O7. -/
theorem met_DivisionResults :
    ∃ (s : State) (t : Tid) (g : Guard), Issues s t g := by
  exact ⟨(withThr thr), 5, (⟨0,false⟩ : Guard), by unfold Issues; decide +kernel⟩

/-- O8. -/
theorem met_BitCounts :
    ∃ (s : State) (t : Tid) (g : Guard), Issues s t g := by
  exact ⟨(withThr thr), 5, (⟨0,false⟩ : Guard), by unfold Issues; decide +kernel⟩

/-- O9. -/
theorem met_PredicateResults :
    (∃ (s : State) (t : Tid) (g : Guard), Issues s t g) ∧
    (∃ w : W64, ∃ k, k = wfld w.toNat 27 4 ∧ wfld w.toNat 58 6 = 0x0D ∧ (k = 6 ∨ k = 7 ∨ 11 < k ∨ wfld w.toNat 51 3 ≠
      0 ∨ (8 ≤ k ∧ (wfld w.toNat 31 1 = 1 ∨ wfld w.toNat 45 3 ≠ 0 ∨ wfld w.toNat 39 3 ≠ 0)))) := by
  refine ⟨?_, ?_⟩
  · exact ⟨(withThr thr), 5, (⟨0,false⟩ : Guard), by unfold Issues; decide +kernel⟩
  · exact ⟨0x3400000030000000, _, rfl, by decide +kernel⟩

/-- O10. -/
theorem met_FloatResults :
    ∃ (s : State) (t : Tid) (g : Guard), Issues s t g ∧ ∃ (src : BitVec 4) (dst : BitVec 4), 3 ≤ src.toNat ∧ 3 ≤
      dst.toNat ∧ dst ≠ 0xC := by
  exact ⟨(withThr
      { thr with g := [(1,0x3F800000),(2,0x7FC00001),(3,0x40490FDB),(4,0xFFFFFFFF80000001),(5,0x3C00)] }), 5,
      (⟨0,false⟩ : Guard), by unfold Issues; decide +kernel, 3, 5, by decide +kernel⟩

/-- O11. -/
theorem met_UndefinedWordRaisesIllegal :
    (∃ (s : State) (t : Tid) (w : W64), canIssue s t.toNat = true ∧ fetchFault s t.toNat = none ∧ definedWord w =
      false ∧ CanEnter (getThr s t.toNat)) ∧
    (∃ (s : State) (t : Tid) (w : W64), canIssue s t.toNat = true ∧ fetchFault s t.toNat = none ∧ definedWord w =
      false ∧ (¬CanEnter (getThr s t.toNat))) := by
  refine ⟨?_, ?_⟩
  · exact ⟨(withThr thr), 5, 0xFFFFFFFFFFFFFFFF, by decide +kernel, by decide +kernel, by decide +kernel,
      by unfold CanEnter; decide +kernel⟩
  · exact ⟨(withThr { thr with inHandler := true, exc := { pc := 0x1238 } }), 5, 0xFFFFFFFFFFFFFFFF,
      by decide +kernel, by decide +kernel, by decide +kernel, by unfold CanEnter; decide +kernel⟩

/-- O12. -/
theorem met_LoadsReadMemory :
    (∃ (s : State) (t : Tid) (g : Guard) (a : GReg) (size : BitVec 2) (sx : Bool) (off : BitVec 24) (c : Nat), Issues
      s t g ∧ (sx && size == 3) = false ∧ coreOf (getThr s t.toNat) = some c ∧ (∀ e ∈ (getCore s c).stores, e.tid ≠
      t) ∧ ∃ x, x = (gRd (getThr s t.toNat) a + off.signExtend 64).toNat ∧ ∃ n, n = 2 ^ size.toNat ∧ x % n = 0 ∧
      isStacked x = true ∧ inInst s (getThr s t.toNat).inst x n = true ∧ lineBad s x = false ∧ tabHas (getCore s
      c).dcache (x / 64) = false) ∧
    (∃ (s : State) (t : Tid) (g : Guard), Issues s t g) := by
  refine ⟨?_, ?_⟩
  · exact
      ⟨{ withThr { thr with g := [(1, 0x4008), (2, 7),(4,0x4000)] } with mem.cells := [(0x4000,0x91),(0x4007,0x88),(0x4008,0x80),(0x4009,0xF1)] },
      5, (⟨0,false⟩ : Guard), 1, 0, true, 0, 0, by unfold Issues; decide +kernel, by decide +kernel,
      by decide +kernel, by decide +kernel, _, rfl, _, rfl, by decide +kernel⟩
  · exact
      ⟨{ withThr { thr with g := [(1, 0x4008), (2, 7),(4,0x4000)] } with mem.cells := [(0x4000,0x91),(0x4007,0x88),(0x4008,0x80),(0x4009,0xF1)] },
      5, (⟨0,false⟩ : Guard), by unfold Issues; decide +kernel⟩

/-- O13. -/
theorem met_StoresEnterTheBuffer :
    ∃ (s : State) (t : Tid) (g : Guard) (a : GReg) (size : BitVec 2) (off : BitVec 24) (c : Nat), Issues s t g ∧
      coreOf (getThr s t.toNat) = some c ∧ ∃ x, x = gRd (getThr s t.toNat) a + off.signExtend 64 ∧ ∃ n, n = 2 ^
      size.toNat ∧ x.toNat % n = 0 ∧ inInst s (getThr s t.toNat).inst x.toNat n = true := by
  exact
      ⟨{ withThr { thr with g := [(1, 0x4008), (2, 7),(4,0x4000)] } with mem.cells := [(0x4000,0x91),(0x4007,0x88),(0x4008,0x80),(0x4009,0xF1)] },
      5, (⟨0,false⟩ : Guard), 1, 0, 0, 0, by unfold Issues; decide +kernel, by decide +kernel, _, rfl, _, rfl,
      by decide +kernel⟩

/-- O14. -/
theorem met_AtomicsReplaceOneWord :
    ∃ (s : State) (t : Tid) (g : Guard) (a : GReg), Issues s t g ∧ ∃ x, x = (gRd (getThr s t.toNat) a).toNat ∧
      amoFault s t.toNat x = none := by
  exact
      ⟨{ withThr { thr with g := [(1, 0x4008), (2, 7),(4,0x4000)] } with mem.cells := [(0x4000,0x91),(0x4007,0x88),(0x4008,0x80),(0x4009,0xF1)] },
      5, (⟨0,false⟩ : Guard), 1, by unfold Issues; decide +kernel, _, rfl, by decide +kernel⟩

/-- O15. -/
theorem met_FencesOrderMemory :
    ∃ (s : State) (t : Tid) (g : Guard) (c : Nat), Issues s t g ∧ coreOf (getThr s t.toNat) = some c := by
  exact
      ⟨{ withThr { thr with g := [(1, 0x4008), (2, 7),(4,0x4000)] } with mem.cells := [(0x4000,0x91),(0x4007,0x88),(0x4008,0x80),(0x4009,0xF1)] },
      5, (⟨0,false⟩ : Guard), 0, by unfold Issues; decide +kernel, by decide +kernel⟩

/-- O16. -/
theorem met_ControlTransfers :
    (∃ (s : State) (t : Tid) (g : Guard) (d : GReg) (a : GReg) (i32 : W32) (i24 : BitVec 24), Issues s t g ∧ ∃ th, th
      = getThr s t.toNat ∧ (∀ q ∈ ([(.br t g i32, 0, th.pc + i32.signExtend 64 * 8), (.brl t g d i32, d, th.pc +
      i32.signExtend 64 * 8), (.jr t g d a i24, d, gRd th a + i24.signExtend 64)] : List (Instr × GReg × W64)),
      q.2.2.toNat % 8 = 0 ∧ inInst s th.inst q.2.2.toNat 8 = true)) ∧
    (∃ (s : State) (t : Tid) (g : Guard), Issues s t g) := by
  refine ⟨?_, ?_⟩
  · exact ⟨(withThr { thr with g := [(1,0x3000)] }), 5, (⟨0,false⟩ : Guard), 0, 1, 4, 8,
      by unfold Issues; decide +kernel, _, rfl, by decide +kernel⟩
  · exact ⟨(withThr { thr with g := [(1,0x3000)] }), 5, (⟨0,false⟩ : Guard), by unfold Issues; decide +kernel⟩

/-- O17. -/
theorem met_ExitEndsTheThread :
    ∃ (s : State) (t : Tid) (g : Guard), Issues s t g ∧ ∃ th, th = getThr s t.toNat ∧ th.doneCnt = 0 := by
  exact ⟨(withThr thr), 5, (⟨0,false⟩ : Guard), by unfold Issues; decide +kernel, _, rfl, by decide +kernel⟩

/-- O18. -/
theorem met_StepCountsAStep :
    ∃ (s : State) (t : Tid) (g : Guard) (c : Nat), Issues s t g ∧ coreOf (getThr s t.toNat) = some c := by
  exact
      ⟨{ withThr { thr with g := [(1, 0x4008), (2, 7),(4,0x4000)] } with mem.cells := [(0x4000,0x91),(0x4007,0x88),(0x4008,0x80),(0x4009,0xF1)] },
      5, (⟨0,false⟩ : Guard), 0, by unfold Issues; decide +kernel, by decide +kernel⟩

/-- O19. -/
theorem met_HandlerReturns :
    (∃ (s : State) (t : Tid) (g : Guard) (a : GReg), Issues s t g ∧ ∃ th, th = getThr s t.toNat ∧ th.inHandler = true
      ∧ (gRd th a).toNat % 8 = 0 ∧ inInst s th.inst (gRd th a).toNat 8 = true) ∧
    (∃ (s : State) (t : Tid) (g : Guard) (a : GReg), Issues s t g ∧ ∃ th, th = getThr s t.toNat ∧ th.inHandler = true
      ∧ ¬((gRd th a).toNat % 8 = 0 ∧ inInst s th.inst (gRd th a).toNat 8 = true)) ∧
    (∃ (s : State) (t : Tid) (g : Guard), Issues s t g ∧ ∃ th, th = getThr s t.toNat ∧ th.inHandler = false ∧
      th.handler ≠ 0) ∧
    (∃ (s : State) (t : Tid) (g : Guard), Issues s t g ∧ ∃ th, th = getThr s t.toNat ∧ th.inHandler = false ∧
      th.handler = 0) := by
  refine ⟨?_, ?_, ?_, ?_⟩
  · exact ⟨withThr { thr with inHandler := true, exc := { pc := 0x1238 } }, 5, ⟨0, false⟩, 1,
      by unfold Issues; decide +kernel, _, rfl, by decide +kernel⟩
  · exact ⟨withThr { thr with inHandler := true, exc := { pc := 0x1238 }, g := [(1, 0x1001)] }, 5, ⟨0, false⟩, 1,
      by unfold Issues; decide +kernel, _, rfl, by decide +kernel⟩
  · exact ⟨(withThr { thr with inHandler := false, handler := 0x2000 }), 5, (⟨0,false⟩ : Guard),
      by unfold Issues; decide +kernel, _, rfl, by decide +kernel⟩
  · exact ⟨(withThr { thr with inHandler := false, handler := 0 }), 5, (⟨0,false⟩ : Guard),
      by unfold Issues; decide +kernel, _, rfl, by decide +kernel⟩

/-- O20. -/
theorem met_BreakAndTrapEnterTheHandler :
    (∃ (s : State) (t : Tid) (g : Guard), Issues s t g ∧ CanEnter (getThr s t.toNat)) ∧
    (∃ (s : State) (t : Tid) (g : Guard), Issues s t g ∧ (¬CanEnter (getThr s t.toNat))) := by
  refine ⟨?_, ?_⟩
  · exact ⟨(withThr thr), 5, (⟨0,false⟩ : Guard), by unfold Issues; decide +kernel,
      by unfold CanEnter; decide +kernel⟩
  · exact ⟨(withThr { thr with inHandler := true, exc := { pc := 0x1238 } }), 5, (⟨0,false⟩ : Guard),
      by unfold Issues; decide +kernel, by unfold CanEnter; decide +kernel⟩

/-- O21. -/
theorem met_ControlRegisters :
    (∃ (s : State) (t : Tid) (g : Guard) (k : Nat), Issues s t g ∧ (getThr s t.toNat).priv = true ∧
      (getThr s t.toNat).slot = some k) ∧
    (∃ (s : State) (t : Tid) (g : Guard) (a : GReg) (n m : BitVec 6), Issues s t g ∧ n.toNat = 47 ∧ m.toNat = 51 ∧
      (getThr s t.toNat).priv = true ∧ CanEnter (getThr s t.toNat) ∧ (gRd (getThr s t.toNat) a).getLsbD 8 = false) ∧
    (∃ (s : State) (t : Tid) (g : Guard) (a : GReg), Issues s t g ∧ let th := getThr s t.toNat
      let v := gRd th a
      v.getLsbD 8 = true ∧ cadInst s (v.toNat % 256) = th.inst.val) ∧
    (∃ (s : State) (t : Tid) (g : Guard) (a : GReg), Issues s t g ∧ let th := getThr s t.toNat
      let v := gRd th a
      CanEnter th ∧ v.getLsbD 8 = true ∧ cadInst s (v.toNat % 256) ≠ th.inst.val) ∧
    (∃ (s : State) (t : Tid) (u : Nat), (getThr s t.toNat).zarm = some u ∧ u ≤ s.now) := by
  refine ⟨⟨withThr thr, 5, always, 0, ?_⟩, ⟨withThr thr, 5, always, 1, 47, 51, ?_⟩,
    ⟨withThr { thr with g := [(1, 0x17F)] }, 5, always, 1, ?_⟩,
    ⟨reg (withThr { thr with g := [(1, 0x1FF)] }) (.cadence 1) (127 * 0x20 + 0x10) 0x300, 5, always, 1, ?_⟩,
    ⟨withThr { thr with zarm := some 2000000000000000 }, 5, 2000000000000000, by decide +kernel⟩⟩ <;>
    (try unfold Issues) <;> (try unfold CanEnter) <;> decide +kernel

/-- O22. -/
theorem met_RegisterInstructions :
    (∃ (s : State) (t : Tid) (g : Guard) (a : GReg) (k : Blk), Issues s t g ∧ let th := getThr s t.toNat
      let x := (gRd th a).toNat
      th.priv = true ∧ th.inst = 0 ∧ hasHeader k = true ∧ x < 0x4000000 ∧ x % 0x1000 = 0 ∧ x / 0x1000 % 4 = 0 ∧ blkOf x = some k) ∧
    (∃ (s : State) (t : Tid) (g : Guard) (a : GReg), Issues s t g ∧ let th := getThr s t.toNat
      th.priv = true ∧ th.inst = 0 ∧ (gRd th a).toNat = 0x0020008 ∧ FirstOrder s) ∧
    (∃ (s : State) (t : Tid) (g : Guard) (a : GReg), Issues s t g ∧ let th := getThr s t.toNat
      let x := (gRd th a).toNat
      th.priv = true ∧ th.inst ≠ 0 ∧ x % 4 = 0 ∧ x < 0x4000000 ∧
        (blkOf x).any (assigned (fetched s t.toNat) th.inst) = false ∧ CanEnter th) := by
  refine ⟨⟨withThr { thr with g := [(1, 0x8000)] }, 5, always, 1, .pwr, ?_⟩,
    ⟨withThr { thr with g := [(1, 0x20008), (2, 0x1234567)] }, 5, always, 1, ?_⟩,
    ⟨withThr { thr with inst := 3, pc := 0x10000000, g := [(1, 0x20008), (2, 5)] } |> fun s =>
      { s with insts := [(3, { st := .enabled })], reg.vals.act := [(blkBase (.inst 3) + 0x020, 0x1001)] }, 5, always, 1, ?_⟩⟩ <;>
    unfold Issues <;> (try unfold FirstOrder) <;> (try unfold CanEnter) <;> decide +kernel

/-- O23. -/
theorem met_TctlActsOnItsTarget :
    (∃ (s : State) (t : Tid) (g : Guard) (a : GReg), Issues s t g ∧ FirstOrder s ∧ let th := getThr s t.toNat
      let x := (gRd th a).toNat % 2 ^ 22
      let y := getThr s x
      th.priv = true ∧ th.inst = 0 ∧ x ≠ t.toNat ∧ live y = true ∧ y.st ≠ .suspended ∧ y.doneCnt = 0 ∧ y.statusAddr = 0 ∧
        y.granted = false ∧ ∃ k, coreOf y = some k ∧ (getCore s k).stores = []) ∧
    (∃ (s : State) (t : Tid) (g : Guard) (a : GReg), Issues s t g ∧ FirstOrder s ∧ let th := getThr s t.toNat
      let x := (gRd th a).toNat % 2 ^ 22
      let y := getThr s x
      th.priv = true ∧ th.inst = 0 ∧ x ≠ t.toNat ∧ live y = true ∧ y.st = .suspended ∧ y.restart = none ∧
        y.prior = some (.hot, .none) ∧ y.slot.isSome = true) ∧
    (∃ (s : State) (t : Tid) (g : Guard) (a : GReg), Issues s t g ∧ FirstOrder s ∧ let th := getThr s t.toNat
      let x := (gRd th a).toNat % 2 ^ 22
      let y := getThr s x
      th.priv = true ∧ th.inst = 0 ∧ x ≠ t.toNat ∧ live y = true ∧ y.st = .suspended ∧ y.restart = none ∧
        y.prior = some (.waiting, .time)) ∧
    (∃ (s : State) (t : Tid) (g : Guard) (d a : GReg), Issues s t g ∧ let th := getThr s t.toNat
      let x := (gRd th a).toNat % 2 ^ 22
      th.priv = true ∧ th.inst ≠ 0 ∧ tidInInst s th.inst x = true ∧ x ≠ t.toNat ∧ live (getThr s x) = true ∧
        ∀ n ∈ ([1, 2, 4] : List Nat), Loses s (threadOrder s x (some th.inst) n (some (t, d)))) ∧
    (∃ (s : State) (t : Tid) (g : Guard) (a : GReg), Issues s t g ∧ FirstOrder s ∧ let th := getThr s t.toNat
      let x := (gRd th a).toNat % 2 ^ 22
      th.priv = true ∧ th.inst = 0 ∧ x ≠ t.toNat ∧ live (getThr s x) = false) := by
  let two (y : Thread) : State := { up with mbx.threads := [(5, { thr with g := [(1, 7)] }), (7, y)] }
  refine ⟨⟨two { thr with slot := some 1 }, 5, always, 1, ?_, ?_, by decide, by decide, by decide, by decide, by decide,
      by decide, by decide, by decide, 0, by decide⟩,
    ⟨two { thr with st := .suspended, prior := some (.hot, .none), slot := some 1 }, 5, always, 1, ?_, ?_, ?_⟩,
    ⟨two { thr with st := .suspended, prior := some (.waiting, .time), slot := none }, 5, always, 1, ?_, ?_, ?_⟩,
    ⟨{ up with
        insts := [(3, { st := .enabled })]
        reg.vals.act := [(blkBase (.inst 3) + 0x010, 0x10000), (blkBase (.inst 3) + 0x020, 0x1001)]
        mbx.threads := [(5, { thr with inst := 3, pc := 0x10000000, g := [(1, 7)] }), (7, { thr with inst := 3, slot := some 1 })]
        reg.orders := [⟨up.now, 1, 0, .thread 7, 7, 7, true, none, 0⟩] }, 5, always, 0, 1, ?_, ?_⟩,
    ⟨two { st := .free }, 5, always, 1, ?_, ?_, ?_⟩⟩ <;>
    first | (unfold Issues; decide +kernel) | (unfold FirstOrder; decide +kernel) | (unfold Loses; decide +kernel) | decide +kernel

/-- O24. -/
theorem met_ManagementInstructions :
    let ok (s : State) (t : Tid) (g : Guard) : Prop := Issues s t g ∧ (getThr s t.toNat).priv = true ∧
      (getThr s t.toNat).inst = 0 ∧ FirstOrder s
    (∃ s t g, ok s t g ∧ regFld s .keep 0x018 1 1 = 1 ∧ s.keep.restoring = none ∧ zarmed s (getThr s t.toNat) = true ∧
      s.img.zeroise = false ∧ s.img.zeroiseFlag = false ∧ s.op.table = [] ∧ s.img.load = none ∧ s.time.launches = []) ∧
    (∃ s t g, ok s t g ∧ s.keep.restoring.isSome = true) ∧
    (∃ s t g, ok s t g ∧ s.keep.restoring = none ∧ regFld s .keep 0x018 1 1 ≠ 1) ∧
    (∃ s t g, ok s t g ∧ regFld s .keep 0x018 1 1 = 1 ∧ zarmed s (getThr s t.toNat) = false) ∧
    (∃ s t g, ok s t g ∧ s.keep.restoring = none ∧ regFld s .keep 0x018 1 1 = 1 ∧ zarmed s (getThr s t.toNat) = true ∧
      s.img.zeroise = true) := by
  intro ok
  let armed : State := reg (withThr { thr with zarm := some 2000000000000001 }) .keep 0x018 2
  refine ⟨⟨armed, 5, always, ?_, ?_⟩, ⟨{ armed with keep.restoring := some 4 }, 5, always, ?_, ?_⟩,
    ⟨reg armed .keep 0x018 0, 5, always, ?_, ?_⟩,
    ⟨reg (withThr { thr with zarm := some 2000000000000000 }) .keep 0x018 2, 5, always, ?_, ?_⟩,
    ⟨{ armed with img.zeroise := true }, 5, always, ?_, ?_⟩⟩ <;>
    first | (dsimp only [ok]; unfold Issues FirstOrder; decide +kernel) | decide +kernel

/-- O25. -/
theorem met_OperationsTakeAnEntry :
    (∀ q ∈ opKinds 5 always 9 1 true, ∃ (s : State) (t : Tid) (g : Guard) (a : GReg), Issues s t g ∧
      let u := release (fetched s t.toNat) t.toNat
      let th := getThr s t.toNat
      opAvailable u th.inst t.toNat = true ∧ HeaderOk u th.inst (gRd th a).toNat q.2 (fun lg => lg == 0)) ∧
    ∃ (s : State) (t : Tid) (g : Guard), Issues s t g ∧
      opAvailable (release (fetched s t.toNat) t.toNat) (getThr s t.toNat).inst t.toNat = false := by
  constructor
  · have h : ∀ q ∈ opKinds 5 always 9 1 true, (canIssue (descr q.2) 5 = true ∧ fetchFault (descr q.2) 5 = none ∧
        guardOf (getThr (descr q.2) 5) always = true) ∧
        opAvailable (release (fetched (descr q.2) 5) 5) 0 5 = true ∧
        headerFault (release (fetched (descr q.2) 5) 5) 0 0x4000 q.2 0 (fun lg => lg == 0) = none := by decide +kernel
    intro q hq
    obtain ⟨h1, h2, h3⟩ := h q hq
    exact ⟨descr q.2, 5, always, 1, h1, h2, headerOk_of _ _ _ _ _ h3⟩
  · exact ⟨reg (withThr thr) (.inst 0) 0x014 0, 5, always, by unfold Issues; decide +kernel, by decide +kernel⟩

/-- O26. -/
theorem met_ArmAndDisarm :
    (∀ grp : Bool, ∃ (s : State) (t : Tid) (g : Guard) (a b : GReg), Issues s t g ∧
      let u := release (fetched s t.toNat) t.toNat
      let th := getThr s t.toNat
      let x := (gRd th a).toNat
      let kind := rdNat u x 1
      HeaderOk u th.inst x kind (fun lg => (lg != 0) == grp) ∧ inInst u th.inst x 64 = true ∧ lineBad u x = false ∧
        kindKnown kind = true ∧ kind ≠ 0xA0 ∧ kind ≠ 0xA1 ∧ kind ≠ 0xC0 ∧ bit (rdNat u (x + 1) 1) 1 = false ∧
        armRefusal u t.toNat th.inst kind grp (gRd th b).toNat = none ∧
        (grp = true → groupFault u th.inst (rdNat u (x + 2) 2) = none)) ∧
    (∃ (s : State) (t : Tid) (g : Guard) (a b : GReg) (why : Byte), Issues s t g ∧
      let u := release (fetched s t.toNat) t.toNat
      let th := getThr s t.toNat
      let x := (gRd th a).toNat
      let kind := rdNat u x 1
      HeaderOk u th.inst x kind (fun lg => (lg != 0) == false) ∧ inInst u th.inst x 64 = true ∧ lineBad u x = false ∧
        kindKnown kind = true ∧ kind ≠ 0xA0 ∧ kind ≠ 0xA1 ∧ kind ≠ 0xC0 ∧ bit (rdNat u (x + 1) 1) 1 = false ∧
        armRefusal u t.toNat th.inst kind false (gRd th b).toNat = some why) ∧
    (∃ (s : State) (t : Tid) (g : Guard) (d a : GReg), Issues s t g ∧ let th := getThr s t.toNat
      armedBy (fetched s t.toNat) th.inst (gRd th a).toNat = none ∧ d ≠ 0) ∧
    (∃ (s : State) (t : Tid) (g : Guard) (d a : GReg) (i : Nat), Issues s t g ∧ let th := getThr s t.toNat
      armedBy (fetched s t.toNat) th.inst (gRd th a).toNat = some i ∧ d ≠ 0 ∧ nsNow s + 8000 < (getLaunch s i).t.toNat) ∧
    (∃ (s : State) (t : Tid) (g : Guard) (d a : GReg) (i : Nat), Issues s t g ∧ let th := getThr s t.toNat
      armedBy (fetched s t.toNat) th.inst (gRd th a).toNat = some i ∧ d ≠ 0 ∧ (getLaunch s i).t.toNat ≤ nsNow s + 8000) := by
  let timed (s : State) : State := { s with time.belfry.timeValid := true, time.belfry.state := .locked, time.belfry.ns := 1000 }
  let plain (i : Thread) : State := timed (holding (withThr i) 0x4000 (image 128 [(0, 1, 0x80), (1, 1, 1)]))
  let armedAt (t : W64) : State :=
    { withThr { issuer with g := [(1, BitVec.ofNat 64 (2 ^ 63 + 3 * 2 ^ 44 + 9 * 2 ^ 12 + 7))] } with
      time.launches := [(3, { st := .armed, t := t, op := 7 })], op.table := [(7, { used := true, seq := 9 })] }
  refine ⟨?_, ?_, ⟨plain issuer, 5, always, 9, 1, by unfold Issues; decide +kernel, by decide +kernel⟩,
    ⟨armedAt 8001, 5, always, 9, 1, 3, by unfold Issues; decide +kernel, by decide +kernel⟩,
    ⟨armedAt 8000, 5, always, 9, 1, 3, by unfold Issues; decide +kernel, by decide +kernel⟩⟩
  · intro grp
    cases grp
    · exact ⟨plain issuer, 5, always, 1, 2, by unfold Issues; decide +kernel, headerOk_of _ _ _ _ _ (by decide +kernel),
        by decide +kernel⟩
    · exact ⟨timed (peered (holding (grouped (withThr issuer) 0) 0x4000 (image 128 [(0, 1, 0x80), (1, 1, 1), (2, 2, 1)]))), 5,
        always, 1, 2, by unfold Issues; decide +kernel, headerOk_of _ _ _ _ _ (by decide +kernel), by decide +kernel⟩
  · exact ⟨plain { issuer with g := [(1, 0x4000), (2, 8999)] }, 5, always, 1, 2, whyLate, by unfold Issues; decide +kernel,
      headerOk_of _ _ _ _ _ (by decide +kernel), by decide +kernel⟩

/-- O27. -/
theorem met_WaitsAndReturns :
    (∃ (s : State) (t : Tid) (g : Guard), Issues s t g ∧ (getThr s t.toNat).bound = false) ∧
    (∃ (s : State) (t : Tid) (g : Guard), Issues s t g ∧ let th := getThr s t.toNat
      let k := getCad s th.cad.toNat
      th.bound = true ∧ th.tickDue = none ∧ th.lastOcc < k.occ) ∧
    (∀ run : Bool, ∃ (s : State) (t : Tid) (g : Guard), Issues s t g ∧ let th := getThr s t.toNat
      let k := getCad s th.cad.toNat
      th.bound = true ∧ th.tickDue = none ∧ k.occ ≤ th.lastOcc ∧ k.running = run) ∧
    (∃ (s : State) (t : Tid) (g : Guard) (a : GReg), Issues s t g ∧ (gRd (getThr s t.toNat) a).toNat = nsNow s) ∧
    (∃ (s : State) (t : Tid) (g : Guard) (a : GReg), Issues s t g ∧ (gRd (getThr s t.toNat) a).toNat = nsNow s + 1) ∧
    (∃ (s : State) (t : Tid) (g : Guard) (a b : GReg), Issues s t g ∧ let th := getThr s t.toNat
      let x := (gRd th a).toNat
      cntFault s t.toNat x = none ∧ (gRd th b).toNat = rdNat s x 8) ∧
    (∃ (s : State) (t : Tid) (g : Guard) (a b : GReg), Issues s t g ∧ let th := getThr s t.toNat
      let x := (gRd th a).toNat
      cntFault s t.toNat x = none ∧ (gRd th b).toNat = rdNat s x 8 + 1) ∧
    (∃ (s : State) (t : Tid), let th := getThr s t.toNat
      th.st = .waiting ∧ th.startTick = false ∧ th.waitDest ≠ 0 ∧ th.wait = .time ∧ th.waitArg.toNat = nsNow s) ∧
    (∃ (s : State) (t : Tid), let th := getThr s t.toNat
      th.st = .waiting ∧ th.startTick = false ∧ th.waitDest ≠ 0 ∧ th.wait = .counter ∧ lineBad s th.waitArg.toNat = false ∧
        th.waitVal.toNat = rdNat s th.waitArg.toNat 8) ∧
    (∀ w ∈ ([.cadence, .counter] : List WaitKind), ∃ (s : State) (t : Tid) (u : Nat), let th := getThr s t.toNat
      th.st = .waiting ∧ th.startTick = false ∧ th.waitDest ≠ 0 ∧ th.limitAt = some u ∧ u ≤ s.now ∧ CanEnter th ∧ th.wait = w) := by
  let at5 (th : Thread) (occ : Nat) (run : Bool) : State := { withThr th with
    mem.cells := [(0x4000, 5)], time.belfry.ns := 1000, time.cadences := [(0, { running := run, occ := occ })] }
  let th (a b : W64) (bound : Bool) : Thread := { thr with g := [(1, a), (2, b)], bound := bound, lastOcc := 4 }
  let waits (w : WaitKind) (a : W64) : Thread :=
    { thr with st := .waiting, waitDest := 9, wait := w, waitArg := a, waitVal := 5, limitAt := some 2000000000000000 }
  refine ⟨⟨at5 (th 0 0 false) 4 true, 5, always, ?_⟩, ⟨at5 (th 0 0 true) 5 true, 5, always, ?_⟩,
    fun run => ⟨at5 (th 0 0 true) 4 run, 5, always, ?_⟩, ⟨at5 (th 1000 0 false) 4 true, 5, always, 1, ?_⟩,
    ⟨at5 (th 1001 0 false) 4 true, 5, always, 1, ?_⟩, ⟨at5 (th 0x4000 5 false) 4 true, 5, always, 1, 2, ?_⟩,
    ⟨at5 (th 0x4000 6 false) 4 true, 5, always, 1, 2, ?_⟩, ⟨at5 (waits .time 1000) 4 true, 5, by decide +kernel⟩,
    ⟨at5 (waits .counter 0x4000) 4 true, 5, by decide +kernel⟩, ?_⟩
  case refine_8 =>
    intro w hw
    have h : w = .cadence ∨ w = .counter := by simpa using hw
    rcases h with rfl | rfl
    · exact ⟨at5 (waits .cadence 0x4000) 4 true, 5, 2000000000000000, by unfold CanEnter; decide +kernel⟩
    · exact ⟨at5 (waits .counter 0x4000) 4 true, 5, 2000000000000000, by unfold CanEnter; decide +kernel⟩
  case refine_3 => cases run <;> (unfold Issues; decide +kernel)
  all_goals (unfold Issues; decide +kernel)

/-- O28. -/
theorem met_RingPages :
    (∃ (s : State) (b n : Inst) (a : Nat), FirstOrder s ∧ reachesPage s b n = true ∧ instEnabled s n = true ∧
      a = (getInst s n).cntAddr.toNat ∧ a % 8 = 0 ∧ inInstStacked s n a 8 = true ∧ lineBad s a = false) ∧
    (∃ (s : State) (b n : Inst) (v : W32), FirstOrder s ∧ reachesPage s b n = true ∧ v.getLsbD 31 = true ∧
      tidInInst s n (v.toNat % 2 ^ 22) = true ∧ live (getThr s (v.toNat % 2 ^ 22)) = true) := by
  let x : State := { withThr thr with
    mem.cells := [(0x4000, 255), (0x4001, 255)]
    insts := [(0, { st := .enabled, cntAddr := 0x4000, cntLow := some 0xFFFFFFFF })]
    mbx.rings := [(1, { stopped := true, err := 3, tail := 4, privOk := true })] }
  exact ⟨⟨x, 0, 0, 0x4000, by unfold FirstOrder; decide +kernel⟩, ⟨x, 0, 0, 0x80000005, by unfold FirstOrder; decide +kernel⟩⟩

/-- A ring of instance 0 whose record at HEAD has some flags. -/
def ringWith (log2 : BitVec 5) (privOk : Bool) (flags : Nat) : State :=
  holding { up with
    mbx.rings := [(1, { enable := true, base := 0x4000, tail := 1, head := 0, log2 := log2, privOk := privOk })]
    time.cadences := [(2, { running := true })] }
    0x4000 (image 64 [(0, 8, 0x3000), (8, 8, 42), (0x10, 8, 0x7000), (0x20, 8, 99), (0x28, 4, 5), (0x2C, 1, 3), (0x2D, 1, flags),
      (0x2E, 1, 2), (0x30, 1, 4)])

/-- O29. -/
theorem met_LaunchRecord :
    (∃ (s : State) (n : Inst) (j : Fin 4) (err : Byte), nextRing s = some (n.val, j.val) ∧
      ringError s n (getRing s n j) = some err) ∧
    (∃ (s : State) (n : Inst) (j : Fin 4) (code : Nat), nextRing s = some (n.val, j.val) ∧ let r := getRing s n j
      let l := launchRec (rdBytes s (r.base.toNat + r.head.toNat % 2 ^ r.log2.toNat * 64) 64)
      ringError s n r = none ∧ launchRefusal s n j l = some code ∧ l.doneCnt = 0) ∧
    (∃ (s : State) (n : Inst) (j : Fin 4), nextRing s = some (n.val, j.val) ∧ let r := getRing s n j
      let l := launchRec (rdBytes s (r.base.toNat + r.head.toNat % 2 ^ r.log2.toNat * 64) 64)
      ringError s n r = none ∧ launchRefusal s n j l = none ∧ bit l.flags 4 = false) ∧
    (∃ (s : State) (n : Inst) (j : Fin 4), nextRing s = some (n.val, j.val) ∧ let r := getRing s n j
      let l := launchRec (rdBytes s (r.base.toNat + r.head.toNat % 2 ^ r.log2.toNat * 64) 64)
      ringError s n r = none ∧ launchRefusal s n j l = none ∧ bit l.flags 4 = true ∧ bit l.flags 2 = true ∧
        (getCad s l.cadence).running = true) :=
  ⟨⟨ringWith 5 true 8, 0, 1, 2, by decide +kernel⟩, ⟨ringWith 6 false 8, 0, 1, 8, by decide +kernel⟩,
    ⟨ringWith 6 true 8, 0, 1, by decide +kernel⟩, ⟨ringWith 6 true 0x14, 0, 1, by decide +kernel⟩⟩

/-- O30. -/
theorem met_Scheduling :
    (∃ (s : State) (t : Tid) (x : Nat × Thread), ∃ th, th = getThr s t.toNat ∧ th.st = .ready ∧ leastBy servedBefore
      (placeable s th.home) = some x ∧ x.1 = t.toNat ∧ ∃ k, freeSlotIn s th.home th.pin = some k) ∧
    (∃ (s : State) (t : Tid) (x : Nat × Thread), ∃ th, th = getThr s t.toNat ∧ th.st = .ready ∧ leastBy servedBefore
      (placeable s th.home) = some x ∧ x.1 = t.toNat ∧ ∃ v, freeSlotIn s th.home th.pin = none ∧ victimIn s th.home
      th.prio.toNat th.pin = some v ∧ v.1 ≠ t.toNat) ∧
    (∃ (s : State) (t : Tid), ∃ th, th = getThr s t.toNat ∧ th.st = .hot ∧ th.slotSince + regFld s .sched 0x008 0 16
      * 40000 ≤ s.now) ∧
    (∃ (s : State) (c : Fin 256), unitFenced s (unitOf 4 c) = false ∧ windowHit s (unitOf 4 c) = none) ∧
    (∃ (s : State) (t : Tid) (code : Byte) (l : List Byte), ∃ th, th = getThr s t.toNat ∧ th.restart = some code ∧
      checkpoint s t.toNat = some l ∧ laterOps s t.toNat = [] ∧ th.slot = none) := by
  refine ⟨?_, ?_, ?_, ?_, ?_⟩
  · exact ⟨{ up with mbx.threads := [(5,thr),(50,{thr with st := .ready, slot := none, home := 1, prio := 2})] },
      50, (50,{thr with st := .ready, slot := none, home := 1, prio := 2}), _, rfl, by decide +kernel,
      by decide +kernel, by decide +kernel, 1024, by decide +kernel⟩
  · exact
      ⟨{ up with flt.spireFenced := 14, mbx.cores := (upFrom 1 63).map (fun c => (c,{fenced:=true})), mbx.threads := ((upFrom 10 16).map fun i => (i,{thr with slot := some (i-10), prio := 1, st := if i = 13 then .waiting else .hot})) ++ [(50,{thr with st := .ready, slot := none, home := 0, prio := 2})] },
      50, (50,{thr with st := .ready, slot := none, home := 0, prio := 2}), _, rfl, by decide +kernel,
      by decide +kernel, by decide +kernel, (13,{thr with slot := some 3, prio := 1, st := .waiting}),
      by decide +kernel⟩
  · exact ⟨(withThr thr), 5, _, rfl, by decide +kernel⟩
  · exact ⟨(withThr thr), 0, by decide +kernel⟩
  · exact ⟨parked, 5, 0x0C, slotBytes (withThr stepped) 5 stepped, _, rfl, by decide +kernel, parked_checkpoint,
      by decide +kernel⟩

/-- O31. -/
theorem met_OperationLife :
    (∃ (s : State) (e : OpIx) (g : GroupRec), let o := getOp s e
      o.used = true ∧ o.started = false ∧ o.launch = none ∧ o.result = none ∧ o.flags.toNat < 2 ∧
        s.now < o.issued + 2 ^ 30 * 40 ∧ s.flt.devFence = false ∧
        (o.body ≠ [] ∨ rangeBad s o.addr.toNat 128 = false) ∧ 0xE0 ≤ o.kind.toNat ∧ freeColl s = none ∧
        groupRec s o.inst (collWork (opBody s e) o.kind.toNat).group.toNat = some g ∧
        collFault s o.inst (opBody s e) { collWork (opBody s e) o.kind.toNat with
          members := g.members, rank := g.rank, coord := g.coord, listCrc := g.crc } (some g) = none) ∧
    (∃ (s : State) (e : OpIx), let o := getOp s e
      o.used = true ∧ o.started = false ∧ o.launch = none ∧ o.result = none ∧ o.issued + 2 ^ 30 * 40 = s.now) ∧
    (∃ (s : State) (e : OpIx) (r : Byte), let o := getOp s e
      o.used = true ∧ o.result = some r ∧ o.grouped = false ∧ opBusy s e = false) := by
  let b := image 128 [(0, 1, 0xE0), (0x28, 8, 0x10000), (0x30, 8, 0x20000), (0x38, 8, 4), (0x40, 2, 1), (0x44, 1, 0xF)]
  let arOp (t : Nat) : Op := { used := true, kind := 0xE0, lgroup := 1, issued := t, body := b }
  let x (t : Nat) : State := { peered (grouped up 0) with
    op.table := [(7, arOp t)], op.collEngines := (upFrom 0 4).map fun k => (k, { op := some 9 }) }
  let g := (groupRec (x 0) 0 1).getD ⟨[], 0, 0, 0⟩
  exact ⟨⟨x (2000000000000000 - 2 ^ 30 * 40 + 1), 7, g, by decide +kernel⟩,
    ⟨x (2000000000000000 - 2 ^ 30 * 40), 7, by decide +kernel⟩,
    ⟨{ withThr thr with op.table := [(7, { used := true, tid := 5, result := some 0x0F, statusAddr := 0x4000, tag := 0x12345678 })] },
      7, 0x0F, by decide +kernel⟩⟩

/-- O32. -/
theorem met_PositionsAndSeeds :
    (∃ (s : State) (t : TileId) (p : Fin 64) (w : PosWrite),
      firstOf (fun w : PosWrite => physTile s w.tile == tileNo t && w.pos == p.val) s.op.posQueue = some w ∧
        tabHas (getTile s (tileNo t)).positions p = false) ∧
    (∃ (s : State) (t : TileId) (m : SeedMsg) (w : PassWork),
      firstOf (fun m : SeedMsg => physTile s m.tile == tileNo t) s.op.seeds = some m ∧ passOf s m.op = some w ∧
        let x := getTile s (tileNo t)
        recordedScale x m.op ((w.acc + m.vec / w.vb) % 2) (m.vec % w.vb) (m.vec / w.vb) = some m.scale) ∧
    (∃ (s : State) (t : TileId) (m : SeedMsg) (w : PassWork),
      firstOf (fun m : SeedMsg => physTile s m.tile == tileNo t) s.op.seeds = some m ∧ passOf s m.op = some w ∧
        let x := getTile s (tileNo t)
        recordedScale x m.op ((w.acc + m.vec / w.vb) % 2) (m.vec % w.vb) (m.vec / w.vb) = none) := by
  let m : SeedMsg := ⟨7, 0, 0, false, 1, 9, ones.map fun _ => 3⟩
  let x (f : List Fill) : State := { withTile (withOp up (.pass work7)) { blocks := [(0, { fills := f })] } with op.seeds := [m] }
  exact ⟨⟨{ withTile (withOp up (.pass work7)) {} with op.posQueue := [⟨7, 0, 4, [], 1, 1, 1⟩, ⟨7, 0, 3, ones, 5, 1, 2⟩] },
      tile0, 3, ⟨7, 0, 3, ones, 5, 1, 2⟩, by decide +kernel⟩,
    ⟨x [{ op := some 7, scales := [(1, 9)] }], tile0, m, work7, by decide +kernel⟩, ⟨x [], tile0, m, work7, by decide +kernel⟩⟩

/-- A tile of operation 7, with a pass to admit or none. -/
def waitingTile (l : List PassReq) : State :=
  withTile (withOp up (.pass work7))
    { positions := [(3, { data := ones, scale := 0x3F800000, uses := 2 }), (4, { uses := 0 }), (5, { held := 1 })]
      todo := l, arrs := [(1, { st := .active })], image := some 0, boundary := 41 }

/-- O33. -/
theorem met_PassBoundaryAdmits :
    let idle (s : State) (p : Nat) : Prop := let x := getTile s p
      tilePowered s p = true ∧ x.nextB ≤ s.now / 32 * 32 ∧ x.rewrites = [] ∧ x.flight = [] ∧ x.exactQ = [] ∧ x.recompQ = [] ∧
        x.exactBusy = none ∧ x.fullQ = false ∧ servePort s p = s ∧ s.reg.vals.pend = []
    (∃ s t, idle s (tileNo t) ∧ (getTile s (tileNo t)).todo = []) ∧
    (∃ (s : State) (t : TileId) (q : PassReq) (a : Nat) (w : PassWork), let p := tileNo t
      let x := getTile s p
      idle s p ∧ x.todo = [q] ∧ q.exact = false ∧ q.variant = 0 ∧ q.reps = 1 ∧ passOf s q.op = some w ∧ admitTest s p q = .go ∧
        servingArr x q.array = some a ∧ tileOpen s p = true) :=
  ⟨⟨waitingTile [], tile0, by decide +kernel⟩, ⟨waitingTile [req7], tile0, req7, 1, work7, by decide +kernel⟩⟩

/-- The pass of operation 7 in flight, in the last of its `r` repeats. -/
def flight7 (r : Nat) : Flight :=
  { req := { req7 with reps := r }, phys := some 1, slot := some 0, data := [], scale := 0x3F800000, entries := [0x00000BA083004B05]
    overflow := [], due := [5], got := r - 1 }

/-- A tile with that pass in flight, on an array of which the blocks in `m` are not checked. -/
def flying (m : W64) (r : Nat) : State :=
  withTile (withOp up (.pass work7))
    { positions := [(3, {})], arrs := [(1, { mask := m })], flight := [flight7 r]
      blocks := [(0, { fills := [{ op := some 7, scales := [(0, 9)] }] })], image := some 0 }

/-- The same pass as the exact unit's, its last segment under way. -/
def exact7 : ExactReq := { for_ := .passx, flight := flight7 1, prio := 0, age := 0, since := 0, segs := 3 }

/-- A tile whose exact unit has it. -/
def computing : State :=
  withTile (withOp up (.pass work7))
    { exactBusy := some exact7, blocks := [(0, { fills := [{ op := some 7, scales := [(0, 9)] }] })], image := some 0 }

/-- A pass of operation 7, which goes on, is a run of one. -/
theorem oneStep_work7 (s : State) (p : Nat) (q : PassReq)
    (h : ((getOp s q.op).used = true ∧ (getOp s q.op).result = none ∧ findRun (getTile s p) q = none ∧ q.firstK = 0 ∧
      q.kblock = 0 ∧ q.lastK = 0 ∧ q.listLast = 0) ∧ passOf s q.op = some work7 ∧ logTile s p = some 0 ∧
      (fillOf (getBlock (getTile s p) q.blk) q.op).final.length + 1 ≠
        (tileObs work7.items 0).length * groupVectors work7 (fillOf (getBlock (getTile s p) q.blk) q.op).group) : OneStep s p q :=
  let ⟨⟨a, b, c, d, e, f, g⟩, k⟩ := h
  ⟨a, b, c, d, e, f, g, work7, 0, k⟩

theorem checkBlock_mask_ne (k : Conv) (es : List W64) (o : CheckOut) (x : Nat × Nat × Nat) (h : o.mask ≠ 0) :
    (checkBlock k es o x).mask ≠ 0 := by
  unfold checkBlock
  dsimp only
  split
  · dsimp only
    split
    · exact h
    · exact Nat.ne_of_gt (Nat.add_pos_left (Nat.pos_of_ne_zero h) _)
  · exact h

theorem checkFold_mask_ne (k : Conv) (es : List W64) (l : List (Nat × Nat × Nat)) (o : CheckOut) (h : o.mask ≠ 0) :
    (l.foldl (checkBlock k es) o).mask ≠ 0 := by
  induction l generalizing o with
  | nil => exact h
  | cons x l ih => exact ih _ (checkBlock_mask_ne k es o x h)

/-- A pass whose first block fails has failed its check. -/
theorem checkPass_fails (k : Conv) (es : List W64) (h : blockFails k es 0 0 0 = true) : (checkPass k es).mask ≠ 0 := by
  have e : (checkBlock k es {} (0, 0, 0)).mask ≠ 0 := by
    simp [checkBlock, h, bit]
  rw [checkPass, show upFrom 0 128 = 0 :: upFrom 1 127 from rfl, List.map_cons, List.foldl_cons]
  exact checkFold_mask_ne k es _ _ e

/-- What the conversions of a repeat are, for its check. -/
def convOf7 (s : State) (p : Nat) (f : Flight) (a : Nat) (codes : List (Nat × BitVec 12)) : Conv :=
  { arr := arrOf s p a, trims := f.trims.headD [], ws := arrWts (arrOf s p a), codes := codes, uns := f.req.unsigned, d := f.data }

theorem gatherRepeat_fails (s : State) (p : Nat) (f : Flight) (a : Nat) (codes : List (Nat × BitVec 12))
    (h : blockFails (convOf7 s p f a codes) f.entries 0 0 0 = true) : (gatherRepeat s p f a codes).2.mask ≠ 0 := by
  have e : (gatherRepeat s p f a codes).2 = checkPass (convOf7 s p f a codes) f.entries := by
    simp only [gatherRepeat, convOf7]
    split <;> rfl
  rw [e]
  exact checkPass_fails _ _ h

/-- O34. -/
theorem met_PassResultsReachTheirSlots :
    (∃ (s : State) (t : TileId) (a : Fin 64) (codes : List (Nat × BitVec 12)) (f : Flight) (k : Nat), OneStep s (tileNo t) f.req ∧
      Quiet (getTile s (tileNo t)) ∧ firstOf (dueFor s.now a) (getTile s (tileNo t)).flight = some f ∧
      (f.got + 1 = f.req.reps ∧ f.entries ≠ [] ∧ f.entries.all residueOk = true ∧ f.bad = false ∧ f.fail = false) ∧
      f.phys = some k ∧ (gatherRepeat s (tileNo t) f k codes).2.mask = 0) ∧
    (∃ (s : State) (t : TileId) (a : Fin 64) (codes : List (Nat × BitVec 12)) (f : Flight) (k : Nat), OneStep s (tileNo t) f.req ∧
      Quiet (getTile s (tileNo t)) ∧ firstOf (dueFor s.now a) (getTile s (tileNo t)).flight = some f ∧
      (f.got + 1 = f.req.reps ∧ f.entries.all residueOk = true ∧ f.bad = false) ∧
      f.phys = some k ∧ (gatherRepeat s (tileNo t) f k codes).2.mask ≠ 0) ∧
    (∃ (s : State) (t : TileId) (x : ExactReq), x.home = none ∧ OneStep s (tileNo t) x.flight.req ∧
      (getTile s (tileNo t)).exactBusy = some x ∧ (getTile s (tileNo t)).exactQ = [] ∧ (getTile s (tileNo t)).recompQ = [] ∧
      sharedPasses s (tileNo t) = [] ∧
      (x.for_ ≠ .recompute ∧ exactOver s.now x = true ∧ x.flight.entries.all residueOk = true ∧ x.flight.bad = false) ∧
      imageReadable s (flightImage s (tileNo t) x.flight).1 (flightImage s (tileNo t) x.flight).2.1 x.flight.req.array = true) :=
  ⟨⟨flying 0xFFFFFFFFFFFFFFFF 4, tile0, 1, [(0, 5)], flight7 4, 1, oneStep_work7 _ _ _ (by decide +kernel),
      by unfold Quiet; decide +kernel, by decide +kernel, by decide +kernel, rfl, by decide +kernel⟩,
    ⟨flying 0xFFFFFFFFFFFFFFFE 1, tile0, 1, [(0, 0x7FF), (1, 0x7FF), (2, 0x7FF), (3, 0x7FF)], flight7 1, 1,
      oneStep_work7 _ _ _ (by decide +kernel), by unfold Quiet; decide +kernel, by decide +kernel, by decide +kernel,
      rfl, gatherRepeat_fails _ _ _ _ _ (by decide +kernel)⟩,
    ⟨computing, tile0, exact7, rfl, oneStep_work7 _ _ _ (by decide +kernel), by decide +kernel, by decide +kernel, by decide +kernel,
      by decide +kernel, by decide +kernel, by decide +kernel⟩⟩

/-- O35. -/
theorem met_BlockDrainFreesTheBlock :
    let due (s : State) (p b e n : Nat) (w : PassWork) (x : Fill) : Prop :=
      drainingFill (getBlock (getTile s p) b) = some x ∧ x.op = some e ∧ logTile s p = some n ∧ passOf s e = some w
    (∃ (s : State) (t : TileId) (b : Fin 2) (e n : Nat) (w : PassWork) (x : Fill), let k := getBlock (getTile s (tileNo t)) b
      due s (tileNo t) b e n w x ∧ resReadable s w (drainRows w n x) = true ∧ k.fills = [x] ∧ w.drain.mem = true ∧
        w.drain.kv = false ∧ w.drain.fmt ≠ 4 ∧ (drainRows w n x).length = 1) ∧
    (∃ (s : State) (t : TileId) (b : Fin 2) (e n : Nat) (w : PassWork) (x : Fill),
      due s (tileNo t) b e n w x ∧ resReadable s w (drainRows w n x) = true ∧ w.drain.mem = false ∧ w.drain.kv = false) ∧
    (∃ (s : State) (t : TileId) (b : Fin 2) (e n : Nat) (w : PassWork) (x : Fill),
      due s (tileNo t) b e n w x ∧ resReadable s w (drainRows w n x) = false ∧ (getOp s e).result = none) := by
  let x : Fill := { op := some 7, draining := true, final := [(0, 1)], scales := [(1, 0x3F800000)] }
  let w (mem : Bool) (epi : Nat) : PassWork :=
    { work7 with drain := { mem := mem, fmt := 0xF, dst := 0x4000, dstStride := 0x1000, epi := epi, res := 0x8000, resStride := 0x1000 } }
  let s (w : PassWork) : State := withTile (withOp up (.pass w))
    { blocks := [(0, { slots := [(32, ones.map fun _ => 0x40000000)], fills := [x] })] }
  exact ⟨⟨s (w true 0), tile0, 0, 7, 0, w true 0, x, by decide +kernel⟩, ⟨s (w false 0), tile0, 0, 7, 0, w false 0, x, by decide +kernel⟩,
    ⟨{ s (w false 1) with mem.poison := [0x9000 / 64] }, tile0, 0, 7, 0, w false 1, x, by decide +kernel⟩⟩

/-- O36. -/
theorem met_QuantiseAndSeal :
    (∃ (s : State) (e : OpIx) (v : Fin 32) (w : PassWork), let ns := nblocksOf w.items
      passOf s e = some w ∧ needsQuant w = true ∧ w.drain.pos = true ∧ (w.drain.mem && w.drain.fmt == 4) = false ∧
        v.val < w.vectors ∧ (∀ n ∈ ns, tabHas w.y (v.val * 65536 + n) = true) ∧ w.quantised.contains v.val = false ∧
        (getOp s e).result = none) ∧
    (∃ (s : State) (e : OpIx) (v : Fin 32) (w : PassWork), let ns := nblocksOf w.items
      let a := w.drain.scaleOut.toNat + 4 * v.val
      passOf s e = some w ∧ needsQuant w = true ∧ w.drain.pos = false ∧ (w.drain.mem && w.drain.fmt == 4) = true ∧
        v.val < w.vectors ∧ (∀ n ∈ ns, tabHas w.y (v.val * 65536 + n) = true) ∧ w.quantised.contains v.val = false ∧
        (getOp s e).result = none ∧ a % 4 = 0 ∧ a + 4 ≤ stackedEnd ∧ (getStack s (stackOf a)).fenced = false) ∧
    (∃ (s : State) (e : OpIx) (x : SealDue), let r := seqRec s x.seq.toNat
      let a := entAddr r x.entry
      firstOf (fun x : SealDue => x.op == e.val) s.op.seals = some x ∧ keysLeft s e = false ∧
        rangeBad s ((rdEnt s a).frame * 0x8000) (pageTokens r.kvheads r.hdim * tokenBytes r.kvheads r.hdim) = false ∧
        a % 8 = 0 ∧ a + 8 ≤ stackedEnd ∧ (getStack s (stackOf a)).fenced = false) := by
  let w (d : DrainSpec) : PassWork := { work7 with drain := d, y := [(65536, ones.map fun _ => 0x40490FDB)] }
  let x (d : DrainSpec) : State := { withTile (withOp up (.pass (w d))) {} with op.posQueue := [⟨7, 0, 4, [], 1, 1, 1⟩] }
  exact ⟨⟨x { pos := true, posItems := [⟨0, 3, 0, 2⟩, ⟨1, 5, 0, 1⟩] }, 7, 1, w { pos := true, posItems := [⟨0, 3, 0, 2⟩, ⟨1, 5, 0, 1⟩] },
      by decide +kernel⟩,
    ⟨x { mem := true, fmt := 4, scaleOut := 0x4000 }, 7, 1, w { mem := true, fmt := 4, scaleOut := 0x4000 }, by decide +kernel⟩,
    ⟨holding (holding { withOp up (.pass { work7 with drainsLeft := 0 }) with op.seals := [⟨7, 0x4000, 2⟩] } 0x4000
      (image 64 [(0, 8, 0x6000), (8, 8, 4), (0x10, 8, 100), (0x18, 8, 0x7000), (0x20, 1, 1), (0x21, 1, 1), (0x22, 1, 64)])) 0x6000
      (image 32 [(16, 8, 9)]), 7, ⟨7, 0x4000, 2⟩, by decide +kernel⟩⟩

/-- Operation 7 a set load or a release of variant 3, whose run of one entry is `entry`. -/
def ltnState (load : Bool) (entry : Nat) : State :=
  holding (withTile (withOp up (.ltn { load := load, set := 0x4000, entryBase := 0x4100, variant := 3, left := [0], dir := [(0, 0, 1)] }))
    { image := some 0, ltn := [(5, { entry := 0, source := 0, ix := 0, st := .live })], variants := [(3, { res := 1 })] })
    0x4100 (image 8 [(0, 8, entry)])

/-- A recompute pass that the exact unit has done. -/
def recomputing : ExactReq := { exact7 with for_ := .recompute }

/-- O37. -/
theorem met_LanternAndRecompute :
    let due (s : State) (t : TileId) (e n : Nat) (w : LtnWork) : Prop := let o := getOp s e
      logTile s (tileNo t) = some n ∧ o.work = .ltn w ∧ o.started = true ∧ o.result = none ∧ w.left.contains n = true ∧
        ltnEarlier s e n = false ∧ 0 < w.variant
    (∃ (s : State) (t : TileId) (e n : Nat) (w : LtnWork) (why : Byte), let p := tileNo t
      due s t e n w ∧ w.load = true ∧ writeFault (servePort s p) w n (tileInt2 s n) = some why) ∧
    (∃ (s : State) (t : TileId) (e n : Nat) (w : LtnWork), let p := tileNo t
      due s t e n w ∧ w.load = true ∧ writeFault (servePort s p) w n (tileInt2 s n) = none ∧
        portTook (getTile (servePort s p) p) e = true) ∧
    (∃ (s : State) (t : TileId) (e n : Nat) (w : LtnWork),
      due s t e n w ∧ w.load = false ∧ tileUsesVar s (tileNo t) w.variant = false) ∧
    (∃ (s : State) (t : TileId) (x : ExactReq), let p := tileNo t
      (getTile s p).exactBusy = some x ∧ (getTile s p).exactQ = [] ∧ (getTile s p).recompQ = [] ∧ sharedPasses s p = [] ∧
        x.for_ = .recompute ∧ exactOver s.now x = true ∧
        imageReadable s (flightImage s p x.flight).1 (flightImage s p x.flight).2.1 x.flight.req.array = true ∧
        x.flight.mism = false ∧ tabHas (getTile s p).positions x.flight.req.pos = true) := by
  let w (load : Bool) : LtnWork := { load := load, set := 0x4000, entryBase := 0x4100, variant := 3, left := [0], dir := [(0, 0, 1)] }
  exact ⟨⟨ltnState true 0x00000AA083004B05, tile0, 7, 0, w true, rLtnResidue, by decide +kernel⟩,
    ⟨ltnState true 0x00000BA083004B05, tile0, 7, 0, w true, by decide +kernel⟩,
    ⟨ltnState false 0, tile0, 7, 0, w false, by decide +kernel⟩,
    ⟨withTile (withOp up (.pass work7)) { positions := [(3, { held := 1 })], exactBusy := some recomputing, image := some 0 }, tile0,
      recomputing, by decide +kernel⟩⟩

/-- A row of one page of five tokens, whose list is at 0x6000. -/
def row5 : AttnRow :=
  { plist := 0x6000, layers := 1, len := 5, qtok := 1, left := [0], accs := [⟨0, 0, 0xFF800000, 0, List.replicate 64 0⟩], done := false }
/-- The ATTN of that row. -/
def attn5 : AttnWork := { q := 0x8000, out := 0x9000, rows := [row5], hdim := 64, kvheads := 1, qheads := 1, qscale := 0x3F800000 }
/-- Operation 7 is that ATTN, with an entry for its page. -/
def attending (entry : Nat) : State := holding (withOp up (.attn attn5)) 0x6000 (image 8 [(0, 8, entry)])

/-- A SAMPLE of one row of four logits. -/
def sample4 : SampleWork :=
  { logits := 0x10000, out := 0x20000, vocab := 4, fmt := 0xF, lstride := 64, left := [⟨0, 1, 1, 0x30000⟩], rows := 1 }
/-- Operation 7 is that SAMPLE, its request of a KIND. -/
def sampling (kind : Nat) : State :=
  holding (holding (withOp up (.sample sample4)) 0x10000 (image 16 [(0, 4, 0x3F800000), (4, 4, 0x40000000)])) 0x30000
    (image 128 [(0, 8, 7), (8, 8, 0xFFFFFFFFFFFFFFFF), (0x18, 4, 0), (0x1C, 4, 0x3F800000), (0x24, 4, 0x3F800000), (0x30, 4, 4),
      (0x34, 1, kind), (0x37, 1, 1), (0x40, 8, 0x50000), (0x48, 8, 0x60000), (0x50, 8, 0x4000)])
/-- A SAMPLE with a compaction to make. -/
def compacting : SampleWork := { sample4 with left := [], copies := [⟨0x4000, 100, [1, 3]⟩] }

/-- What a page's read comes to: 0 for its bytes, the reason of a loss, or none while it waits. -/
def pageGives : PageRead → Option Byte
  | .data _ _ => some 0
  | .lost why _ => some why
  | .wait _ => none

/-- O38. -/
theorem met_AttentionAndSampling :
    (∀ lost : Bool, ∃ (s : State) (e : OpIx) (i : Fin 1024) (w : AttnWork) (r : AttnRow) (b : Nat) (rest : List Nat) (eng : Nat)
      (d : BurstIn), let o := getOp s e
      let pl := pageOf s e w r b
      o.work = .attn w ∧ o.result = none ∧ w.rows[i.val]? = some r ∧ r.done = false ∧ r.left = b :: rest ∧
        blockBad s w i r b = false ∧ blockEngine s w pl b = some eng ∧ mustFetch pl eng = false ∧
        pageGives (readPage s e i w pl 0 b (min (attnT w) (r.len - b * attnT w) * w.kvheads * w.hdim) d) =
          some (if lost then rKvLost else 0)) ∧
    (∃ (s : State) (e : OpIx) (i : Fin 1024) (w : AttnWork) (r : AttnRow) (b : Nat) (rest : List Nat) (eng : Nat)
      (d : BurstIn) (x : Nat), let o := getOp s e
      let pl := pageOf s e w r b
      o.work = .attn w ∧ o.result = none ∧ w.rows[i.val]? = some r ∧ r.done = false ∧ r.left = b :: rest ∧
        blockBad s w i r b = false ∧ blockEngine s w pl b = some eng ∧ mustFetch pl eng = true ∧
        leastXfer s (stationXfers eng) = some x ∧
        pageGives (readPage s e i w pl x b (min (attnT w) (r.len - b * attnT w) * w.kvheads * w.hdim) d) = some rHostErr) ∧
    (∀ k ∈ [0, 1, 2], ∃ (s : State) (e : OpIx) (lane : Fin 4) (w : SampleWork) (u : SampleUnit), let o := getOp s e
      let a := u.recAddr.toNat
      let q := sampleReq s a
      o.work = .sample w ∧ o.result = none ∧ firstOf (fun u : SampleUnit => u.lane == lane.val) w.left = some u ∧
        laneTaken s e lane = false ∧ s.op.samplerFenced = false ∧ unitBad s w u = false ∧ q.kind = k ∧ w.left.length = 1 ∧
        w.copies = [] ∧ a % 64 = 0 ∧ a + 64 ≤ stackedEnd ∧ (q.update = false ∨ q.counts = 0) ∧
        (w.out.toNat + 64 * u.row + 64 ≤ a + 8 ∨ a + 16 ≤ w.out.toNat + 64 * u.row)) ∧
    (∃ (s : State) (e : OpIx) (w : SampleWork) (c : Compaction) (rest : List Compaction), let o := getOp s e
      let a := c.seq.toNat + 0x10
      o.work = .sample w ∧ o.result = none ∧ w.copies = c :: rest ∧ compactBad s c = false ∧ a % 8 = 0 ∧ a + 8 ≤ stackedEnd ∧
        (getStack s (stackOf a)).fenced = false) := by
  refine ⟨?_, ⟨{ attending 0x1FFFF00000000 with host.reqs := [(3, ⟨0, 0, none, some ⟨7, 0, ⟨0, 0, 0⟩⟩⟩)] }, 7, 0, attn5, row5, 0, [], 0, .hostError, 0, ?_⟩, ?_, ⟨holding (holding
    (withOp up (.sample compacting)) 0x4000 (image 64 [(0, 8, 0x6000), (8, 8, 4), (0x10, 8, 108), (0x18, 8, 0x7000), (0x20, 1, 1),
      (0x21, 1, 1), (0x22, 1, 64)])) 0x6000 (image 32 [(16, 8, 9)]), 7, compacting, ⟨0x4000, 100, [1, 3]⟩, [], ?_⟩⟩
  · intro lost
    cases lost
    · exact ⟨attending 9, 7, 0, attn5, row5, 0, [], stackOf 0x48000, .data [], by decide +kernel⟩
    · exact ⟨{ attending 9 with mem.poison := [0x48000 / 64] }, 7, 0, attn5, row5, 0, [], stackOf 0x48000, .data [], by decide +kernel⟩
  · decide +kernel
  · intro k hk
    have h : k = 0 ∨ k = 1 ∨ k = 2 := by simpa using hk
    rcases h with rfl | rfl | rfl
    · exact ⟨sampling 0, 7, 1, sample4, ⟨0, 1, 1, 0x30000⟩, by decide +kernel⟩
    · exact ⟨sampling 1, 7, 1, sample4, ⟨0, 1, 1, 0x30000⟩, by decide +kernel⟩
    · exact ⟨sampling 2, 7, 1, sample4, ⟨0, 1, 1, 0x30000⟩, by decide +kernel⟩
  · decide +kernel

/-- A COPY of 48 bytes at an engine, `rd` of them read, with an offset of its destination. -/
def copying (total rd : Nat) (dst : W64) : XferWork :=
  { src := 0x4000, dst := dst, len := total, total := total, asg := some 2, engine := some 2, rd := rd, prog := 0 }
/-- Operation 7 is that transfer, at engine 2. -/
def moving (w : XferWork) : State :=
  holding { withOp up (.xfer w) with op.xfers := [(2, { op := some 7 })] } 0x4000 ((upFrom 1 64).map (BitVec.ofNat 8))

/-- O39. -/
theorem met_Transfers :
    (∀ part : Bool, ∃ (s : State) (x : Fin 32) (e : Nat) (w : XferWork), let o := getOp s e
      let n := burstLen w
      let a := w.src.toNat + w.rd
      let b := w.dst.toNat + w.rd
      (getXfer s x).op = some e ∧ xferOf s e = some w ∧ w.kind = .copy ∧ w.srcDev.toNat = ownDev s ∧ w.dstDev.toNat = ownDev s ∧
        w.asg = some x.val ∧ w.posLeft = 0 ∧ w.notify = none ∧ w.prog ≤ w.rd ∧ unackedOf s e = [] ∧ 0 < n ∧
        (if part then w.rd + n < w.total else w.rd + n = w.total) ∧ w.rd + n ≤ w.prog + 0x40000 ∧
        inInst s o.inst a n = true ∧ inInst s o.inst b n = true ∧ isStacked a = true ∧ isStacked b = true ∧ rangeBad s a n = false) ∧
    (∃ (s : State) (x : Fin 32), (getXfer s x).fenced = false ∧ windowHit s (unitOf 6 x) = none) := by
  refine ⟨?_, up, 2, by decide +kernel⟩
  intro part
  cases part
  · exact ⟨moving (copying 16 0 0x5FF0), 2, 7, copying 16 0 0x5FF0, by decide +kernel⟩
  · exact ⟨moving (copying 48 0 0x5FF0), 2, 7, copying 48 0 0x5FF0, by decide +kernel⟩

/-- Operation 7 is a transfer that has one frame at device 1. -/
def sending (w : XferWork) (typ : Byte) (a : W64) : State :=
  { peered (withOp up (.xfer w)) with fab.unacked := [copyOf (frame 0 typ 9 a []) 7], op.xfers := [(2, { op := some 7 })] }
/-- A COPY to device 1 that has read all. -/
def sent48 : XferWork := { copying 48 48 0x5000 with dstDev := 1 }
/-- A PAGES that has moved its page and sent its notification. -/
def notifying : XferWork :=
  { kind := .pages, len := 1, total := 32768, rd := 32768, prog := 32768, ents := 1, notify := some 0x8000, notifySent := true
    asg := some 2, engine := some 2, dstDev := 1 }

/-- A frame from device 1 arrives, in a slice that holds an instance and reaches that device. -/
theorem arrives {s : State} {cls : BitVec 2} {typ : Byte} {seq : W32} {a : W64} {p : List Byte}
    (h : linkActive s 2 = true ∧ ownDev s = 0 ∧ reaches s 0 1 = true ∧ sliceInsts s 0 ≠ []) :
    Arrives s 2 (frame cls typ seq a p) :=
  ⟨h.1, rfl, rfl, rfl, h.2.1.symm, h.2.2.1, h.2.2.2⟩

/-- O40. -/
theorem met_MemoryFrames :
    let at_ (s : State) (f : Frame) (n i a : Nat) : Prop := reachOf s f.slice.toNat f.addr.toNat n = .at_ (Fin.ofNat 32 i) a
    let place (s : State) (f : Frame) : SeqPlace := seqPlace (getRx s f.src f.cls) f.seq
    (∀ q ∈ ([.fresh, .old] : List SeqPlace), ∃ s l f i a, Arrives s l f ∧ at_ s f f.payload.length i a ∧ f.payload ≠ [] ∧
      isStacked a = true ∧ place s f = q) ∧
    (∀ n ∈ [1, 1024], ∃ s l f i a, Arrives s l f ∧ n = ofBytes (f.payload.take 4) ∧ at_ s f n i a ∧ rangeBad s a n = false ∧
      place s f ≠ .far) ∧
    (∃ s l f i a, ∃ m : AtomicMsg, Arrives s l f ∧ at_ s f 8 i a ∧ a % 8 = 0 ∧ isStacked a = true ∧ m.aop.toNat = 9 ∧
      lineBad s a = false ∧ place s f = .fresh) ∧
    (∃ s l f why, Arrives s l f ∧ place s f ≠ .far ∧ ∀ n ∈ [f.payload.length, ofBytes (f.payload.take 4), 8],
      0 < n ∧ n ≤ 1024 ∧ reachOf s f.slice.toNat f.addr.toNat n = .nak why) ∧
    (∃ s l f c e w, ∃ m : AckMsg, Arrives s l f ∧ s.fab.unacked = [c] ∧ ackCovers f.src m c = true ∧ c.op = some e ∧
      xferOf s e = some w ∧ w.kind = .copy ∧ w.rd = w.total ∧ w.asg.isSome = true ∧ w.posLeft = 0 ∧ w.notify = none) ∧
    (∃ s l f c e w, ∃ m : NakMsg, Arrives s l f ∧
      firstOf (fun c : TxCopy => c.dst == f.src && c.frame.cls == m.cls && c.frame.seq == m.seq) s.fab.unacked = some c ∧
      c.op = some e ∧ (getOp s e).result = none ∧ (getOp s e).work = .xfer w) ∧
    (∃ s l f c e w, Arrives s l f ∧
      firstOf (fun c : TxCopy => c.dst == f.src && c.frame.typ == 0x02 && c.frame.seq == f.seq) s.fab.unacked = some c ∧
      c.op = some e ∧ (∃ x, c.tag = some x ∧ tagLive s x = true) ∧ xferOf s e = some w ∧ w.kind ≠ .pages) ∧
    (∃ s l f c e w, Arrives s l f ∧ s.fab.unacked = [c] ∧ c.dst = f.src ∧ c.frame.typ = 0x03 ∧ c.frame.seq = f.seq ∧
      c.op = some e ∧ xferOf s e = some w ∧ w.kind = .pages ∧ w.rd = w.total ∧ w.ents = w.len ∧ w.asg.isSome = true ∧
      w.posLeft = 0 ∧ w.notify.isSome = true ∧ w.notifySent = true) := by
  intro at_ place
  let s := peered up
  refine ⟨?_, ?_, ⟨s, 2, frame 0 3 1 0x4000 [], 0, 0x4000, ⟨9, false, 5, 9⟩, arrives (by decide +kernel), by decide +kernel⟩,
    ⟨s, 2, frame 0 1 1 0x5C3FFFFFFFE [4, 0, 0, 0], 1, arrives (by decide +kernel), by decide +kernel, by decide +kernel⟩,
    ⟨sending sent48 1 0x5000, 2, frame 3 4 0 0 [], copyOf (frame 0 1 9 0x5000 []) 7, 7, sent48, ⟨0, 9, []⟩, arrives (by decide +kernel),
      by decide +kernel⟩,
    ⟨sending sent48 1 0x5000, 2, frame 3 9 0 0 [], copyOf (frame 0 1 9 0x5000 []) 7, 7, sent48, ⟨0, 9, 1⟩, arrives (by decide +kernel),
      by decide +kernel⟩,
    ⟨{ sending sent48 2 0x4000 with fab.unacked := [{ copyOf (frame 0 2 9 0x4000 []) 7 with tag := some ⟨2, 0, 0⟩ }] }, 2,
      frame 1 0xA 9 0x4000 [1, 2], { copyOf (frame 0 2 9 0x4000 []) 7 with tag := some ⟨2, 0, 0⟩ }, 7, sent48,
      arrives (by decide +kernel), by decide +kernel, rfl, ⟨⟨2, 0, 0⟩, rfl, by decide +kernel⟩, by decide +kernel⟩,
    ⟨sending notifying 3 0x4000, 2, frame 1 0xB 9 0x4000 [1, 2], copyOf (frame 0 3 9 0x4000 []) 7, 7, notifying,
      arrives (by decide +kernel), by decide +kernel⟩⟩
  · intro q hq
    have h : q = .fresh ∨ q = .old := by simpa using hq
    rcases h with rfl | rfl
    · exact ⟨s, 2, frame 0 1 1 0x4000 [1, 2, 3], 0, 0x4000, arrives (by decide +kernel), by decide +kernel⟩
    · exact ⟨s, 2, frame 0 1 0 0x4000 [1, 2, 3], 0, 0x4000, arrives (by decide +kernel), by decide +kernel⟩
  · intro n hn
    have h : n = 1 ∨ n = 1024 := by simpa using hn
    rcases h with rfl | rfl
    · exact ⟨s, 2, frame 0 2 1 0x4000 [1, 0, 0, 0], 0, 0x4000, arrives (by decide +kernel), by decide +kernel⟩
    · exact ⟨s, 2, frame 0 2 1 0x4000 [0, 4, 0, 0], 0, 0x4000, arrives (by decide +kernel), by decide +kernel⟩

/-- Operation 7 is a collective with some pulls out; number 1 of group 1 has come. -/
def collecting (w : CollWork) (out : List TxCopy) : State :=
  { holding (peered (grouped (withOp up (.coll w)) 0)) 0x4000 [1, 2, 3, 4, 5] with
    fab.unacked := out, op.collEngines := [(0, { op := some 7 })], op.collSeq := [(1, 1)] }
/-- The member of rank 0 of a collective of group 1. -/
def member (k : CollKind) (count next : Nat) (arrived : List Nat) : CollWork :=
  { kind := k, src := 0x4000, dst := 0x5000, count := count, group := 1, members := [0, 1], rank := 0, listCrc := 77, cseq := 1
    engine := some 0, nextPull := next, arrived := arrived }
/-- Its pull from device 1. -/
def pull (seq : W32) (a : W64) : TxCopy := copyOf { frame 2 0x10 seq a [] with dst := 1 } 7

/-- O41. -/
theorem met_CollectiveFrames :
    let here (s : State) (l : Link) (f : Frame) : Prop :=
      Arrives s l f ∧ collOpen s f = true ∧ seqPlace (getRx s f.src f.cls) f.seq = .fresh
    (∃ s l f m, here s l f ∧ findColl s f.slice.toNat m = none ∧ collOver s f.slice.toNat m = false ∧
      s.op.earlyColl.length < 65536 ∧ s.op.earlyColl.contains (earlyOf 0 f m) = false) ∧
    (∃ s l f m e w, here s l f ∧ findColl s f.slice.toNat m = some (e, w) ∧ m.listCrc = w.listCrc ∧ canServe w m = true ∧
      w.kind ≠ .bar ∧ pullsOut s e ≠ [] ∧
      rangeBad s (serveAddr w m.phase m.block f.addr.toNat) (min (min 1024 m.len) ((collBlock w m.block).2 * collEs w - f.addr.toNat)) = false) ∧
    (∀ last : Bool, ∃ s l f m e w, here s l f ∧ findColl s f.slice.toNat m = some (e, w) ∧ w.kind = .bar ∧ m.listCrc = w.listCrc ∧
      w.engine.isSome = true ∧ w.arrived.contains m.rank = false ∧ w.released = false ∧
      if last then w.arrived.length + 1 = collN w ∧ 2 ≤ collN w else w.arrived.length + 1 ≠ collN w) ∧
    (∃ s l f m e w, here s l f ∧ findColl s f.slice.toNat m = some (e, w) ∧ w.kind = .bar ∧ unackedOf s e = [] ∧
      w.engine.isSome = true ∧ waitingColls s = []) ∧
    (∃ s l f m e w, here s l f ∧ findColl s f.slice.toNat m = some (e, w) ∧ w.kind = .ag ∧ waitingColls s = []) ∧
    (∃ s l f c e w, here s l f ∧
      let hit := fun c : TxCopy => c.frame.typ == 0x10 && c.dst == f.src && c.frame.seq.toNat == f.addr.toNat % 2 ^ 32
      firstOf hit s.fab.unacked = some c ∧ c.op = some e ∧ collOf s e = some w ∧ collFolds w = false ∧ w.kind ≠ .bar ∧
        collPulls w ≤ w.nextPull ∧ isStacked (landAddr w (rankOf w f.src) c.frame.addr.toNat) = true ∧
        ((pullsOut s e).any fun x => !hit x) = true) ∧
    (∃ (s : State) (e : OpIx) (w : CollWork), collOf s e = some w ∧ w.timedAt = none ∧
      w.startAt + 2 ^ regFld s .fab 0x018 0 6 * 40 ≤ s.now ∧ pullUnanswered s e w = true ∧ waitingColls s = []) := by
  intro here
  refine ⟨⟨peered (grouped up 0), 2, frame 2 0x10 1 0 [], cmsg, ⟨arrives (by decide +kernel), by decide +kernel⟩, by decide +kernel⟩,
    ⟨collecting (member .ag 512 1 []) [pull 9 0], 2, frame 2 0x10 1 0 [], cmsg, 7, member .ag 512 1 [],
      ⟨arrives (by decide +kernel), by decide +kernel⟩, by decide +kernel⟩, ?_,
    ⟨collecting (member .bar 0 0 []) [], 2, frame 2 0x12 1 0 [], cmsg, 7, member .bar 0 0 [],
      ⟨arrives (by decide +kernel), by decide +kernel⟩, by decide +kernel⟩,
    ⟨collecting (member .ag 512 1 []) [pull 9 0], 2, frame 2 0x12 1 0 [], cmsg, 7, member .ag 512 1 [],
      ⟨arrives (by decide +kernel), by decide +kernel⟩, by decide +kernel⟩,
    ⟨collecting (member .ag 1024 4 []) [pull 9 0, pull 10 1024], 2, frame 2 0x11 2 9 [7, 7], pull 9 0, 7, member .ag 1024 4 [],
      ⟨arrives (by decide +kernel), by decide +kernel⟩, by decide +kernel⟩,
    ⟨collecting (member .ag 512 1 []) [pull 9 0], 7, member .ag 512 1 [], by decide +kernel⟩⟩
  intro last
  cases last
  · exact ⟨collecting { member .bar 0 0 [] with members := [0, 1, 2] } [], 2, frame 2 0x12 1 0 [], cmsg, 7,
      { member .bar 0 0 [] with members := [0, 1, 2] }, ⟨arrives (by decide +kernel), by decide +kernel⟩, by decide +kernel⟩
  · exact ⟨collecting (member .bar 0 0 [0]) [], 2, frame 2 0x12 1 0 [], cmsg, 7, member .bar 0 0 [0],
      ⟨arrives (by decide +kernel), by decide +kernel⟩, by decide +kernel⟩

/-- Device 1 is reached, link 2 brings fabric time and this device sends it on. -/
def timed : State :=
  { reg (reg (peered up) .belfry 0x01C 0x210) .belfry 0x030 4 with time.belfry.source := some .fabric, time.belfry.ns := 5100 }
/-- A WRITE of operation 7 to device 1, sent `n` times. -/
def sentCopy (n : Nat) : TxCopy := { copyOf (frame 0 1 9 0x5000 []) 7 with tries := n }
/-- A state in which it waits for its acknowledgement. -/
def waitsAck (s : State) (n : Nat) : State := { s with fab.unacked := [sentCopy n], op.table := [(7, { used := true })] }

/-- O42. -/
theorem met_TimeAndFlowFrames :
    (∃ (s : State) (l : Link) (f : Frame), linkActive s l = true ∧ f.fcsOk = true ∧ f.version = 1 ∧ f.reservedSet = false ∧
      l.val = regFld s .belfry 0x01C 8 6 ∧ f.sync = syncOn s l ∧ s.time.belfry.source = some .fabric ∧ refPri s .fabric ≠ 0) ∧
    (∃ s : State, regFld s .belfry 0x01C 6 1 = 1 ∧ s.time.belfry.sentAt + 40000000 = s.now ∧ relayLinks s ≠ []) ∧
    (∃ s : State, relayLinks s ≠ [] ∧ s.time.belfry.exchangedAt + 40000000 = s.now) ∧
    (∃ (s : State) (l : Link), isPlane s l = false ∧ (s.fab.tx.all fun x => x.link.isSome) = true ∧ (getLink s l).st = .active) ∧
    (∃ (s : State) (l : Link) (p : Fin 8), let k := getLink s l
      isPlane s l = false ∧ (s.fab.tx.all fun x => x.link.isSome) = true ∧ k.st = .credit ∧ k.gotPools.length = 7 ∧
        k.gotPools.contains p.val = false) ∧
    (∃ (s : State) (l : Link), isPlane s l = true ∧ linkActive s l = true) ∧
    (∀ q ∈ ([(true, 3), (true, 8), (false, 3)] : List (Bool × Nat)), ∃ (s : State) (i : Nat) (c : TxCopy) (e : Nat),
      s.fab.unacked[i]? = some c ∧ tabHas s.fab.pathWait c.dst.toNat = false ∧
        c.sentAt + regFld s .fab 0x014 0 16 * 40000 ≤ s.now ∧ c.held = false ∧ c.frame.typ.toNat < 0x18 ∧ c.acked = false ∧
        reaches s c.frame.slice.toNat c.dst.toNat = q.1 ∧ c.tries = q.2 ∧ c.op = some e ∧ (getOp s e).result = none ∧
        (getOp s e).work = .none) ∧
    (∀ path : Bool, ∃ (s : State) (d : W16) (e : Nat), tabHas s.fab.pathWait d.toNat = true ∧ tabGet 0 s.fab.pathWait d.toNat ≤ s.now ∧
      (pathTo s d.toNat 0).isSome = path ∧ (s.fab.unacked.all fun c => c.dst == d && c.op == some e) = true ∧ s.fab.unacked ≠ [] ∧
        (getOp s e).result = none ∧ (getOp s e).work = .none) := by
  refine ⟨⟨timed, 2, frame 3 0x18 0 0 [], ?_⟩, ⟨{ reg timed .belfry 0x01C 0x240 with time.belfry.sentAt := up.now - 40000000 }, ?_⟩,
    ⟨{ timed with time.belfry.exchangedAt := up.now - 40000000 }, ?_⟩, ⟨peered up, 2, ?_⟩,
    ⟨{ peered up with fab.links := [(2, { st := .credit, gotPools := [0, 1, 2, 3, 4, 5, 6] })] }, 2, 7, ?_⟩,
    ⟨peered (reg up .fab 0x110 2), 2, ?_⟩, ?_, ?_⟩
  case refine_7 =>
    intro q hq
    have h : q = (true, 3) ∨ q = (true, 8) ∨ q = (false, 3) := by simpa using hq
    rcases h with rfl | rfl | rfl
    · exact ⟨waitsAck (peered up) 3, 0, sentCopy 3, 7, by decide +kernel⟩
    · exact ⟨waitsAck (peered up) 8, 0, sentCopy 8, 7, by decide +kernel⟩
    · exact ⟨waitsAck up 3, 0, sentCopy 3, 7, by decide +kernel⟩
  case refine_8 =>
    intro path
    cases path
    · exact ⟨{ waitsAck up 8 with fab.pathWait := [(1, 5)] }, 1, 7, by decide +kernel⟩
    · exact ⟨{ waitsAck (peered up) 8 with fab.pathWait := [(1, 5)] }, 1, 7, by decide +kernel⟩
  all_goals decide +kernel

/-- A group launch of tag 6 for T = 50000, at an entry in some state, at a time. -/
def launching (l : Launch) (ns : W64) : State :=
  { peered (withLaunch (grouped up 0) { l with t := 50000, op := 7, group := some 1, tag := 6 }) with time.belfry.ns := ns }
/-- The coordinator keeps it, at a time. -/
def coordinating (ns : W64) : State := { peered (grouped up 0) with time.groups := [glaunch], time.belfry.ns := ns }

/-- O43. -/
theorem met_GroupLaunches :
    (∃ s l f m n g r, Arrives s l f ∧ findGroup s f.slice.toNat m = some n ∧ s.time.groups[n]? = some g ∧
      groupRec s g.inst g.group.toNat = some r ∧ r.crc = m.listCrc) ∧
    (∃ s l f m i, Arrives s l f ∧ memberEntries s f.slice.toNat m = [(i, getLaunch s i)] ∧ let x := getLaunch s i
      x.st = .armed ∧ x.verdict = none ∧ x.outcome = none ∧ x.null_ = false ∧ x.held = none ∧ m.outcome.toNat < 2) ∧
    (∃ (s : State) (n : Nat) (g : GroupLaunch), s.time.groups[n]? = some g ∧ g.go = none ∧ g.t.toNat = nsNow s + 3000 ∧
      reaches s (instSlice s g.inst) (nth 0xFFFF g.members 1).toNat = true) ∧
    (∃ (s : State) (n : Nat) (g : GroupLaunch), s.time.groups[n]? = some g ∧ g.t.toNat + 5000 = nsNow s ∧ s.time.launches = [] ∧
      reaches s (instSlice s g.inst) (nth 0xFFFF g.members 1).toNat = true) ∧
    (∀ v ∈ ([some true, some false, none] : List (Option Bool)), ∃ (s : State) (i : LaunchIx) (g : W16), let l := getLaunch s i
      l.st = .armed ∧ l.group = some g ∧ l.t.toNat = nsNow s + 1000 ∧ l.verdict = v ∧ l.engine = none ∧ l.null_ = false ∧
        (getOp s l.op).result = none) ∧
    (∀ null : Bool, ∃ (s : State) (i : LaunchIx), let l := getLaunch s i
      dispatchable l = true ∧ l.t.toNat + 32 = nsNow s ∧ s.time.belfry.boundary = none ∧ s.flt.devFence = false ∧ l.held = none ∧
        l.null_ = null) ∧
    (∃ (s : State) (i : LaunchIx), let l := getLaunch s i
      dispatchable l = true ∧ l.t.toNat + 32 = nsNow s ∧ s.time.belfry.boundary = none ∧ s.flt.devFence = true ∧
        s.flt.fenceNs < l.t.toNat ∧ l.held = none ∧ l.engine = none ∧ l.null_ = false ∧ (getOp s l.op).result = none) ∧
    (∃ (s : State) (i : LaunchIx), let l := getLaunch s i
      l.st ≠ .free ∧ l.group.isSome = true ∧ l.outcome = none ∧ l.t.toNat + 6500 = nsNow s ∧ l.null_ = false ∧ l.held = none ∧
        collOf s l.op = none) := by
  refine ⟨⟨coordinating 1000, 2, frame 2 0x1B 1 0 [], lmsg, 0, glaunch, (groupRec (coordinating 1000) 0 1).getD ⟨[], 0, 0, 0⟩,
      arrives (by decide +kernel), by decide +kernel⟩,
    ⟨launching { st := .armed } 1000, 2, frame 2 0x1B 1 0 [], lmsg, 3, arrives (by decide +kernel), by decide +kernel⟩,
    ⟨coordinating 47000, 0, glaunch, by decide +kernel⟩, ⟨coordinating 55000, 0, glaunch, by decide +kernel⟩, ?_, ?_,
    ⟨{ launching { st := .committed } 50032 with flt.devFence := true, flt.fenceNs := 49999 }, 3, by decide +kernel⟩,
    ⟨launching { st := .dispatched } 56500, 3, by decide +kernel⟩⟩
  · intro v hv
    have h : v = some true ∨ v = some false ∨ v = none := by simpa using hv
    rcases h with rfl | rfl | rfl
    · exact ⟨launching { st := .armed, verdict := some true } 49000, 3, 1, by decide +kernel⟩
    · exact ⟨launching { st := .armed, verdict := some false } 49000, 3, 1, by decide +kernel⟩
    · exact ⟨launching { st := .armed } 49000, 3, 1, by decide +kernel⟩
  · intro null
    cases null
    · exact ⟨launching { st := .committed } 50032, 3, by decide +kernel⟩
    · exact ⟨launching { st := .committed, null_ := true } 50032, 3, by decide +kernel⟩

/-- Link 2 is in some state, the links enabled. -/
def linked (k : LinkSt) : State := { reg up .fab 0x110 1 with fab.links := [(2, k)] }

/-- O44. -/
theorem met_LinkTraining :
    (∀ q ∈ ([.disabled, .detect] : List LinkState), ∃ (s : State) (l : Link) (by_ : Requester), MayOrder s by_ .fab ∧
      domUsable s (36 + l / 6) = true ∧ (getLink s l).st = q ∧ linkCfg s l 0 1 = 1) ∧
    (∃ (s : State) (l : Link), let k := getLink s l
      k.st = .detect ∧ k.since + 40000000 = s.now) ∧
    (∃ (s : State) (l : Link), (getLink s l).st = .train) ∧
    (∃ (s : State) (l : Link) (h : BitVec 4), (getLink s l).st = .align ∧ widthFor (laneCount h) ≠ 0) ∧
    (∃ (s : State) (l : Link) (f : Frame) (m : IdentMsg), (getLink s l).st = .ident ∧ f.fcsOk = true ∧ f.version = 1 ∧
      f.reservedSet = false ∧ m.systemId = regAct s .fab 0x008 ∧ otherPartner s l m.dev.toNat = false ∧ m.plane = false) ∧
    (∃ (s : State) (l : Link) (f : Frame) (m : IdentMsg), (getLink s l).st = .ident ∧ f.fcsOk = true ∧ f.version = 1 ∧
      f.reservedSet = false ∧ m.systemId ≠ regAct s .fab 0x008) ∧
    (∀ q ∈ ([.detect, .ident] : List LinkState), ∃ (s : State) (l : Link) (t : Nat), let k := getLink s l
      k.st = q ∧ linkLimit k.st = some t ∧ k.since + t ≤ s.now ∧ (k.st = .ident → 3 ≤ k.tries)) ∧
    (∃ (s : State) (l : Link), let k := getLink s l
      k.st = .active ∧ 1 < k.width ∧ isPlane s l = false) ∧
    (∃ (s : State) (l : Link), (getLink s l).st = .degrade) ∧
    (∀ last : Bool, ∃ (s : State) (l : Link), let k := getLink s l
      k.st = .backoff ∧ k.since + 2 ^ (k.attempts - 1) * 40000000 = s.now ∧ decide (linkCfg s l 4 4 ≤ k.attempts) = last) ∧
    (∃ (s : State) (l : Link), let k := getLink s l
      k.st = .parked ∧ k.since + linkCfg s l 8 8 * 40000000000 ≤ s.now) := by
  let id (n : W64) : IdentMsg := { dev := 1, link := 3, width := 8, slice := 0, systemId := n, plane := false }
  refine ⟨?_, ⟨linked { st := .detect, since := up.now - 40000000 }, 2, ?_⟩, ⟨linked { st := .train }, 2, ?_⟩,
    ⟨linked { st := .align }, 2, 0xF, ?_⟩, ⟨linked { st := .ident, tries := 3 }, 2, frame 3 0x1C 0 0 [], id 0, ?_⟩,
    ⟨linked { st := .ident, tries := 3 }, 2, frame 3 0x1C 0 0 [], id 5, ?_⟩, ?_,
    ⟨linked { st := .active, width := 8, attempts := 3 }, 2, ?_⟩, ⟨linked { st := .degrade, width := 8 }, 2, ?_⟩, ?_,
    ⟨linked { st := .parked }, 2, ?_⟩⟩
  case refine_1 =>
    intro q hq
    have h : q = .disabled ∨ q = .detect := by simpa using hq
    rcases h with rfl | rfl
    · exact ⟨linked { st := .disabled }, 2, .fn 0, by unfold MayOrder FirstOrder; decide +kernel⟩
    · exact ⟨linked { st := .detect }, 2, .fn 0, by unfold MayOrder FirstOrder; decide +kernel⟩
  case refine_7 =>
    intro q hq
    have h : q = .detect ∨ q = .ident := by simpa using hq
    rcases h with rfl | rfl
    · exact ⟨linked { st := .detect }, 2, 4000000000, by decide +kernel⟩
    · exact ⟨linked { st := .ident, tries := 3 }, 2, (linkLimit .ident).getD 0, by decide +kernel⟩
  case refine_10 =>
    intro last
    cases last
    · exact ⟨reg (linked { st := .backoff, attempts := 1, since := up.now - 40000000 }) .fab 0x110 0x81, 2, by decide +kernel⟩
    · exact ⟨reg (linked { st := .backoff, attempts := 8, since := up.now - 2 ^ 7 * 40000000 }) .fab 0x110 0x81, 2, by decide +kernel⟩
  all_goals decide +kernel

/-- O45. -/
theorem met_EpochsAndTicks :
    (∃ (s : State) (w : Nat) (n : Nat), s.time.belfry.boundary = some (w, n) ∧ n / 2 ^ 20 < (regAct s .belfry
      0x028).toNat) ∧
    (∃ (s : State) (w : Nat) (n : Nat), s.time.belfry.boundary = some (w, n) ∧ (regAct s .belfry 0x028).toNat ≤ n / 2
      ^ 20) ∧
    (∃ (s : State) (c : Fin 256), ∃ k, k = getCad s c ∧ k.running = true ∧ nextTick s c ≤ timeFx s ∧
      s.time.belfry.boundary = none ∧ launchOutstanding s = false) := by
  refine ⟨?_, ?_, ?_⟩
  · exact
      ⟨{ up with time.belfry.boundary := some (1999999999999999, 5242880), reg.vals.act := [(blkBase .belfry+0x028,6)], reg.routePend := [(3,0x55)], reg.routeAt := [(3,7)], reg.vals.pend := [(blkBase .fab + 0x010, 0x3456)], reg.pendAt := [(blkBase .fab + 0x010, 7)] },
      1999999999999999, 5242880, by decide +kernel⟩
  · exact
      ⟨{ up with time.belfry.boundary := some (1999999999999999, 5242880), reg.vals.act := [(blkBase .belfry+0x028,5)], reg.routePend := [(3,0x55)], reg.routeAt := [(3,7)], reg.vals.pend := [(blkBase .fab + 0x010, 0x3456)], reg.pendAt := [(blkBase .fab + 0x010, 7)] },
      1999999999999999, 5242880, by decide +kernel⟩
  · exact
      ⟨{ withThr {thr with st:=.waiting,wait:=.cadence,bound:=true,cad:=3,waitDest:=9,slot:=none} with time.cadences := [(3,{running:=true,j:=4,num:=9,occ:=2,vals:=some (5,100,7)})], time.belfry.ns := 100 },
      3, _, rfl, by decide +kernel⟩

/-- A Belfry in some state, following some source. -/
def clocked (b : BState) (r : Option RefSource) (ns : W64) : State :=
  { up with time.belfry.state := b, time.belfry.source := r, time.belfry.ns := ns, time.belfry.timeValid := true }

/-- O46. -/
theorem met_References :
    (∃ (s : State), s.time.belfry.source = some .pps ∧ ppsLate s = s ∧ refPri s .pps ≠ 0 ∧ s.time.belfry.stepAtPps = none) ∧
    (∃ (s : State) (v : W64), s.time.belfry.source = some .pps ∧ ppsLate s = s ∧ refPri s .pps ≠ 0 ∧
      s.time.belfry.stepAtPps = some v ∧ mayStep s (setTimeErr s v) = true) ∧
    (∀ far : Bool, ∃ (s : State) (r : W64) (rf : W16), s.time.belfry.source = some .ptp ∧
      mayStep s ((r.toNat * 256 + (rf.toNat / 256 : Nat) : Int) - macStamp s) = far) ∧
    (∃ (s : State) (d : Byte), d.toNat = regFld s .belfry 0x01C 16 8) ∧
    (∃ (s : State) (r : RefSource) (gone : Bool), (refOf s.time.belfry r).qualified = true ∧ refLost s r gone = true ∧
      s.time.belfry.source = some r ∧ ([.ptp, .fabric].all fun q => !(refOf s.time.belfry q).qualified) = true ∧ r = .pps) ∧
    (∃ (s : State) (r x : RefSource), s.time.belfry.source = some r ∧ regFld s .belfry 0x018 1 1 = 1 ∧
      bestRef s (fun q => decide (refPri s r < refPri s q) && decide ((refOf s.time.belfry q).since + 400000000000 ≤ s.now)) = some x) ∧
    (∀ step : Bool, ∃ (s : State) (by_ : Requester) (v : W64), MayOrder s by_ .belfry ∧
      (s.time.belfry.state = .freerun ∨ s.time.belfry.state = .holdover) ∧ mayStep s (setTimeErr s v) = step) ∧
    (∀ st ∈ ([.locked, .acquiring] : List BState), ∃ (s : State) (by_ : Requester) (v : W64), MayOrder s by_ .belfry ∧
      s.time.belfry.state = st ∧ s.time.belfry.source = some .pps ∧ v.toNat % 1000000000 = 0) ∧
    (∀ q ∈ ([(some .ptp, 5000000000), (some .pps, 5000000001)] : List (Option RefSource × W64)), ∃ (s : State) (by_ : Requester),
      MayOrder s by_ .belfry ∧ s.time.belfry.state = .locked ∧ s.time.belfry.source = q.1 ∧
        (s.time.belfry.source ≠ some .pps ∨ q.2.toNat % 1000000000 ≠ 0)) ∧
    (∃ s : State, let b := s.time.belfry
      b.state = .holdover ∧ b.holdExpired = false ∧ b.holdSince + regFld s .belfry 0x018 16 16 * 40000000000 < s.now) ∧
    (∃ s : State, let b := s.time.belfry
      regFld s .belfry 0x018 2 1 = 1 ∧ b.timeValid = true ∧ b.ns.toNat % 1000000000 = 1 ∧ b.ppsOut = false) ∧
    (∃ s : State, let b := s.time.belfry
      b.ppsOut = true ∧ b.ppsRise + 4000000 = s.now) := by
  let pps (v : Option W64) : State := { reg (reg (clocked .locked (some .pps) 5) .belfry 0x01C 1) .belfry 0x018 1 with time.belfry.stepAtPps := v }
  refine ⟨⟨pps none, ?_⟩, ⟨pps (some 4000000000), 4000000000, ?_⟩, ?_, ⟨reg up .belfry 0x01C 0x70004, 7, ?_⟩,
    ⟨{ reg (clocked .locked (some .pps) 5) .belfry 0x01C 1 with time.belfry.pps := { qualified := true, lastSeen := some 5 } },
      .pps, true, ?_⟩,
    ⟨{ reg (reg (clocked .locked (some .ptp) 5) .belfry 0x01C 6) .belfry 0x018 2 with
        time.belfry.ptp := { qualified := true }, time.belfry.pps := { qualified := true, since := 5 } }, .ptp, .pps, ?_⟩, ?_, ?_, ?_,
    ⟨reg (clocked .holdover none 5) .belfry 0x018 0x10000, ?_⟩, ⟨reg (clocked .holdover none 5000000001) .belfry 0x018 4, ?_⟩,
    ⟨{ up with time.belfry.ppsOut := true, time.belfry.ppsRise := up.now - 4000000 }, ?_⟩⟩
  case refine_3 =>
    intro far
    cases far
    · exact ⟨clocked .locked (some .ptp) 9000, 9100, 0, by decide +kernel⟩
    · exact ⟨{ clocked .locked (some .ptp) 9000 with time.belfry.timeValid := false }, 9100, 0, by decide +kernel⟩
  case refine_7 =>
    intro step
    cases step
    · exact ⟨reg (clocked .holdover none 5) .belfry 0x018 1, .fn 0, 1000005, by unfold MayOrder FirstOrder; decide +kernel⟩
    · exact ⟨reg (clocked .holdover none 5) .belfry 0x018 1, .fn 0, 1000006, by unfold MayOrder FirstOrder; decide +kernel⟩
  case refine_8 =>
    intro st hst
    have h : st = .locked ∨ st = .acquiring := by simpa using hst
    rcases h with rfl | rfl
    · exact ⟨clocked .locked (some .pps) 5, .fn 0, 5000000000, by unfold MayOrder FirstOrder; decide +kernel⟩
    · exact ⟨clocked .acquiring (some .pps) 5, .fn 0, 5000000000, by unfold MayOrder FirstOrder; decide +kernel⟩
  case refine_9 =>
    intro q hq
    have h : q = (some .ptp, 5000000000) ∨ q = (some .pps, 5000000001) := by simpa using hq
    rcases h with rfl | rfl
    · exact ⟨clocked .locked (some .ptp) 5, .fn 0, by unfold MayOrder FirstOrder; decide +kernel⟩
    · exact ⟨clocked .locked (some .pps) 5, .fn 0, by unfold MayOrder FirstOrder; decide +kernel⟩
  all_goals decide +kernel

/-- A tile with an image of one array, which has one weight. -/
def imaged (x : Tile) : State :=
  withTile { up with
    img.images := [(0, { imageId := 9, base := protBase, weights := protBase + 0x2000, scales := protBase + 0x12000, placement := [⟨0, 2, 0, 1, 0, 0, 0⟩] })]
    mem.cells := [(protBase + 0x2005, 3)] } { x with image := some 0 }
/-- A job that writes that array, or retests an array that no image uses. -/
def writeJob : Job := { kind := .full, phys := 2, logical := some 2, slot := some 0 }
def retestJob : Job := { kind := .retest, phys := 2, logical := none, wrote := true }
/-- A failed check cell and a failed cell of that array. -/
def failed2 : List FailedPair := [⟨0, 513, 0, true⟩, ⟨3, 5, 1, false⟩]

/-- O47. -/
theorem met_ImageLoads :
    (∃ (s : State) (by_ : Requester), MayOrder s by_ .sec ∧ s.img.load = none ∧ s.img.zeroise = false) ∧
    (∃ (s : State) (by_ : Requester), MayOrder s by_ .sec ∧ s.img.load.isSome = true) ∧
    (∃ (s : State) (f : ImageFile) (m : LoadMode) (o : Option Nat) (r : Nat), s.img.load = some ⟨m, none, o⟩ ∧
      loadFault s m f = some r ∧ (regAct s .sec 0x028).toNat = 0) ∧
    (∃ (s : State) (f : ImageFile) (o : Option Nat) (k : Nat) (b : Nat) (r : PlaceRec), ∃ p, p = physTile s
      r.tile.toNat ∧ ∃ a, a = physArr (getTile s p) r.array.toNat ∧ logTile s p = some r.tile.toNat ∧ s.img.load =
      some ⟨.full, none, o⟩ ∧ loadFault s .full f = none ∧ freeSlot s = some k ∧ slotBase s f.imageLength.toNat =
      some b ∧ f.placement = [r] ∧ (getArr (getTile s p) a).st = .spare) := by
  refine ⟨?_, ?_, ?_, ?_⟩
  · exact ⟨up, .fn 0, by unfold MayOrder FirstOrder; decide +kernel, by decide +kernel⟩
  · exact ⟨loadable, .fn 0, by unfold MayOrder FirstOrder; decide +kernel, by decide +kernel⟩
  · exact ⟨loadable, { imageFor 1 with fetchOk := false }, .full, none, 16, by decide +kernel⟩
  · exact ⟨loadable, imageFor Config.deviceKeyId, none, 0, protBase, ⟨0, 2, 0, 1, 0, 0, 0⟩, _, rfl, _, rfl,
      by decide +kernel, by decide +kernel, loadable_fine, by decide +kernel⟩

/-- O48. -/
theorem met_Programming :
    (∃ (s : State) (t : TileId) (j : Job) (n : Nat) (res resW : Bool) (r : ArbReq), let p := tileNo t
      pvPick s p = some (j, n, res) ∧ writePick s = some (r, resW) ∧ r.index = p ∧ tooWorn (arrOf s p j.phys) j = false ∧
        j.kind ≠ .erase) ∧
    (∀ n ∈ [1, 12], ∃ (s : State) (t : TileId) (j : Job), let p := tileNo t
      (getTile s p).pv = some j ∧ j.wrote = false ∧ j.age + writeTime j n ≤ s.now ∧ (arrOf s p j.phys).st = .writing) ∧
    (∃ (s : State) (t : TileId) (j : Job), let p := tileNo t
      (getTile s p).pv = some j ∧ j.wrote = true ∧ j.age + 1600000 = s.now ∧ j.logical = none ∧ (arrOf s p j.phys).st ≠ .fenced) ∧
    (∃ (s : State) (t : TileId) (j : Job) (f : List FailedPair) (l : Nat), let p := tileNo t
      let x := f.foldl failPair (arrOf s p j.phys)
      let u := setArrOf (setTile s p { getTile s p with pv := none }) p j.phys
        { x with failed := f, failedCount := f.length, mask := checkMask (cellWts j.target) f }
      (getTile s p).pv = some j ∧ j.wrote = true ∧ j.age + 1600000 = s.now ∧ j.logical = some l ∧ f.length = 2 ∧
        (stageVerified u p l j (cellWts j.target) f).2 = true) ∧
    (∃ (s : State) (t : TileId) (a : Fin 68) (r : CalResult), let p := tileNo t
      let x := arrOf s p a
      let trims := r.trims.foldl (fun m y => tabPut m y.col.val (y.gain, y.offset)) ([] : Tab (W16 × W16))
      let y := noteIllegal { x with trims := trims, newTrims := none } r.illegal
      x.st = .calibrating ∧ x.calDone = false ∧ x.job = none ∧ logArr (getTile s p) a = none ∧ tilePowered s p = true ∧
        x.since + 20000000 = s.now ∧ (∀ j ∈ (getTile s p).jobs, j.phys ≠ a.val) ∧ r.selfTestOk = true ∧ y.failed.length = 2 ∧
        anyGain 6 trims = false ∧ (trims.any fun z => offsetBeyond z.2.2) = false ∧ anyGain 25 trims = false) ∧
    (∃ (s : State) (t : TileId) (a : Fin 68) (r : CalResult), let p := tileNo t
      let x := arrOf s p a
      x.st = .calibrating ∧ x.calDone = false ∧ x.job = none ∧ logArr (getTile s p) a = none ∧ tilePowered s p = true ∧
        x.since + 20000000 ≤ s.now ∧ (∀ j ∈ (getTile s p).jobs, j.phys ≠ a.val) ∧ r.selfTestOk = false) ∧
    (∃ (s : State) (t : TileId) (a : Fin 68), let p := tileNo t
      (arrOf s p a).st = .draining ∧ inFlight (getTile s p) a = false ∧ (arrOf s p a).toFence = false ∧
        inPlaceOf (getTile s p) a = none ∧ logArr (getTile s p) a = none) ∧
    (∃ s : State, s.img.zeroise = true ∧ allErased s = true) := by
  refine ⟨⟨imaged { jobs := [writeJob] }, tile0, writeJob, 5, false, false, ⟨5, 0, 0⟩, ?_⟩, ?_,
    ⟨imaged { pv := some { retestJob with age := up.now - 1600000 }, arrs := [(2, { st := .verifying })] }, tile0,
      { retestJob with age := up.now - 1600000 }, ?_⟩,
    ⟨imaged { pv := some { writeJob with wrote := true, age := up.now - 1600000 }, arrs := [(2, { st := .verifying })] }, tile0,
      { writeJob with wrote := true, age := up.now - 1600000 }, failed2, 2, ?_⟩,
    ⟨imaged { arrs := [(66, { st := .calibrating, since := up.now - 20000000 })] }, tile0, 66,
      { trims := [⟨3, 0x3C01, 1⟩], selfTestOk := true, illegal := failed2 }, ?_⟩,
    ⟨imaged { arrs := [(66, { st := .calibrating })] }, tile0, 66, { trims := [], selfTestOk := false }, ?_⟩,
    ⟨imaged { arrs := [(66, { st := .draining, calDone := true })] }, tile0, 66, ?_⟩, ⟨erasedAll, rfl, erased_all⟩⟩
  case refine_2 =>
    intro n hn
    have h : n = 1 ∨ n = 12 := by simpa using hn
    rcases h with rfl | rfl
    · exact ⟨imaged { pv := some writeJob, arrs := [(2, { st := .writing })] }, tile0, writeJob, by decide +kernel⟩
    · exact ⟨imaged { pv := some writeJob, arrs := [(2, { st := .writing })] }, tile0, writeJob, by decide +kernel⟩
  all_goals decide +kernel

/-- O49. -/
theorem met_InstanceResets :
    (∃ (s : State) (by_ : Requester) (n : Inst), MayOrder s by_ (.inst n) ∧ (getInst s n).st = .disabled) ∧
    (∃ (s : State) (by_ : Requester) (n : Inst), FirstOrder s ∧ (getInst s n).st ≠ .resetting ∧ s.op.table = [] ∧
      s.time.launches = [] ∧ reqUp s by_ = true ∧ mayWrite s by_ (.inst n) = true ∧ n ≠ 0 ∧ fnUp s n = true) ∧
    (∃ s : State, s.host.vfEnable = true ∧ s.host.linkUp = true ∧ s.op.table = [] ∧ s.time.launches = []) ∧
    (∃ (s : State) (n : Inst), (getInst s n).st = .resetting ∧ passesLeft s n = false ∧ s.op.table = [] ∧ s.time.launches = []) :=
  ⟨⟨up, .fn 0, 3, by unfold MayOrder FirstOrder; decide +kernel⟩,
    ⟨{ up with insts := [(1, { st := .enabled })] }, .fn 0, 1, by unfold FirstOrder; decide +kernel⟩, ⟨up, by decide +kernel⟩,
    ⟨{ up with
        insts := [(3, { st := .resetting, after := .disabled, gen := 4, cntAddr := 8 })], mbx.rings := [(13, { tail := 4 })]
        mbx.threads := [(5, { thr with inst := 3 }), (6, thr)] }, 3, by decide +kernel⟩⟩

/-- O50. -/
theorem met_Assignment :
    (∃ (s : State) (by_ : Requester) (n : Inst) (v : W32), MayOrder s by_ (.inst n) ∧ ∃ a, a = bits v.toNat 0 13 ∧ ∃
      b, b = bits v.toNat 16 11 ∧ a ≤ 4096 ∧ b ≤ 1024 ∧ quotaSum s n 0x014 16 11 b ≤ 1024 ∧ quotaSum s n 0x014 0 13
      a ≤ 4096) ∧
    (∃ (s : State) (by_ : Requester) (n : Inst) (v : W32), MayOrder s by_ (.inst n) ∧ ∃ a, a = bits v.toNat 0 13 ∧ ∃
      b, b = bits v.toNat 16 11 ∧ a ≤ 4096 ∧ b ≤ 1024 ∧ quotaSum s n 0x014 16 11 b ≤ 1024 ∧ 4096 < quotaSum s n
      0x014 0 13 a ∧ a ≠ bits (regPend s (.inst n) 0x014).toNat 0 13) ∧
    (∃ (s : State) (by_ : Requester) (n : Inst) (v : W32), MayOrder s by_ (.inst n) ∧ assignable s n = true ∧ memOk s
      n v.toNat = true) ∧
    (∃ (s : State) (by_ : Requester) (n : Inst) (i : Fin 8) (v : W32), MayOrder s by_ (.inst n) ∧ assignable s n =
      true ∧ ∃ o, o = 0x020 + 4 * i.val ∧ memOk s n v.toNat = false ∧ bits v.toNat 0 11 ≠ bits (regPend s (.inst n)
      o).toNat 0 11) ∧
    (∃ (s : State) (by_ : Requester) (n : Inst) (v : W32), MayOrder s by_ (.inst n) ∧ assignable s n = true ∧ tidOk s
      n v.toNat = true) ∧
    (∃ (s : State) (by_ : Requester) (n : Inst) (v : W32), MayOrder s by_ (.inst n) ∧ assignable s n = true ∧ tidOk s
      n v.toNat = false ∧ bits v.toNat 0 11 ≤ 1024 ∧ bits v.toNat 16 11 ≤ 1024 ∧ bits v.toNat 0 11 ≠ bits (regPend s
      (.inst n) 0x010).toNat 0 11) ∧
    (∃ (s : State) (n : Inst), (getInst s n).scrub = true) ∧
    (∃ (s : State) (by_ : Requester) (n : Inst) (v : W32), MayOrder s by_ (.inst n) ∧ ∃ t, t = regFld s (.inst n)
      0x0B0 0 10 ∧ ∃ old, old = townOf s t ∧ bits v.toNat 0 5 ≠ bits old 0 5 ∧ assignable s (bits old 0 5) = true ∧
      assignable s (bits v.toNat 0 5) = true ∧ tileInUse s t = false) := by
  refine ⟨?_, ?_, ?_, ?_, ?_, ?_, ?_, ?_⟩
  · exact ⟨up, .fn 0, 0, 0x00010001, by unfold MayOrder FirstOrder; decide +kernel, _, rfl, _, rfl, by decide +kernel⟩
  · exact ⟨up, .fn 0, 3, 0x5C3, by unfold MayOrder FirstOrder; decide +kernel, _, rfl, _, rfl, by decide +kernel⟩
  · exact ⟨up, .fn 0, 0, 0x00010001, by unfold MayOrder FirstOrder; decide +kernel, by decide +kernel⟩
  · exact ⟨up, .fn 0, 0, 2, 0x00000FFF, by unfold MayOrder FirstOrder; decide +kernel, by decide +kernel, _, rfl,
      by decide +kernel⟩
  · exact ⟨up, .fn 0, 0, 0x00010001, by unfold MayOrder FirstOrder; decide +kernel, by decide +kernel⟩
  · exact ⟨up, .fn 0, 0, 0x00010400, by unfold MayOrder FirstOrder; decide +kernel, by decide +kernel⟩
  · exact
      ⟨{ up with insts := [(3,{scrub:=true,scrubbing:=[(0x1000,0x2000)]})], mem.cells := [(0xFFF,1),(0x1000,1),(0x2FFF,1),(0x3000,1)] },
      3, by decide +kernel⟩
  · exact ⟨up, .fn 0, 0, 0x00010001, by unfold MayOrder FirstOrder; decide +kernel, _, rfl, _, rfl, by decide +kernel⟩

/-- O51. -/
theorem met_UnitFaults :
    (∃ (s : State) (n : Fin 8), s.op.attnFenced.getLsbD n = false ∧ windowHit s (unitOf 5 n) = none ∧ secondError s
      s.op.lastResidue n = false) ∧
    (∃ (s : State) (n : Fin 8), s.op.attnFenced.getLsbD n = false ∧ windowHit s (unitOf 5 n) = none ∧ secondError s
      s.op.lastResidue n = true) ∧
    (∃ s : State, s.op.samplerFenced = false ∧ windowHit s (unitOf 9 7) = none) ∧
    (∃ (s : State) (t : TileId), unitFenced s (unitTile (tileNo t)) = false ∧ secondError s (getTile s (tileNo
      t)).lastResidue 101 = false) ∧
    (∃ (s : State) (a : W64), isStacked a.toNat = true ∧ (getStack s (stackOf a.toNat)).fenced = false) ∧
    (∃ (s : State) (k : Fin 8), domUsable s (28 + k.val) = true) := by
  refine ⟨?_, ?_, ?_, ?_, ?_, ?_⟩
  · exact ⟨up, 0, by decide +kernel⟩
  · exact ⟨{ up with op.lastResidue := [(7,1999999999999999)] }, 7, by decide +kernel⟩
  · exact ⟨up, by decide +kernel⟩
  · exact ⟨up, tile0, by decide +kernel⟩
  · exact ⟨up, 0x4000, by decide +kernel⟩
  · exact ⟨up, 0, by decide +kernel⟩

/-- O52. -/
theorem met_HostMemory :
    (∃ (s : State) (f : Inst) (a : W64) (len : Nat), fnUp s f = true ∧ s.host.scrub = false ∧ bar4Open s f a.toNat
      len = true ∧ (∀ x, a.toNat ≤ x → x < a.toNat + len → lineBad s x = false)) ∧
    (∃ (s : State) (f : Inst) (a : W64) (len : Nat), fnUp s f = true ∧ s.host.scrub = false ∧ bar4Open s f a.toNat
      len = false) ∧
    (∃ (s : State) (f : Inst) (a : W64) (d : List Byte), fnUp s f = true ∧ bar4Open s f a.toNat d.length = true) ∧
    (∃ (s : State) (f : Inst) (a : W64) (d : List Byte), fnUp s f = true ∧ bar4Open s f a.toNat d.length = false) ∧
    (∃ (s : State) (base : W64) (size : W64) (dev : W64) (n : Inst), fnUp s 0 = true ∧ hdmOk s ⟨true, base, size,
      dev, n⟩ = true) ∧
    (∃ (s : State) (base : W64) (size : W64) (dev : W64) (n : Inst), fnUp s 0 = true ∧ hdmOk s ⟨true, base, size,
      dev, n⟩ = false) ∧
    (∃ (s : State) (a : W64) (h : Hdm) (d : Nat), fnUp s 0 = true ∧ hdmHit s (a.toNat / 64 * 64) = some (h, d) ∧
      inUser s h.inst d 64 = true ∧ s.host.scrub = false ∧ (∀ x, d ≤ x → x < d + 64 → lineBad s x = false)) ∧
    (∃ (s : State) (tag : Fin 1024) (t : Nat) (h : HostLoad) (d : List Byte), loadOf s tag = some (t, h) ∧ d.length =
      h.size) ∧
    (∃ (s : State) (tag : Fin 1024) (t : Nat) (h : HostLoad), loadOf s tag = some (t, h) ∧ ∃ th, th = getThr s t ∧
      CanEnter th ∧ th.st ≠ .suspended) ∧
    (∃ (s : State) (f : Inst) (v : Fin 2048), fnUp s f = true ∧ v.val < regFld s (.inst f) 0x01C 16 12) := by
  refine ⟨?_, ?_, ?_, ?_, ?_, ?_, ?_, ?_, ?_, ?_⟩
  · exact ⟨(holding up 0x4000 [9,8]), 0, 0x4000, 4, by decide +kernel, by decide +kernel, by decide +kernel, fun x _
      _ => fine _ rfl rfl x⟩
  · exact ⟨(holding up 0x4000 [9,8]), 0, 0x5C3FFFFFFF, 4, by decide +kernel⟩
  · exact ⟨(holding up 0x4000 [9,8]), 0, 0x4000, [1,2,3,4], by decide +kernel⟩
  · exact ⟨(holding up 0x4000 [9,8]), 0, 0x5C3FFFFFFF, [1,2,3,4], by decide +kernel⟩
  · exact ⟨up, 0x10000000, 0x10000000, 0, 0, by decide +kernel⟩
  · exact ⟨up, 5, 0x10000000, 0, 0, by decide +kernel⟩
  · exact ⟨{ holding up 0x41 [9,8] with host.hdms := [(1,⟨true,0x10000000,0x10000000,0,0⟩)] }, 0x10000044,
      ⟨true,0x10000000,0x10000000,0,0⟩, 0x40, by decide +kernel, by decide +kernel, by decide +kernel,
      by decide +kernel, fun x _ _ => fine _ rfl rfl x⟩
  · exact
      ⟨{ withThr {thr with hostLoad:=some ⟨4,9,2,true,0x8000000000000000⟩,st:=.hot} with host.reqs := [(4,⟨0,0,some 5,none⟩)] },
      4, 5, ⟨4,9,2,true,0x8000000000000000⟩, [1,0x80], by decide +kernel⟩
  · exact
      ⟨{ withThr {thr with hostLoad:=some ⟨4,9,2,true,0x8000000000000000⟩,st:=.hot} with host.reqs := [(4,⟨0,0,some 5,none⟩)] },
      4, 5, ⟨4,9,2,true,0x8000000000000000⟩, by decide +kernel, _, rfl, by unfold CanEnter; decide +kernel,
      by decide +kernel⟩
  · exact ⟨(holding up 0x4000 [9,8]), 0, 5, by decide +kernel⟩

/-- O53. -/
theorem met_DoeAnswers :
    ∀ op ∈ ([5, 0xFF] : List Byte), ∃ (s : State) (slot : BitVec 4), fnUp s 0 = true ∧ (op.toNat ≤ 5 ∨ op = 0xFF) ∧ slot ≠ 0 := by
  intro op hop
  have h : op = 5 ∨ op = 0xFF := by simpa using hop
  rcases h with rfl | rfl
  · exact ⟨up, 1, by decide +kernel⟩
  · exact ⟨up, 15, by decide +kernel⟩

/-- Channel 1 of metrology unit 4 is set up by a descriptor at 0x4000 whose interval is `n`. -/
def described (input : Nat) : State :=
  holding (reg up (.met 4) 0x050 0x4000) 0x4000
    (image 64 [(0, 1, input), (1, 1, 0x10), (3, 1, 2), (4, 4, 9), (8, 4, 5), (0x10, 8, 0x5000), (0x18, 1, 4)])
/-- That channel runs, and the unit is at some channel. -/
def channelled (x : Chan) (u : Met) : State := { up with met.chans := [(33, x)], met.mets := [(4, u)] }
/-- A channel that runs. -/
def chan5 : Chan := { running := true, input := 3, interval := 5, ring := 0x5000, log2 := 4 }

/-- O54. -/
theorem met_DeviceResets :
    (∃ s : State, s.img.load = none ∧ (∀ q ∈ ([(.perstNFall, !s.host.perst, 1), (.pfFlr, fnUp s 0, 2)] : List (Instr
      × Bool × Nat)), q.2.1 = true)) ∧
    (∃ s : State, s.host.perst = true) ∧
    (∃ s : State, s.host.scrub = true) ∧
    (∃ s : State, s.pwr.p12ok = true) ∧
    (∃ s : State, s.pwr.p12ok = false) := by
  refine ⟨?_, ?_, ?_, ?_, ?_⟩
  · exact ⟨{ withThr thr with mem.cells := [(5,1),(0x5C40000001,2),(0x5EC0000000,3)] }, by decide +kernel⟩
  · exact ⟨{ up with host.perst := true, host.linkUp := false }, by decide +kernel⟩
  · exact ⟨{ up with host.scrub := true }, by decide +kernel⟩
  · exact ⟨{ withThr thr with mem.cells := [(5,1),(0x5C40000001,2),(0x5EC0000000,3)] }, by decide +kernel⟩
  · exact ⟨{ up with pwr.p12ok := false, img.zeroiseFlag := true, img.anchors := [(1,{hash:=5})] },
      by decide +kernel⟩

/-- O55. -/
theorem met_SuppliesAndDomains :
    (∃ (s : State) (v : W16), s.pwr.p12ok = true ∧ s.pwr.p48ok = false ∧ 3950 ≤ v.toNat ∧ v.toNat ≤ 6050) ∧
    (∃ (s : State) (v : W16), s.pwr.p48ok = true ∧ s.pwr.p48warn = false ∧ v.toNat < 4000) ∧
    (∃ (s : State) (v : W16), s.pwr.p48warn = true ∧ 4000 ≤ v.toNat) ∧
    (∃ (s : State) (v : W16), s.pwr.p48ok = true ∧ (v.toNat < 3800 ∨ 6100 < v.toNat)) ∧
    (∃ (s : State) (p : Fin 9), s.keep.running = true ∧ s.pwr.short.getLsbD p = false) ∧
    (∃ (s : State) (p : Fin 9), s.keep.running = true ∧ s.pwr.short.getLsbD p = true) ∧
    (∃ (s : State) (by_ : Requester) (d : BitVec 6), MayOrder s by_ .pwr ∧ s.keep.running = true ∧ s.pwr.domBusy =
      none ∧ d.toNat < 47 ∧ s.pwr.trip = false ∧ getDom s d.toNat = .off ∧ (∀ x ∈ domDeps d.toNat, domUsable s x =
      true)) ∧
    (∃ (s : State) (by_ : Requester) (d : BitVec 6), MayOrder s by_ .pwr ∧ s.keep.running = true ∧ s.pwr.domBusy =
      none ∧ d.toNat < 47 ∧ s.pwr.trip = true) ∧
    (∃ (s : State) (by_ : Requester) (d : BitVec 6), MayOrder s by_ .pwr ∧ s.keep.running = true ∧ s.pwr.domBusy =
      none ∧ d.toNat < 47 ∧ getDom s d.toNat ≠ .off ∧ domWorks s d.toNat = false ∧ domNeeded s d.toNat = false) ∧
    (∃ (s : State) (by_ : Requester) (d : BitVec 6), MayOrder s by_ .pwr ∧ s.keep.running = true ∧ s.pwr.domBusy =
      none ∧ d.toNat < 47 ∧ getDom s d.toNat ≠ .off ∧ domWorks s d.toNat = true) ∧
    (∃ (s : State) (d : Fin 47), getDom s d = .starting ∧ s.pwr.p48ok = true ∧ s.pwr.trip = false) := by
  refine ⟨?_, ?_, ?_, ?_, ?_, ?_, ?_, ?_, ?_, ?_, ?_⟩
  · exact ⟨{ up with pwr.p48ok := false }, 3950, by decide +kernel⟩
  · exact ⟨up, 3950, by decide +kernel⟩
  · exact ⟨{ up with pwr.p48warn := true, pwr.short := 0x101 }, 6050, by decide +kernel⟩
  · exact ⟨up, 3799, by decide +kernel⟩
  · exact ⟨up, 0, by decide +kernel⟩
  · exact ⟨{ up with pwr.p48warn := true, pwr.short := 0x101 }, 0, by decide +kernel⟩
  · exact ⟨{ up with pwr.domains := [(46,.starting),(6,.usable),(4,.usable),(44,.usable),(29,.usable)] }, .fn 0, 0,
      by unfold MayOrder FirstOrder; decide +kernel, by decide +kernel⟩
  · exact ⟨{ up with pwr.trip := true, pwr.domains := [(0,.starting),(28,.starting)] }, .fn 0, 0,
      by unfold MayOrder FirstOrder; decide +kernel, by decide +kernel⟩
  · exact ⟨up, .fn 0, 0, by unfold MayOrder FirstOrder; decide +kernel, by decide +kernel⟩
  · exact ⟨up, .fn 0, 28, by unfold MayOrder FirstOrder; decide +kernel, by decide +kernel⟩
  · exact ⟨{ up with pwr.domains := [(46,.starting),(6,.usable),(4,.usable),(44,.usable),(29,.usable)] }, 46,
      by decide +kernel⟩

/-- O56. -/
theorem met_SensorsAndTrips :
    (∃ (s : State) (i : Nat), s.keep.running = true ∧ i < 296) ∧
    (∃ (s : State) (i : Nat), s.keep.running = true ∧ tabHas s.pwr.sensors i = true ∧ (getSensor s i).mark = 0) ∧
    (∃ (s : State) (d : BitVec 4) (k : Byte) (r : W16), s.pwr.p12ok = true ∧ s.pwr.trip = false ∧ d.toNat ≤ 5 ∧
      mayTrip s d.toNat k.toNat r = true) ∧
    (∃ (s : State) (t : Nat), s.pwr.tripCool = some t ∧ s.pwr.trip = true ∧ t + 1200000000000 ≤ s.now) ∧
    (∃ s : State, s.keep.running = true ∧ domUsable s 46 = true) ∧
    (∃ (s : State) (i : Nat), s.keep.running = true ∧ i < 296 ∧ domUsable s 46 = true ∧ ∃ x, x = getSensor s i ∧
      x.mark = 1) ∧
    (∃ (s : State) (i : Nat), s.keep.running = true ∧ i < 296 ∧ domUsable s 46 = true ∧ ∃ x, x = getSensor s i ∧
      x.mark = 2) := by
  refine ⟨?_, ?_, ?_, ?_, ?_, ?_, ?_⟩
  · exact ⟨up, 3, by decide +kernel⟩
  · exact ⟨{ up with pwr.sensors := [(3,{reading:=400,run:=9}),(3,{reading:=1}),(4,{reading:=100})] }, 3,
      by decide +kernel⟩
  · exact ⟨(withThr thr), 0, 3, 904, by decide +kernel⟩
  · exact ⟨{ up with pwr.trip:=true,pwr.tripCool:=some 5 }, 5, by decide +kernel⟩
  · exact ⟨{ up with pwr.rP := 4000 }, by decide +kernel⟩
  · exact ⟨{ up with pwr.sensors := [(3,{reading:=400,mark:=1}),(12,{reading:=1})] }, 3, by decide +kernel,
      by decide +kernel, by decide +kernel, _, rfl, by decide +kernel⟩
  · exact ⟨{ up with pwr.sensors := [(3,{reading:=77,mark:=2})] }, 3, by decide +kernel, by decide +kernel,
      by decide +kernel, _, rfl, by decide +kernel⟩

/-- O57. -/
theorem met_Metrology :
    (∃ (s : State) (by_ : Requester) (c : Fin 5) (ch : Fin 8), MayOrder s by_ (.met c) ∧
      let a := (regAct s (.met c) (0x040 + 16 * ch.val)).toNat
      (getChan s (c.val * 8 + ch.val)).running = false ∧ inInst s 0 a 64 = true ∧ lineBad s a = false ∧
        chanOk s c (rdBytes s a 64) = true ∧ domUsable s 46 = true) ∧
    (∃ (s : State) (by_ : Requester) (c : Fin 5) (ch : Fin 8), MayOrder s by_ (.met c) ∧
      let a := (regAct s (.met c) (0x040 + 16 * ch.val)).toNat
      (getChan s (c.val * 8 + ch.val)).running = false ∧ (inInst s 0 a 64 = false ∨ lineBad s a = true)) ∧
    (∃ (s : State) (by_ : Requester) (c : Fin 5) (ch : Fin 8), MayOrder s by_ (.met c) ∧
      let a := (regAct s (.met c) (0x040 + 16 * ch.val)).toNat
      (getChan s (c.val * 8 + ch.val)).running = false ∧ inInst s 0 a 64 = true ∧ lineBad s a = false ∧
        chanOk s c (rdBytes s a 64) = false) ∧
    (∀ held : Bool, ∃ (s : State) (by_ : Requester) (c : Fin 5) (ch : Fin 8), MayOrder s by_ (.met c) ∧
      let x := getChan s (c.val * 8 + ch.val)
      x.running = true ∧ x.doneCnt = 0 ∧ decide ((getMet s c).holder = some ch) = held) ∧
    (∃ (s : State) (c : Fin 5) (ch : Fin 8), let x := getChan s (c.val * 8 + ch.val)
      x.running = true ∧ x.raised = false ∧ x.requestedAt + x.interval * 40000 ≤ s.now) ∧
    (∃ (s : State) (c : Fin 5) (ch : Fin 8), let k := c.val * 8 + ch.val
      let x := getChan s k
      (getMet s c).holder = some ch ∧ (getMet s c).settledAt ≤ s.now ∧ chanProbes k x = false ∧ metRingOk s x = true ∧
        x.doneCnt = 0) ∧
    (∃ (s : State) (k : Fin 4), probing s k = true ∧ (tabGet ({} : Sense) s.met.senses k).probedAt = none) ∧
    (∃ (s : State) (f : Fin 16) (y : TrimWrite) (a : Nat), let p := f.val / 4 * 264 + f.val % 4 * 66 + y.tile.val
      s.keep.running = true ∧ domUsable s 46 = true ∧ logArr (getTile s p) y.array = some a ∧
        (arrOf s p y.array).st = .active ∧ rewriteOf (getTile s p) a = none ∧ (getTile s p).rewrites.length < 4 ∧
        regFld s (tileBlk p) 0x00C 4 1 = 1 ∧ gainBeyond 6 y.trim.gain = true) ∧
    (∃ (s : State) (f : Fin 16) (y : TrimWrite), let p := f.val / 4 * 264 + f.val % 4 * 66 + y.tile.val
      s.keep.running = true ∧ domUsable s 46 = true ∧ regFld s (tileBlk p) 0x00C 4 1 = 0) ∧
    (∃ (s : State) (f : Fin 16), s.keep.running = true ∧ s.met.missed.contains f.val = false ∧
      tabGet 0 s.met.driftAt f + 160000000000 = s.now) := by
  let y : TrimWrite := ⟨0, 1, ⟨3, 0x3C80, 0⟩⟩
  refine ⟨⟨described 3, .fn 0, 4, 1, ?_⟩, ⟨reg up (.met 4) 0x050 0x5C3FFFFFFF0, .fn 0, 4, 1, ?_⟩, ⟨described 64, .fn 0, 4, 1, ?_⟩, ?_,
    ⟨channelled chan5 {}, 4, 1, ?_⟩, ⟨channelled chan5 { holder := some 1, settledAt := 9 }, 4, 1, ?_⟩,
    ⟨channelled { chan5 with probe := true } {}, 3, ?_⟩,
    ⟨reg (withTile up { arrs := [(1, { st := .active })], image := some 0 }) (tileBlk 0) 0x00C 0x10, 0, y, 1, ?_⟩,
    ⟨reg up (tileBlk 0) 0x00C 0, 0, y, ?_⟩, ⟨{ up with met.driftAt := [(5, up.now - 160000000000)] }, 5, ?_⟩⟩
  case refine_4 =>
    intro held
    cases held
    · exact ⟨channelled chan5 {}, .fn 0, 4, 1, by unfold MayOrder FirstOrder; decide +kernel⟩
    · exact ⟨channelled chan5 { holder := some 1 }, .fn 0, 4, 1, by unfold MayOrder FirstOrder; decide +kernel⟩
  all_goals first | (unfold MayOrder FirstOrder; decide +kernel) | decide +kernel

/-- O58. -/
theorem met_RegisterAccess :
    (∃ (s : State) (by_ : Requester), reqUp s by_ = true ∧ mayWrite s by_ .global = true ∧ FirstOrder s) ∧
    (∃ (s : State) (by_ : Requester) (v : W64), reqUp s by_ = true ∧ mayWrite s by_ .global = true ∧
      bitsLost s (bitOrder s by_ .global 0x020 (2 ^ 64 - 1) v.toNat false) = 2 ^ 64 - 1) ∧
    (∃ (s : State) (by_ : Requester), reqUp s by_ = true ∧ mayWrite s by_ .global = false) ∧
    (∃ (s : State) (n m : Inst), reachesPage s n m = true ∧ FirstOrder s) ∧
    (∃ (s : State) (by_ : Requester) (l : Latch), reqUp s by_ = true ∧ mayRead s by_ .belfry = true ∧
      latchOf s by_ .belfry false = some l ∧ l.reg = 0x008 ∧ l.view = .base) ∧
    (∃ (s : State) (by_ : Requester) (l : Latch), MayOrder s by_ .global ∧ latchOf s by_ .global true = some l ∧
      l.reg = 0x020 ∧ l.view = .base) ∧
    (∃ (s : State) (by_ : Requester), MayOrder s by_ .route) := by
  let r : Latch := ⟨.fn 0, blkBase .belfry, 8, .base, 7, 0, false, 1999999999999999⟩
  let w : Latch := ⟨.fn 0, 0, 0x20, .base, 7, 0, true, 1999999999999999⟩
  refine ⟨⟨up, .fn 0, ?_⟩,
    ⟨{ up with reg.orders := [⟨up.now, 2, 0, .reg (blkBase .global + 0x020), 2 ^ 64 - 1, 0, false, none, 0⟩] }, .fn 0, BitVec.allOnes 64, ?_⟩,
    ⟨up, .fn 3, ?_⟩, ⟨up, 0, 3, ?_⟩, ⟨{ up with reg.latches := [r, w] }, .fn 0, r, ?_⟩, ⟨{ up with reg.latches := [r, w] }, .fn 0, w, ?_⟩,
    ⟨up, .fn 0, ?_⟩⟩ <;>
    first | (unfold MayOrder FirstOrder; decide +kernel) | (unfold FirstOrder; decide +kernel) | decide +kernel

/-- O59. -/
theorem met_KeepCommands :
    (∃ (s : State) (by_ : Requester), MayOrder s by_ .keep ∧ s.keep.busy = none ∧ s.keep.running = true ∧
      s.img.zeroise = false ∧ s.img.zeroiseFlag = false ∧ s.keep.restoring = none) ∧
    (∃ (s : State) (by_ : Requester) (arg : W64), MayOrder s by_ .keep ∧ s.keep.busy = none ∧ s.keep.running = true ∧
      arg ≠ 0x5A45) ∧
    (∃ (s : State) (by_ : Requester), MayOrder s by_ .keep ∧ s.keep.busy = none ∧ s.keep.running = true ∧
      s.img.zeroise = false ∧ s.img.zeroiseFlag = false ∧ s.op.table = [] ∧ s.img.load = none) ∧
    (∃ (s : State) (by_ : Requester), MayOrder s by_ .keep ∧ s.keep.busy = none ∧ s.keep.running = true ∧ ∃ ref :
      W16, s.keep.restoring = none ∧ (∀ q ∈ ([(.sweepConverter by_, 0, 0), (.sweepSensor by_ ref, 1, ref),
      (.sweepOscillator by_, 2, 0), (.sweepReference by_, 3, 0)] : List (Instr × Nat × W16)), sweepCond s q.2.1 =
      true)) ∧
    (∃ (s : State) (by_ : Requester), MayOrder s by_ .keep ∧ s.keep.busy = none ∧ s.keep.running = true ∧ ∃ ref :
      W16, s.keep.restoring = none ∧ (∀ q ∈ ([(.sweepConverter by_, 0, 0), (.sweepSensor by_ ref, 1, ref),
      (.sweepOscillator by_, 2, 0), (.sweepReference by_, 3, 0)] : List (Instr × Nat × W16)), sweepCond s q.2.1 =
      false)) ∧
    (∃ (s : State) (by_ : Requester) (arg : W64), MayOrder s by_ .keep ∧ s.keep.busy = none ∧ s.keep.running = true ∧
      unitExists (argUnit arg) = true ∧ (argUnit arg).kind ≠ 3 ∧ faultFenced s (argUnit arg) = true) ∧
    (∃ (s : State) (by_ : Requester) (arg : W64), MayOrder s by_ .keep ∧ s.keep.busy = none ∧ s.keep.running = true ∧
      unitExists (argUnit arg) = true ∧ (argUnit arg).kind ≠ 3 ∧ faultFenced s (argUnit arg) = false) ∧
    (∃ (s : State) (by_ : Requester), MayOrder s by_ .keep ∧ s.keep.busy = none ∧ s.keep.running = true ∧ fromOwner s
      by_ = true ∧ s.img.zeroise = false ∧ s.img.zeroiseFlag = false) ∧
    (∃ (s : State) (by_ : Requester) (arg : W64), MayOrder s by_ .keep ∧ s.keep.busy = none ∧ s.keep.running = true ∧
      ∃ k, k = bits arg.toNat 0 4 ∧ fromOwner s by_ = true ∧ s.img.zeroise = false ∧ s.img.zeroiseFlag = false ∧
      (getAnchor s k).floor ≤ bits arg.toNat 8 7 ∧ bits arg.toNat 8 7 ≤ 64) ∧
    (∃ (s : State) (by_ : Requester) (arg : W64), MayOrder s by_ .keep ∧ s.keep.busy = none ∧ s.keep.running = true ∧
      ∃ k, k = bits arg.toNat 0 4 ∧ fromOwner s by_ = true ∧ s.img.zeroise = false ∧ s.img.zeroiseFlag = false ∧
      bits arg.toNat 8 7 < (getAnchor s k).floor) ∧
    (∃ (s : State) (by_ : Requester) (arg : W64), MayOrder s by_ .keep ∧ s.keep.busy = none ∧ s.keep.running = true ∧
      fromOwner s by_ = true ∧ s.img.zeroise = false ∧ s.img.zeroiseFlag = false ∧ ∃ n, n = rdNat s arg.toNat 1 ∧
      inInst s 0 arg.toNat 64 = true ∧ rangeBad s arg.toNat 64 = false ∧ n < 16 ∧ (getAnchor s n).valid = false) ∧
    (∃ (s : State) (by_ : Requester), MayOrder s by_ .keep ∧ s.keep.busy = none ∧ s.keep.running = true ∧ fromOwner s
      by_ = false) ∧
    (∃ (s : State) (by_ : Requester), MayOrder s by_ .keep ∧ s.keep.busy = none ∧ s.keep.running = true ∧ ∃ c : Byte,
      c ∉ [0x01, 0x02, 0x03, 0x04, 0x10, 0x11, 0x12, 0x13]) ∧
    (∃ (s : State) (e : Nat), s.keep.restoring = some e ∧ s.keep.running = true ∧ e < epochNo s) ∧
    (∃ (s : State) (n : Nat) (ref : W16), s.keep.busy = some (.sweep n ref) ∧ s.keep.running = true ∧ sweepCond s n =
      true) ∧
    (∃ (s : State) (n : Nat) (ref : W16), s.keep.busy = some (.sweep n ref) ∧ s.keep.running = true ∧ sweepCond s n =
      false) ∧
    (∃ (s : State) (n : Fin 8), s.keep.busy = some (.retest (unitOf 5 n)) ∧ s.keep.running = true) ∧
    (∃ s : State, s.keep.busy = some .unanswered ∧ s.keep.since + 400000000 ≤ s.now) ∧
    (∃ s : State, s.keep.running = true) ∧
    (∃ s : State, s.keep.recovery = true) ∧
    (∃ s : State, s.keep.recovery = false) := by
  refine ⟨?_, ?_, ?_, ?_, ?_, ?_, ?_, ?_, ?_, ?_, ?_, ?_, ?_, ?_, ?_, ?_, ?_, ?_, ?_, ?_, ?_⟩
  · exact
      ⟨{ reg up .keep 0x018 0 with keep.busy := none, keep.since := 5, keep.restoring := none, op.attnFenced := 4, img.anchors := [(2,{hash:=5,floor:=9,valid:=true})], time.belfry.state := .freerun, time.belfry.ns := 0x10000000 },
      .fn 0, by unfold MayOrder FirstOrder; decide +kernel, by decide +kernel⟩
  · exact
      ⟨{ reg up .keep 0x018 0 with keep.busy := none, keep.since := 5, keep.restoring := none, op.attnFenced := 4, img.anchors := [(2,{hash:=5,floor:=9,valid:=true})], time.belfry.state := .freerun, time.belfry.ns := 0x10000000 },
      .fn 0, 0x4000, by unfold MayOrder FirstOrder; decide +kernel, by decide +kernel⟩
  · exact
      ⟨{ reg up .keep 0x018 0 with keep.busy := none, keep.since := 5, keep.restoring := none, op.attnFenced := 4, img.anchors := [(2,{hash:=5,floor:=9,valid:=true})], time.belfry.state := .freerun, time.belfry.ns := 0x10000000 },
      .fn 0, by unfold MayOrder FirstOrder; decide +kernel, by decide +kernel⟩
  · exact
      ⟨{ up with pwr.domains := [(46, .usable)], time.belfry.state := .locked, met.driftRecs := (upFrom 0 16).flatMap fun n => [(n, 2000000000000000, 0), (n, 2000000000000000, 80)] },
      .fn 0, by unfold MayOrder FirstOrder; decide +kernel, by decide +kernel, by decide +kernel, 7, by decide +kernel⟩
  · exact ⟨{ up with pwr.domains := [(0, .usable)], time.belfry.state := .freerun }, .fn 0,
      by unfold MayOrder FirstOrder; decide +kernel, by decide +kernel, by decide +kernel, 7, by decide +kernel⟩
  · exact
      ⟨{ reg up .keep 0x018 0 with keep.busy := none, keep.since := 5, keep.restoring := none, op.attnFenced := 4, img.anchors := [(2,{hash:=5,floor:=9,valid:=true})], time.belfry.state := .freerun, time.belfry.ns := 0x10000000 },
      .fn 0, 0x50000002, by unfold MayOrder FirstOrder; decide +kernel, by decide +kernel⟩
  · exact
      ⟨{ reg up .keep 0x018 0 with keep.busy := none, keep.since := 5, keep.restoring := none, op.attnFenced := 4, img.anchors := [(2,{hash:=5,floor:=9,valid:=true})], time.belfry.state := .freerun, time.belfry.ns := 0x10000000 },
      .fn 0, 0x50000003, by unfold MayOrder FirstOrder; decide +kernel, by decide +kernel⟩
  · exact
      ⟨{ reg up .keep 0x018 0 with keep.busy := none, keep.since := 5, keep.restoring := none, op.attnFenced := 4, img.anchors := [(2,{hash:=5,floor:=9,valid:=true})], time.belfry.state := .freerun, time.belfry.ns := 0x10000000 },
      .keep, by unfold MayOrder FirstOrder; decide +kernel, by decide +kernel⟩
  · exact
      ⟨{ reg up .keep 0x018 0 with keep.busy := none, keep.since := 5, keep.restoring := none, op.attnFenced := 4, img.anchors := [(2,{hash:=5,floor:=9,valid:=true})], time.belfry.state := .freerun, time.belfry.ns := 0x10000000 },
      .keep, 0x4000, by unfold MayOrder FirstOrder; decide +kernel, by decide +kernel, by decide +kernel, _, rfl,
      by decide +kernel⟩
  · exact
      ⟨{ reg up .keep 0x018 0 with keep.busy := none, keep.since := 5, keep.restoring := none, op.attnFenced := 4, img.anchors := [(2,{hash:=5,floor:=9,valid:=true})], time.belfry.state := .freerun, time.belfry.ns := 0x10000000 },
      .keep, 0x0802, by unfold MayOrder FirstOrder; decide +kernel, by decide +kernel, by decide +kernel, _, rfl,
      by decide +kernel⟩
  · exact
      ⟨{ reg up .keep 0x018 0 with keep.busy := none, keep.since := 5, keep.restoring := none, op.attnFenced := 4, img.anchors := [(2,{hash:=5,floor:=9,valid:=true})], time.belfry.state := .freerun, time.belfry.ns := 0x10000000 },
      .keep, 0x4000, by unfold MayOrder FirstOrder; decide +kernel, by decide +kernel, by decide +kernel, by decide +kernel,
      by decide +kernel, by decide +kernel, _, rfl, by decide +kernel⟩
  · exact
      ⟨{ reg up .keep 0x018 0 with keep.busy := none, keep.since := 5, keep.restoring := none, op.attnFenced := 4, img.anchors := [(2,{hash:=5,floor:=9,valid:=true})], time.belfry.state := .freerun, time.belfry.ns := 0x10000000 },
      .fn 0, by unfold MayOrder FirstOrder; decide +kernel, by decide +kernel⟩
  · exact
      ⟨{ reg up .keep 0x018 0 with keep.busy := none, keep.since := 5, keep.restoring := none, op.attnFenced := 4, img.anchors := [(2,{hash:=5,floor:=9,valid:=true})], time.belfry.state := .freerun, time.belfry.ns := 0x10000000 },
      .fn 0, by unfold MayOrder FirstOrder; decide +kernel, by decide +kernel, by decide +kernel, 0x05, by decide +kernel⟩
  · exact
      ⟨{ reg up .keep 0x018 0 with keep.busy := some .restoreFactory, keep.since := 5, keep.restoring := some 5, op.attnFenced := 4, img.anchors := [(2,{hash:=5,floor:=9,valid:=true})], time.belfry.state := .freerun, time.belfry.ns := 0x10000000 },
      5, by decide +kernel⟩
  · exact
      ⟨{ reg up .keep 0x018 0 with keep.busy := some (.sweep 0 7), keep.since := 5, keep.restoring := none, op.attnFenced := 4, img.anchors := [(2,{hash:=5,floor:=9,valid:=true})], time.belfry.state := .freerun, time.belfry.ns := 0x10000000 },
      0, 7, by decide +kernel⟩
  · exact
      ⟨{ reg up .keep 0x018 0 with keep.busy := some (.sweep 2 7), keep.since := 5, keep.restoring := none, op.attnFenced := 4, img.anchors := [(2,{hash:=5,floor:=9,valid:=true})], time.belfry.state := .freerun, time.belfry.ns := 0x10000000 },
      2, 7, by decide +kernel⟩
  · exact
      ⟨{ reg up .keep 0x018 0 with keep.busy := some (.retest (unitOf 5 2)), keep.since := 5, keep.restoring := none, op.attnFenced := 4, img.anchors := [(2,{hash:=5,floor:=9,valid:=true})], time.belfry.state := .freerun, time.belfry.ns := 0x10000000 },
      2, by decide +kernel⟩
  · exact
      ⟨{ reg up .keep 0x018 0 with keep.busy := some .unanswered, keep.since := 5, keep.restoring := none, op.attnFenced := 4, img.anchors := [(2,{hash:=5,floor:=9,valid:=true})], time.belfry.state := .freerun, time.belfry.ns := 0x10000000 },
      by decide +kernel⟩
  · exact
      ⟨{ reg up .keep 0x018 0 with keep.busy := some .restoreFactory, keep.since := 5, keep.restoring := some 5, op.attnFenced := 4, img.anchors := [(2,{hash:=5,floor:=9,valid:=true})], time.belfry.state := .freerun, time.belfry.ns := 0x10000000 },
      by decide +kernel⟩
  · exact ⟨{ up with keep.running := false, keep.recovery := true }, by decide +kernel⟩
  · exact
      ⟨{ reg up .keep 0x018 0 with keep.busy := some .restoreFactory, keep.since := 5, keep.restoring := some 5, op.attnFenced := 4, img.anchors := [(2,{hash:=5,floor:=9,valid:=true})], time.belfry.state := .freerun, time.belfry.ns := 0x10000000 },
      by decide +kernel⟩

/-- O60. -/
theorem met_GuardsAndTraps :
    (∃ (s : State) (t : Tid) (g : Guard), ∃ th, th = getThr s t.toNat ∧ canIssue s t.toNat = true ∧ fetchFault s
      t.toNat = none ∧ guardOf th g = false) ∧
    (∃ (s : State) (t : Tid) (g : Guard) (a : GReg) (z : BitVec 2) (sx : Bool) (off : BitVec 24), ∃ th, th = getThr s
      t.toNat ∧ ∃ x, x = gRd th a + off.signExtend 64 ∧ ∃ n, n = 2 ^ z.toNat ∧ Issues s t g ∧ CanEnter th ∧ (sx && z
      == 3) = false ∧ x.toNat % n ≠ 0) ∧
    (∃ (s : State) (t : Tid) (g : Guard) (a : GReg) (z : BitVec 2) (sx : Bool) (off : BitVec 24), ∃ th, th = getThr s
      t.toNat ∧ ∃ x, x = gRd th a + off.signExtend 64 ∧ ∃ n, n = 2 ^ z.toNat ∧ Issues s t g ∧ CanEnter th ∧ (sx && z
      == 3) = false ∧ x.toNat % n = 0 ∧ inInst s th.inst x.toNat n = false) ∧
    (∃ (s : State) (t : Tid) (g : Guard), ∃ th, th = getThr s t.toNat ∧ Issues s t g ∧ CanEnter th ∧ th.priv = false) := by
  refine ⟨?_, ?_, ?_, ?_⟩
  · exact ⟨(withThr {thr with g:=[(1,0x4003),(2,9)],priv:=false}), 5, (⟨0,true⟩ : Guard), _, rfl, by decide +kernel⟩
  · exact ⟨(withThr {thr with g:=[(1,0x4003),(2,9)],priv:=false}), 5, (⟨0,false⟩ : Guard), 1, 1, true, 0, _, rfl, _,
      rfl, _, rfl, by unfold Issues; decide +kernel, by unfold CanEnter; decide +kernel, by decide +kernel⟩
  · exact ⟨(withThr {thr with g:=[(1,0x5C40000000),(2,9)],priv:=false}), 5, (⟨0,false⟩ : Guard), 1, 0, true, 0, _,
      rfl, _, rfl, _, rfl, by unfold Issues; decide +kernel, by unfold CanEnter; decide +kernel, by decide +kernel⟩
  · exact ⟨(withThr {thr with g:=[(1,0x4003),(2,9)],priv:=false}), 5, (⟨0,false⟩ : Guard), _, rfl,
      by unfold Issues; decide +kernel, by unfold CanEnter; decide +kernel, by decide +kernel⟩

end Sys2Proof.Tests
end

section
/-! SUPPORT. Register accesses (R372, R373, R446 to R453): what an order meets in its cycle, what a write stores, what a
read returns, and which latch it leaves. -/

namespace Sys2Proof.Safety

open Sys2Proof Sys2Proof.Machine

/-! ## Orders of one cycle (R372, R373) -/

/-- The state in which an order is noted after those given before it in its cycle. -/
def noted (s : State) (o : Order) : State :=
  { s with reg.orders := (s.reg.orders.filter fun x => x.at_ == s.now) ++ [o] }

@[simp] theorem noted_mem (s : State) (o : Order) : (noted s o).mem = s.mem := rfl
@[simp] theorem noted_pwr (s : State) (o : Order) : (noted s o).pwr = s.pwr := rfl
@[simp] theorem noted_vals (s : State) (o : Order) : (noted s o).reg.vals = s.reg.vals := rfl
@[simp] theorem noted_routeAct (s : State) (o : Order) : (noted s o).reg.routeAct = s.reg.routeAct := rfl
@[simp] theorem regFld_noted (s : State) (x : Order) (b : Blk) (o lo w : Nat) :
    regFld (noted s x) b o lo w = regFld s b o lo w := rfl
@[simp] theorem getInst_noted (s : State) (x : Order) (n : Nat) : getInst (noted s x) n = getInst s n := rfl
@[simp] theorem getRing_noted (s : State) (x : Order) (n j : Nat) : getRing (noted s x) n j = getRing s n j := rfl

/-- The first order of a cycle contradicts none. -/
theorem not_contradicts_of_first {s : State} (h : FirstOrder s) {x r : Order} (hx : x.at_ = s.now)
    (hr : r ∈ s.reg.orders) : contradicts x r = false := by
  have hne : (x.at_ == r.at_) = false := by rw [hx]; exact beq_false_of_ne (Ne.symm (h r hr))
  simp [contradicts, hne]

/-- An order on no bits contradicts none. -/
theorem not_contradicts_of_mask_zero (x r : Order) : contradicts { x with mask := 0 } r = false := by simp [contradicts]

/-- An order that contradicts none is noted, and nothing else changes. -/
theorem contend_of_no_rival {s : State} {x : Order} (h : ∀ r ∈ s.reg.orders, contradicts x r = false) :
    (contend s x).1 = noted s x := by
  have hnone : (s.reg.orders.filter fun r => r.at_ == s.now).filter (contradicts x) = [] :=
    List.filter_eq_nil_iff.2 fun r hr => by simp [h r (List.mem_filter.1 hr).1]
  simp [contend, hnone, noted]

/-- The first order of a cycle loses no bits. -/
theorem bitsLost_of_first {s : State} (h : FirstOrder s) {x : Order} (hx : x.at_ = s.now) : bitsLost s x = 0 := by
  have hnone : (s.reg.orders.filter fun r => contradicts x r && beats r x) = [] :=
    List.filter_eq_nil_iff.2 fun r hr => by simp [not_contradicts_of_first h hx hr]
  simp [bitsLost, hnone]

/-- The first order of a cycle keeps all its bits. -/
theorem contendBits_of_first {s : State} (h : FirstOrder s) {x : Order} (hx : x.at_ = s.now) :
    contendBits s x = (noted s x, x.mask) := by
  simp [contendBits, bitsLost_of_first h hx, contend_of_no_rival fun r hr => not_contradicts_of_first h hx hr]

/-- An order that has lost all its bits keeps none, and sets its master's CONFLICT (R373). -/
theorem contendBits_of_all_lost {s : State} {x : Order} (h : bitsLost s x = x.mask) (h0 : x.mask ≠ 0) :
    contendBits s x =
      (noted (setInst s x.inst { getInst s x.inst with conflict := true }) { x with mask := 0 }, 0) := by
  simp [contendBits, h, h0, contend_of_no_rival fun r _ => not_contradicts_of_mask_zero x r]

/-- The first write of a cycle takes effect as it stands. -/
theorem viewTo_of_first {s : State} (h : FirstOrder s) (by_ : Requester) (b : Blk) (o mask : Nat) (view : View)
    (old v : Nat) (c : Bool) (f : State → Nat → State) :
    ∃ x, viewTo s by_ b o mask view old v c f = f (noted s x) v := by
  rw [viewTo, contendBits_of_first h rfl]
  exact ⟨_, if_pos rfl⟩

/-- The first write of a cycle to a page takes effect as it stands. -/
theorem pageTo_of_first {s : State} (h : FirstOrder s) (by_ inst : Inst) (off mask old v : Nat) (f : State → Nat → State) :
    ∃ x, pageTo s by_ inst off mask old v f = f (noted s x) v := by
  rw [pageTo, contendBits_of_first h rfl]
  exact ⟨_, if_pos rfl⟩

/-- A write in the base view that has lost every bit stores nothing and sets its master's CONFLICT. -/
theorem viewTo_base_of_all_lost {s : State} {by_ : Requester} {b : Blk} {o mask v : Nat} {c : Bool}
    (h : bitsLost s (bitOrder s by_ b o mask (v &&& mask) c) = mask) (h0 : mask ≠ 0) (old : Nat) (hv : v < 2 ^ 64)
    (f : State → Nat → State) :
    ∃ x, viewTo s by_ b o mask .base old v c f =
      noted (setInst s (reqInst s by_) { getInst s (reqInst s by_) with conflict := true }) x := by
  have hb : viewBits .base old v = v := Nat.mod_eq_of_lt hv
  rw [viewTo, if_pos rfl, hb, contendBits_of_all_lost h h0]
  exact ⟨_, (if_neg (Ne.symm h0)).trans (if_pos rfl)⟩

/-! ## Bits and fields of registers (R447 to R449) -/

theorem bits_setBits (v lo w x : Nat) : bits (setBits v lo w x) lo w = x % 2 ^ w := by
  have hlow : v % 2 ^ lo < 2 ^ lo := Nat.mod_lt _ (Nat.two_pow_pos _)
  have hv : v = (2 ^ w * (v / 2 ^ lo / 2 ^ w) + bits v lo w) * 2 ^ lo + v % 2 ^ lo := by
    rw [bits, Nat.div_add_mod, Nat.div_add_mod']
  have hset : setBits v lo w x = (2 ^ w * (v / 2 ^ lo / 2 ^ w) + x % 2 ^ w) * 2 ^ lo + v % 2 ^ lo := by
    rw [setBits]; rw [Nat.add_mul] at hv ⊢; omega
  rw [hset, bits, Nat.mul_comm _ (2 ^ lo), Nat.mul_add_div (Nat.two_pow_pos _), Nat.div_eq_of_lt hlow, Nat.add_zero,
    Nat.mul_add_mod, Nat.mod_mod]

/-- A field within 64 bits reads the same in the word of a number. -/
theorem bits_mod_word {lo w : Nat} (h : lo + w ≤ 64) (v : Nat) : bits (v % 2 ^ 64) lo w = bits v lo w := by
  obtain ⟨k, hk⟩ := Nat.exists_eq_add_of_le h
  rw [bits, hk, Nat.add_assoc, Nat.pow_add, Nat.mod_mul_right_div_self, Nat.mod_mod_of_dvd _ ⟨2 ^ k, Nat.pow_add ..⟩, bits]

@[simp] theorem regAct_setRegAct_same (s : State) (b : Blk) (o : Nat) (v : W64) : regAct (setRegAct s b o v) b o = v :=
  tabGet_tabPut_same _ _ _ _
@[simp] theorem regPend_setRegPend_same (s : State) (b : Blk) (o : Nat) (v : W64) : regPend (setRegPend s b o v) b o = v :=
  tabGet_tabPut_same _ _ _ _
@[simp] theorem regPend_setRegAct (s : State) (b b' : Blk) (o o' : Nat) (v : W64) :
    regPend (setRegAct s b o v) b' o' = regPend s b' o' := rfl
@[simp] theorem regAct_setRegPend (s : State) (b b' : Blk) (o o' : Nat) (v : W64) :
    regAct (setRegPend s b o v) b' o' = regAct s b' o' := rfl

/-- A field set reads as its new value. -/
theorem regFld_setFld_same {lo w : Nat} (h : lo + w ≤ 64) (s : State) (b : Blk) (o v : Nat) :
    regFld (setFld s b o lo w v) b o lo w = v % 2 ^ w := by
  simp only [setFld, regFld, regAct_setRegPend, regAct_setRegAct_same, BitVec.toNat_ofNat]
  rw [bits_mod_word h, bits_setBits]

/-- BLOCK_STAT after one of its sticky bits is set (R444). -/
theorem blockStat_setBlockStat (s : State) (b : Blk) (n : Nat) :
    tabGet 0 (setBlockStat s b n).reg.blockStat (blkBase b) =
      tabGet 0 s.reg.blockStat (blkBase b) ||| BitVec.ofNat 4 (2 ^ n) := tabGet_tabPut_same _ _ _ _

/-- A register whose 64 bits are all of class IMM holds the value written, pending and active (R449). -/
theorem storeReg_all_imm {b : Blk} {o : Nat} {d : RDesc} (hi : atOnce d = BitVec.allOnes 64) (he : atEpoch d = 0)
    (hb : atBoundary d = 0) (s : State) (v : W64) :
    storeReg s b o d v = setRegAct (setRegPend s b o v) b o v := by
  have hall : (regAct s b o &&& ~~~BitVec.allOnes 64) ||| (v &&& BitVec.allOnes 64) = v := by
    rw [BitVec.not_allOnes, BitVec.and_zero, BitVec.zero_or, BitVec.and_allOnes]
  have hne : BitVec.allOnes 64 ≠ 0 := by decide
  simp only [storeReg, notePend, hi, he, hb, hne, hall, true_or, if_true, if_false, regAct_setRegPend]
  exact if_pos (by rw [BitVec.ofNat_eq_ofNat, BitVec.and_zero, BitVec.and_zero])

/-- A register of one RW field of 64 bits takes what the view makes of the value. -/
theorem mergeFlds_whole (view : View) (old v : Nat) (h : old < 2 ^ 64) :
    mergeFlds view old v [⟨0, 64, .rw, .imm, []⟩] (fun _ _ => true) = viewBits view old v := by
  have hx : viewBits view old v < 2 ^ 64 := by cases view <;> exact BitVec.isLt _
  have hbits (x : Nat) (hx : x < 2 ^ 64) : bits x 0 64 = x := by rw [bits, Nat.pow_zero, Nat.div_one, Nat.mod_eq_of_lt hx]
  simpa [mergeFlds, stored, fldOk, setBits, hbits _ hx, hbits _ h] using hx

/-! ## Writes of BAR0 (R446, R453, R454) -/

/-- An order of a requester that is there and may make it is carried out (R454). -/
theorem orderTo_of_may {s : State} {by_ : Requester} {b : Blk} (hu : reqUp s by_ = true) (hm : mayWrite s by_ b = true)
    (f : State → State) : orderTo s by_ b f = f s := by simp [orderTo, hu, hm]

/-- An order of a requester that may not make it sets DENIED (R454). -/
theorem orderTo_of_denied {s : State} {by_ : Requester} {b : Blk} (hu : reqUp s by_ = true)
    (hm : mayWrite s by_ b = false) (f : State → State) : orderTo s by_ b f = setBlockStat s b 3 := by
  simp [orderTo, hu, hm]

section
variable {s : State} {by_ : Requester} {b : Blk} {off : Nat} (hb : blkOf off = some b)
include hb

/-- A write to a block that its writer may not write sets DENIED. -/
theorem writeBar0_denied (hu : reqUp s by_ = true) (hm : mayWrite s by_ b = false) (size : Nat) (v : W64) :
    writeBar0 s by_ off size v = setBlockStat s b 3 := by
  simp only [writeBar0, hb, orderTo_of_denied hu hm]

variable (hu : reqUp s by_ = true) (hm : mayWrite s by_ b = true)
include hu hm

/-- A write of a size that is not 4 or 8 sets SIZE_ERR. -/
theorem writeBar0_narrow {size : Nat} (h4 : size ≠ 4) (h8 : size ≠ 8) (v : W64) :
    writeBar0 s by_ off size v = setBlockStat s b 2 := by
  simp only [writeBar0, hb, orderTo_of_may hu hm, h4, h8, false_and, if_false]

/-- An 8-byte write of a 64-bit register is one write of it. -/
theorem writeBar0_wide (h8 : off % 8 = 0) (hw : isWide b (blkReg b off) = true) (v : W64) :
    writeBar0 s by_ off 8 v = writeReg s by_ b (blkReg b off) (viewOf off) v.toNat := by
  simp [writeBar0, hb, orderTo_of_may hu hm, h8, hw]

/-- A 4-byte write is one of the register it reaches, or of a half of it. -/
theorem writeBar0_half (h4 : off % 4 = 0) (v : W32) : writeBar0 s by_ off 4 (v.setWidth 64) = write4 s by_ b off v := by
  simp [writeBar0, hb, orderTo_of_may hu hm, h4]

end

/-- A write of a low half of a 64-bit register is held. -/
theorem write4_low {b : Blk} {off o : Nat} (ho : blkReg b off = o) (h8 : o % 8 = 0) (hw : isWide b o = true)
    (s : State) (by_ : Requester) (v : W32) : write4 s by_ b off v = holdLow s by_ b o (viewOf off) v := by
  have hlo : o / 8 * 8 = o := by omega
  simp [write4, ho, hlo, hw]

/-- A write of a high half of a 64-bit register completes it. -/
theorem write4_high {b : Blk} {off o : Nat} (ho : blkReg b off = o + 4) (h8 : o % 8 = 0) (hw : isWide b o = true)
    (s : State) (by_ : Requester) (v : W32) : write4 s by_ b off v = writeHigh s by_ b o (viewOf off) v := by
  have hlo : (o + 4) / 8 * 8 = o := by omega
  simp [write4, ho, hlo, hw]

/-- A high half joins the low half that is held for the same register and view. -/
theorem writeHigh_of_held {s : State} {by_ : Requester} {b : Blk} {o : Nat} {view : View} {l : Latch}
    (hl : latchOf s by_ b true = some l) (ho : l.reg = o) (hv : l.view = view) (v : W32) :
    writeHigh s by_ b o view v = writeReg (dropLatch s by_ b) by_ b o view (v ++ l.value : W64).toNat := by
  simp [writeHigh, hl, ho, hv]

/-! ## Latches (R146, R452, R453) -/

theorem firstOf_eq_find? {α : Type} (p : α → Bool) (l : List α) : firstOf p l = l.find? p := by
  induction l with
  | nil => rfl
  | cons x r ih => rw [firstOf, List.find?_cons, ih]; cases p x <;> rfl

/-- A latch just set is its requester's in the block. -/
theorem latchOf_putLatch {s : State} {l : Latch} {by_ : Requester} {b : Blk} {write : Bool} (hr : l.req = by_)
    (hb : l.block = blkBase b) (hw : l.write = write) (ht : l.at_ = s.now) :
    latchOf (putLatch s l) by_ b write = some l := by
  subst hr hw
  have hsub : ∃ t, (putLatch s l).reg.latches = t ++ [l] ∧ ∀ x ∈ t, (x.req == l.req && x.block == blkBase b) = false := by
    refine ⟨_, rfl, fun x hx => ?_⟩
    have hx' : x ∈ s.reg.latches.filter fun x => !(x.req == l.req && x.block == l.block) := by
      split at hx
      · exact hx
      · split at hx
        · exact (List.mem_filter.1 hx).1
        · exact hx
    simpa only [hb, Bool.not_eq_true'] using (List.mem_filter.1 hx').2
  obtain ⟨t, ht', hnot⟩ := hsub
  have hnone : t.find? (fun x => x.req == l.req && x.block == blkBase b && x.write == l.write &&
      decide ((putLatch s l).now ≤ x.at_ + 40000)) = none :=
    List.find?_eq_none.2 fun x hx => by simp [hnot x hx]
  have hl : (putLatch s l).now ≤ l.at_ + 40000 := ht ▸ Nat.le_add_right _ _
  rw [latchOf, firstOf_eq_find?, ht', List.find?_append, hnone]
  simp [hb, hl]

/-! ## Reads of BAR0 (R146, R446, R452) -/

theorem readSpan_zero (word : State → Nat → State × W32) (pair : State → Nat → Option W64) (fuel : Nat) (s : State)
    (off : Nat) : readSpan word pair fuel s off 0 = (s, []) := by cases fuel <;> simp [readSpan]

/-- An aligned read of 8 bytes where both halves are of one instant. -/
theorem readSpan_pair {word : State → Nat → State × W32} {pair : State → Nat → Option W64} {s : State} {off : Nat}
    {v : W64} (h8 : off % 8 = 0) (hp : pair s off = some v) (fuel : Nat) :
    readSpan word pair (fuel + 1) s off 8 = (s, toBytes v.toNat 8) := by
  simp [readSpan, h8, hp, readSpan_zero]

/-- An aligned read of 4 bytes is one read of a word. -/
theorem readSpan_word {word : State → Nat → State × W32} {pair : State → Nat → Option W64} {s : State} {off : Nat}
    (h4 : off % 4 = 0) (fuel : Nat) :
    readSpan word pair (fuel + 1) s off 4 = ((word s off).1, toBytes (word s off).2.toNat 4) := by
  have ho : off / 4 * 4 = off := by omega
  have hl (x : Nat) : (toBytes x 4).take 4 = toBytes x 4 := rfl
  simp [readSpan, h4, ho, readSpan_zero, hl]

section
variable {s : State} {by_ : Requester} {b : Blk} {off : Nat} (hb : blkOf off = some b) (hm : mayRead s by_ b = true)
include hb hm

/-- A 64-bit register read as a whole gives what its view shows. -/
theorem read64_wide (hw : isWide b (blkReg b off) = true) :
    read64 s by_ off = some (regView s b (blkReg b off) (viewOf off)) := by simp [read64, hb, hm, hw]

theorem read32_low {o : Nat} (ho : blkReg b off = o) (h8 : o % 8 = 0) (hw : isWide b o = true) :
    read32 s by_ off = readLow s by_ b o (viewOf off) := by
  have hlo : o / 8 * 8 = o := by omega
  simp [read32, hb, hm, ho, hlo, hw]

theorem read32_high {o : Nat} (ho : blkReg b off = o + 4) (h8 : o % 8 = 0) (hw : isWide b o = true) :
    read32 s by_ off = readHigh s by_ b o (viewOf off) := by
  have hlo : (o + 4) / 8 * 8 = o := by omega
  simp [read32, hb, hm, ho, hlo, hw]

end

/-- A high half read returns the one latched with its low half. -/
theorem readHigh_of_latched {s : State} {by_ : Requester} {b : Blk} {o : Nat} {view : View} {l : Latch}
    (hl : latchOf s by_ b false = some l) (ho : l.reg = o) (hv : l.view = view) :
    readHigh s by_ b o view = (s, l.value) := by simp [readHigh, hl, ho, hv]

/-- NOW shows NS (R145). -/
theorem regView_now (s : State) : regView s .belfry 0x008 .base = s.time.belfry.ns := by
  have hro : rwMask (roReg true) = 0 := by decide
  simp [regView, regDesc, descBelfry, hro, roVal, roBelfry]

/-! ## Pages of BAR2 (R176) -/

@[simp] theorem getRing_setRing_same (s : State) (n j : Nat) (v : Ring) : getRing (setRing s n j v) n j = v :=
  tabGet_tabPut_same _ _ _ _

/-- The first whole write of a cycle to a 64-bit register of a page. -/
theorem pageWrite64_whole_of_first {s : State} (h : FirstOrder s) (by_ inst : Inst) (off : Nat) (old v : W64) (high : Bool)
    (f : State → W64 → State) : ∃ x, pageWrite64 s by_ inst off old v high true f = f (noted s x) v := by
  obtain ⟨x, hx⟩ := pageTo_of_first h by_ inst off (2 ^ 64 - 1) old.toNat v.toNat fun s v => f s (BitVec.ofNat 64 v)
  exact ⟨x, hx.trans (by rw [BitVec.ofNat_toNat, BitVec.setWidth_eq])⟩

/-- A whole write of a ring's BASE, the first order of its cycle, sets it. -/
theorem writePage_base_of_first {s : State} (h : FirstOrder s) (by_ inst : Inst) (j : Fin 4) (v : W64) :
    ∃ x, writePage s by_ inst (0x40 * j.val) 8 v = setRing (noted s x) inst j { getRing s inst j with base := v } := by
  obtain ⟨x, hx⟩ := pageWrite64_whole_of_first h by_ inst (0x40 * j.val) (getRing s inst j).base v false
    fun s v => setRing s inst j { getRing s inst j with base := v }
  have hlt : 0x40 * j.val < 0x100 := by omega
  exact ⟨x, by simpa [writePage, hlt] using hx⟩

/-! ## The registers SCRATCH of GLOBAL and PEND of ROUTE (R455, R462) -/

/-- What SCRATCH holds after a write of a value through a view (R447). -/
def scratchWritten (s : State) (view : View) (v : W64) : W64 :=
  BitVec.ofNat 64 (viewBits view (regPend s .global 0x020).toNat v.toNat)

/-- SCRATCH set to a value, pending and active. -/
def setScratch (s : State) (v : W64) : State := setRegAct (setRegPend s .global 0x020 v) .global 0x020 v

@[simp] theorem scratchWritten_base (s : State) (v : W64) : scratchWritten s .base v = v := by
  simp [scratchWritten, viewBits]
@[simp] theorem scratchWritten_set (s : State) (v : W64) : scratchWritten s .set v = regPend s .global 0x020 ||| v := by
  simp [scratchWritten, viewBits]
@[simp] theorem scratchWritten_clr (s : State) (v : W64) : scratchWritten s .clr v = regPend s .global 0x020 &&& ~~~v := by
  simp only [scratchWritten, viewBits, BitVec.ofNat_toNat, BitVec.setWidth_eq]
@[simp] theorem scratchWritten_tgl (s : State) (v : W64) : scratchWritten s .tgl v = regPend s .global 0x020 ^^^ v := by
  simp [scratchWritten, viewBits]

/-- A write to SCRATCH stores what the view says. -/
theorem takeWrite_scratch (s : State) (by_ : Requester) (view : View) (v : W64) :
    takeWrite s by_ .global 0x020 view v.toNat = setScratch s (scratchWritten s view v) := by
  have hd : regDesc .global 0x020 = some (rwReg true 0 0 64 .imm) := rfl
  simp only [takeWrite, hd, blkFenced, writeGlobal, plainWrite, locked, lockBit]
  simp only [rwReg, mergeFlds_whole _ _ _ (BitVec.isLt _)]
  exact storeReg_all_imm (by decide) (by decide) (by decide) s _

/-- The first write of a cycle to SCRATCH stores what the view says. -/
theorem writeReg_scratch_of_first {s : State} (h : FirstOrder s) (by_ : Requester) (view : View) (v : W64) :
    ∃ x, writeReg s by_ .global 0x020 view v.toNat = setScratch (noted s x) (scratchWritten s view v) := by
  obtain ⟨x, hx⟩ := viewTo_of_first h by_ .global 0x020 _ view _ v.toNat _ fun s v => takeWrite s by_ .global 0x020 view v
  exact ⟨x, hx.trans (takeWrite_scratch _ _ _ _)⟩

/-- A write to SCRATCH that has lost every bit stores nothing and sets its master's CONFLICT. -/
theorem writeReg_scratch_of_all_lost {s : State} {by_ : Requester} {v : W64}
    (h : bitsLost s (bitOrder s by_ .global 0x020 (2 ^ 64 - 1) v.toNat false) = 2 ^ 64 - 1) :
    ∃ x, writeReg s by_ .global 0x020 .base v.toNat =
      noted (setInst s (reqInst s by_) { getInst s (reqInst s by_) with conflict := true }) x := by
  have hmask : ((regDesc .global 0x020).map writable).getD 0 = 2 ^ 64 - 1 := by decide
  have hv : v.toNat &&& (2 ^ 64 - 1) = v.toNat := by rw [Nat.and_two_pow_sub_one_eq_mod, Nat.mod_eq_of_lt v.isLt]
  rw [writeReg, hmask]
  exact viewTo_base_of_all_lost (by rw [hv]; exact h) (by decide) _ v.isLt _

/-- The pending entry `i` set to a value, as PEND does it (R462). -/
def setPendEntry (s : State) (i : Nat) (v : W64) : State :=
  { s with
    reg.routePend := tabPut s.reg.routePend i v
    reg.routeAt := if v = tabGet 0 s.reg.routePend i then s.reg.routeAt else tabPut s.reg.routeAt i s.now }

@[simp] theorem setFld_routePend (s : State) (b : Blk) (o lo w v : Nat) :
    (setFld s b o lo w v).reg.routePend = s.reg.routePend := rfl
@[simp] theorem setFld_routeAct (s : State) (b : Blk) (o lo w v : Nat) :
    (setFld s b o lo w v).reg.routeAct = s.reg.routeAct := rfl
@[simp] theorem setPendEntry_routeAct (s : State) (i : Nat) (v : W64) : (setPendEntry s i v).reg.routeAct = s.reg.routeAct := rfl
@[simp] theorem regFld_setPendEntry (s : State) (i : Nat) (v : W64) (b : Blk) (o lo w : Nat) :
    regFld (setPendEntry s i v) b o lo w = regFld s b o lo w := rfl
@[simp] theorem pendEntry_setPendEntry (s : State) (i : Nat) (v : W64) :
    tabGet 0#64 (setPendEntry s i v).reg.routePend i = v := tabGet_tabPut_same _ _ _ _

/-- A write to PEND sets the entry at IDX but for bit 15, which is reserved, and advances IDX under INC. -/
theorem takeWrite_pend (s : State) (by_ : Requester) (v : W64) :
    takeWrite s by_ .route 0x010 .base v.toNat =
      if regFld s .route 0x008 16 1 = 1 then
        setFld (setPendEntry s (routeIx s) (v &&& ~~~0x8000)) .route 0x008 0 16 ((routeIx s + 1) % 2 ^ 16)
      else setPendEntry s (routeIx s) (v &&& ~~~0x8000) := by
  have hv (old : Nat) : BitVec.ofNat 64 (viewBits .base old v.toNat) = v := by simp [viewBits]
  have hw : takeWrite s by_ .route 0x010 .base v.toNat =
      writeRoute s 0x010 ⟨true, 0, [⟨0, 15, .rw, .imm, []⟩, ⟨16, 48, .rw, .imm, []⟩]⟩ .base v.toNat := rfl
  rw [hw, writeRoute, if_pos rfl]
  simp only [hv]
  rfl

/-- The first write of a cycle to PEND sets the entry at IDX, but for bit 15, and advances IDX under INC. -/
theorem writeReg_pend_of_first {s : State} (h : FirstOrder s) (by_ : Requester) (v : W64) :
    let s' := writeReg s by_ .route 0x010 .base v.toNat
    tabGet 0 s'.reg.routePend (routeIx s) = v &&& ~~~0x8000 ∧ s'.reg.routeAct = s.reg.routeAct ∧
      regFld s' .route 0x008 0 16 =
        if regFld s .route 0x008 16 1 = 1 then (routeIx s + 1) % 2 ^ 16 else routeIx s := by
  obtain ⟨x, hx⟩ := viewTo_of_first h by_ .route 0x010 _ .base _ v.toNat _ fun s v => takeWrite s by_ .route 0x010 .base v
  have hix : routeIx (noted s x) = routeIx s := rfl
  rw [writeReg, hx, takeWrite_pend, regFld_noted, hix]
  by_cases hinc : regFld s .route 0x008 16 1 = 1
  · simp [hinc, regFld_setFld_same]
  · simp [hinc, routeIx]

/-! ## The commands -/

theorem does_regWrite_bar0 {s t : State} {by_ : Requester} {off : BitVec 26} {size : Nat} {v : W64} {p : State → Prop}
    (hw : writeBar0 s by_ off.toNat size v = t) (hp : p t) : Does (.regWrite by_ (.bar0 off) size v) s p :=
  ⟨t, congrArg Host.Outcome.next hw, hp⟩

theorem does_regWrite_bar2 {s t : State} {n m : Inst} {off : BitVec 16} {size : Nat} {v : W64} {p : State → Prop}
    (hr : reachesPage s n m = true) (hs : pageSize off.toNat size = true) (hw : writePage s n m off.toNat size v = t)
    (hp : p t) : Does (.regWrite (.fn n) (.bar2 m off) size v) s p := by
  refine ⟨t, ?_, hp⟩
  change execRegWrite (.fn n) (.bar2 m off) size v s = .next t
  simp only [execRegWrite, hr, hs, hw, Bool.and_self, if_true]

theorem does_reg64LowRead_bar0 {s t : State} {by_ : Requester} {off : BitVec 26} {size : Nat} {l : List Byte}
    {p : State → Prop} (hu : reqUp s by_ = true)
    (hr : readSpan (fun s o => read32 s by_ o) (fun s o => read64 s by_ o) size s off.toNat size = (t, l))
    (hp : p { t with host.readOut := l }) : Does (.reg64LowRead by_ ⟨.bar0 off, size⟩) s p := by
  refine ⟨_, ?_, hp⟩
  change execReg64LowRead by_ ⟨.bar0 off, size⟩ s = _
  simp only [execReg64LowRead, hu, if_true, hr]

/-- The first 8-byte write of a cycle to SCRATCH, at an offset of its register in a view, stores what the view says. -/
theorem regWrite_scratch_of_first {s : State} {by_ : Requester} (hu : reqUp s by_ = true)
    (hm : mayWrite s by_ .global = true) (h : FirstOrder s) {off : BitVec 26} {view : View}
    (hoff : blkOf off.toNat = some .global ∧ blkReg .global off.toNat = 0x020 ∧ viewOf off.toNat = view ∧ off.toNat % 8 = 0)
    (v : W64) :
    Does (.regWrite by_ (.bar0 off) 8 v) s fun s' =>
      regAct s' .global 0x020 = scratchWritten s view v ∧ regPend s' .global 0x020 = scratchWritten s view v ∧
        s'.mem = s.mem ∧ s'.pwr = s.pwr := by
  obtain ⟨hb, hr, hv, h8⟩ := hoff
  obtain ⟨x, hx⟩ := writeReg_scratch_of_first h by_ view v
  have hw : writeBar0 s by_ off.toNat 8 v = setScratch (noted s x) (scratchWritten s view v) := by
    rw [writeBar0_wide hb hu hm h8 (by rw [hr]; rfl), hr, hv, hx]
  exact does_regWrite_bar0 hw (by simp [setScratch])

/-- An 8-byte write of SCRATCH that has lost every bit stores nothing and sets its master's CONFLICT. -/
theorem regWrite_scratch_of_all_lost {s : State} {by_ : Requester} (hu : reqUp s by_ = true)
    (hm : mayWrite s by_ .global = true) {v : W64}
    (h : bitsLost s (bitOrder s by_ .global 0x020 (2 ^ 64 - 1) v.toNat false) = 2 ^ 64 - 1) :
    Does (.regWrite by_ (.bar0 0x0020) 8 v) s fun s' =>
      s'.reg.vals = s.reg.vals ∧ (getInst s' (reqInst s by_)).conflict = true := by
  obtain ⟨x, hx⟩ := writeReg_scratch_of_all_lost h
  have hw := (writeBar0_wide (off := 0x0020) rfl hu hm rfl rfl v).trans hx
  exact does_regWrite_bar0 hw (by simp)

/-- A write of 2 bytes sets SIZE_ERR and stores nothing. -/
theorem regWrite_narrow {s : State} {by_ : Requester} (hu : reqUp s by_ = true) (hm : mayWrite s by_ .global = true)
    (v : W64) :
    Does (.regWrite by_ (.bar0 0x0020) 2 v) s fun s' =>
      s'.reg.vals = s.reg.vals ∧ (tabGet 0 s'.reg.blockStat (blkBase .global)).getLsbD 2 = true :=
  does_regWrite_bar0 (writeBar0_narrow rfl hu hm (by decide) (by decide) v)
    ⟨rfl, by rw [blockStat_setBlockStat]; simp⟩

/-- A write to a block that its writer may not write sets DENIED and stores nothing. -/
theorem regWrite_denied {s : State} {by_ : Requester} (hu : reqUp s by_ = true) (hm : mayWrite s by_ .global = false)
    (v : W64) :
    Does (.regWrite by_ (.bar0 0x0020) 8 v) s fun s' =>
      s'.reg.vals = s.reg.vals ∧ (tabGet 0 s'.reg.blockStat (blkBase .global)).getLsbD 3 = true :=
  does_regWrite_bar0 (writeBar0_denied rfl hu hm 8 v) ⟨rfl, by rw [blockStat_setBlockStat]; simp⟩

/-- The first 8-byte write of a cycle to a ring's BASE through its page sets it (R176). -/
theorem regWrite_base_of_first {s : State} {n m : Inst} (hp : reachesPage s n m = true) (h : FirstOrder s) (j : Fin 4)
    (v : W64) :
    Does (.regWrite (.fn n) (.bar2 m (BitVec.ofNat 16 (0x40 * j.val))) 8 v) s fun s' =>
      getRing s' m j = { getRing s m j with base := v } := by
  have hoff : (BitVec.ofNat 16 (0x40 * j.val)).toNat = 0x40 * j.val := by rw [BitVec.toNat_ofNat]; omega
  have hsize : pageSize (0x40 * j.val) 8 = true := by
    have h8 : 0x40 * j.val % 8 = 0 := by omega
    simp [pageSize, h8]
  obtain ⟨x, hx⟩ := writePage_base_of_first h n m j v
  exact does_regWrite_bar2 hp (by rw [hoff, hsize]) (by rw [hoff, hx]) (getRing_setRing_same _ _ _ _)

section
variable {s : State} {by_ : Requester} (hu : reqUp s by_ = true) (hm : mayRead s by_ .belfry = true)
include hu hm

/-- An 8-byte read of NOW returns both halves at once (R146). -/
theorem reg64LowRead_now_whole :
    Does (.reg64LowRead by_ ⟨.bar0 0x10008, 8⟩) s fun s' =>
      s'.host.readOut = toBytes s.time.belfry.ns.toNat 8 ∧ s'.reg = s.reg := by
  have hpair : read64 s by_ 0x10008 = some s.time.belfry.ns :=
    (read64_wide (b := .belfry) rfl hm rfl).trans (congrArg some (regView_now s))
  exact does_reg64LowRead_bar0 hu (readSpan_pair rfl hpair 7) ⟨rfl, rfl⟩

/-- A read of the low half of NOW latches its high half, and FRAC with it (R146, R452). -/
theorem reg64LowRead_now_low :
    Does (.reg64LowRead by_ ⟨.bar0 0x10008, 4⟩) s fun s' =>
      s'.host.readOut = toBytes (s.time.belfry.ns.toNat % 2 ^ 32) 4 ∧
        ∃ l, latchOf s' by_ .belfry false = some l ∧ l.reg = 0x008 ∧ l.view = .base ∧
          l.value = s.time.belfry.ns.extractLsb' 32 32 ∧ l.frac = s.time.belfry.frac := by
  have hlow := (read32_low (off := 0x10008) (b := .belfry) rfl hm rfl rfl rfl).trans
    (show readLow s by_ .belfry 0x008 .base = _ by rw [readLow, regView_now])
  refine does_reg64LowRead_bar0 hu (readSpan_word rfl 3) ⟨?_, ?_⟩
  · change toBytes (read32 s by_ 0x10008).2.toNat 4 = _
    rw [hlow, BitVec.toNat_setWidth]
  · change ∃ l, latchOf (read32 s by_ 0x10008).1 by_ .belfry false = some l ∧ _
    rw [hlow]
    exact ⟨_, latchOf_putLatch rfl rfl rfl rfl, rfl, rfl, BitVec.eq_of_toNat_eq (by simp), rfl⟩

/-- A read of the high half of NOW returns the latched one. -/
theorem reg64HighRead_now {l : Latch} (hl : latchOf s by_ .belfry false = some l) (hr : l.reg = 0x008)
    (hv : l.view = .base) :
    Does (.reg64HighRead by_ 0x1000C) s fun s' => s' = { s with host.readOut := toBytes l.value.toNat 4 } := by
  have hhigh : read32 s by_ 0x1000C = (s, l.value) :=
    (read32_high (b := .belfry) (o := 0x008) rfl hm rfl rfl rfl).trans (readHigh_of_latched hl hr hv)
  refine ⟨_, ?_, rfl⟩
  change execReg64HighRead by_ 0x1000C s = _
  rw [execReg64HighRead, if_pos hu]
  change Host.Outcome.next { (read32 s by_ 0x1000C).1 with host.readOut := toBytes (read32 s by_ 0x1000C).2.toNat 4 } = _
  rw [hhigh]

end

section
variable {s : State} {by_ : Requester} (hu : reqUp s by_ = true) (hm : mayWrite s by_ .global = true)
include hu hm

/-- A write of the low half of SCRATCH is held, and stores nothing (R453). -/
theorem reg64LowWrite_scratch (v : W32) :
    Does (.reg64LowWrite by_ 0x0020 v) s fun s' => s'.reg.vals = s.reg.vals ∧
      ∃ l, latchOf s' by_ .global true = some l ∧ l.reg = 0x020 ∧ l.value = v := by
  have hw : writeBar0 s by_ 0x0020 4 (v.setWidth 64) = holdLow s by_ .global 0x020 .base v :=
    (writeBar0_half rfl hu hm rfl v).trans (write4_low rfl rfl rfl s by_ v)
  exact ⟨_, congrArg Host.Outcome.next hw, rfl, _, latchOf_putLatch rfl rfl rfl rfl, rfl, rfl⟩

/-- A write of the high half of SCRATCH, the first order of its cycle, joins the low half held (R453). -/
theorem reg64HighWrite_scratch (h : FirstOrder s) {l : Latch} (hl : latchOf s by_ .global true = some l)
    (hr : l.reg = 0x020) (hv : l.view = .base) (v : W32) :
    Does (.reg64HighWrite by_ 0x0020 v) s fun s' =>
      regAct s' .global 0x020 = v ++ l.value ∧ regPend s' .global 0x020 = v ++ l.value := by
  obtain ⟨x, hx⟩ := writeReg_scratch_of_first (s := dropLatch s by_ .global) h by_ .base (v ++ l.value)
  have hw : writeBar0 s by_ 0x0024 4 (v.setWidth 64) = setScratch (noted (dropLatch s by_ .global) x) (v ++ l.value) := by
    rw [writeBar0_half rfl hu hm rfl v, write4_high (o := 0x020) rfl rfl rfl]
    exact (writeHigh_of_held hl hr hv v).trans (hx.trans (by rw [scratchWritten_base]))
  exact ⟨_, congrArg Host.Outcome.next hw, by simp [setScratch]⟩

end

/-- A held low half of GLOBAL older than 1 µs is dropped, and no other latch (R453). -/
theorem reg64LatchExpiry_global (s : State) (by_ : Requester) :
    Does (.reg64LatchExpiry by_ 0x0020) s fun s' => ∀ l, l ∈ s'.reg.latches ↔
      l ∈ s.reg.latches ∧ ¬(l.req = by_ ∧ l.block = blkBase .global ∧ l.write = true ∧ l.at_ + 40000 < s.now) :=
  ⟨_, rfl, fun l => by
    simp only [List.mem_filter, Bool.not_eq_true', ← Bool.not_eq_true, Bool.and_eq_true, beq_iff_eq, decide_eq_true_eq,
      and_assoc]⟩

/-- The first write of a cycle to PEND sets the entry at IDX and may advance IDX (R462). -/
theorem routePendWrite_of_first {s : State} {by_ : Requester} (h : MayOrder s by_ .route) (v : W64) :
    let i := regFld s .route 0x008 0 16
    Does (.routePendWrite by_ .base v) s fun s' =>
      tabGet 0 s'.reg.routePend i = v &&& ~~~0x8000 ∧ s'.reg.routeAct = s.reg.routeAct ∧
        regFld s' .route 0x008 0 16 = if regFld s .route 0x008 16 1 = 1 then (i + 1) % 2 ^ 16 else i := by
  obtain ⟨hu, hm, hfirst⟩ := h
  exact ⟨_, congrArg Host.Outcome.next (orderTo_of_may hu hm _), writeReg_pend_of_first hfirst by_ v⟩

/-- Settles O58: SCRATCH through each view and with every bit lost, DENIED and SIZE_ERR, a ring's BASE, the latches of NOW
and of SCRATCH, and PEND. -/
theorem registerAccess : Obligations.RegisterAccess := by
  unfold Obligations.RegisterAccess
  refine ⟨fun s by_ v hu => ⟨fun hm => ⟨fun h q hq => ?_, fun h => ?_, ?_⟩, fun hm => ?_⟩, fun s n m j v hp h => ?_,
    fun s by_ hu hm => ⟨?_, ?_, fun l hl hr hv => ?_⟩, fun s by_ v ⟨hu, hm, hfirst⟩ => ⟨?_, fun l hl hr hv => ?_⟩,
    fun s by_ => ?_, fun s by_ v h => ?_⟩
  · simp only [List.mem_cons, List.not_mem_nil, or_false] at hq
    obtain rfl | rfl | rfl | rfl := hq
    · simpa only [scratchWritten_base] using regWrite_scratch_of_first hu hm h (off := 0x0020) (view := .base) (by decide) v
    · simpa only [scratchWritten_set] using regWrite_scratch_of_first hu hm h (off := 0x1020) (view := .set) (by decide) v
    · simpa only [scratchWritten_clr] using regWrite_scratch_of_first hu hm h (off := 0x2020) (view := .clr) (by decide) v
    · simpa only [scratchWritten_tgl] using regWrite_scratch_of_first hu hm h (off := 0x3020) (view := .tgl) (by decide) v
  · exact regWrite_scratch_of_all_lost hu hm h
  · exact regWrite_narrow hu hm v
  · exact regWrite_denied hu hm v
  · exact regWrite_base_of_first hp h j v
  · exact reg64LowRead_now_whole hu hm
  · exact reg64LowRead_now_low hu hm
  · exact reg64HighRead_now hu hm hl hr hv
  · exact reg64LowWrite_scratch hu hm v
  · exact reg64HighWrite_scratch hu hm hfirst hl hr hv v
  · exact reg64LatchExpiry_global s by_
  · exact routePendWrite_of_first h v

end Sys2Proof.Safety
end

section
/-! SUPPORT. Programming of arrays (R65, R76, R77, R127, R128, R141): what a change of one array leaves in its tile, what
the Lantern store leaves of arrays and of the engine, and what each command of programming does. -/

namespace Sys2Proof.Safety

open Sys2Proof Sys2Proof.Machine

/-! ## One array of a tile -/

@[simp] theorem getArr_setArr_same (t : Tile) (a : Nat) (v : Arr) : getArr (setArr t a v) a = v :=
  tabGet_tabPut_same _ _ _ _
@[simp] theorem setArr_pv (t : Tile) (a : Nat) (v : Arr) : (setArr t a v).pv = t.pv := rfl
@[simp] theorem logArr_setArr (t : Tile) (a b : Nat) (v : Arr) : logArr (setArr t a v) b = logArr t b := rfl

@[simp] theorem getTile_setArrOf_same (s : State) (p a : Nat) (v : Arr) :
    getTile (setArrOf s p a v) p = setArr (getTile s p) a v := getTile_setTile_same _ _ _
@[simp] theorem arrOf_setArrOf_same (s : State) (p a : Nat) (v : Arr) : arrOf (setArrOf s p a v) p a = v := by
  rw [arrOf, getTile_setArrOf_same, getArr_setArr_same]
@[simp] theorem setArrOf_now (s : State) (p a : Nat) (v : Arr) : (setArrOf s p a v).now = s.now := rfl

/-- An array as a change of its state at an instant leaves it. -/
def movedArr (x : Arr) (st : ArrState) (now why : Nat) : Arr :=
  { x with st := st, since := now, why := BitVec.ofNat 8 why, calDone := false, job := none }

/-- A change of state makes no record unless it leaves ACTIVE or enters FENCED (R69, R76). -/
theorem moveArr_unrecorded {s : State} {p a : Nat} {st : ArrState} (hx : (arrOf s p a).st ≠ .active) (hst : st ≠ .fenced)
    (why : Nat) (action : Byte) :
    moveArr s p a st why action = setArrOf s p a (movedArr (arrOf s p a) st s.now why) :=
  if_neg (not_or.2 ⟨hx, hst⟩)

section
variable (s : State) (p a : Nat) (st : ArrState) (why : Nat) (action : Byte)

theorem moveArr_tile :
    (moveArr s p a st why action).tile = (setArrOf s p a (movedArr (arrOf s p a) st s.now why)).tile := by
  unfold moveArr
  dsimp only
  split
  · exact (emitArray_frame ..).2.2.2.2.2.2.1
  · rfl

@[simp] theorem moveArr_now : (moveArr s p a st why action).now = s.now := by
  unfold moveArr
  dsimp only
  split <;> simp

@[simp] theorem getTile_moveArr_same :
    getTile (moveArr s p a st why action) p = setArr (getTile s p) a (movedArr (arrOf s p a) st s.now why) :=
  (getTile_of_tile (moveArr_tile s p a st why action) p).trans (getTile_setArrOf_same ..)

@[simp] theorem arrOf_moveArr_same :
    arrOf (moveArr s p a st why action) p a = movedArr (arrOf s p a) st s.now why := by
  rw [arrOf, getTile_moveArr_same, getArr_setArr_same]

end

/-- The job in a tile's program-verify engine set. -/
def setEngine (s : State) (p : Nat) (o : Option Job) : State := setTile s p { getTile s p with pv := o }

@[simp] theorem pv_setEngine (s : State) (p : Nat) (o : Option Job) : (getTile (setEngine s p o) p).pv = o := by
  rw [setEngine, getTile_setTile_same]
@[simp] theorem arrOf_setEngine (s : State) (p : Nat) (o : Option Job) (a : Nat) :
    arrOf (setEngine s p o) p a = arrOf s p a := by
  rw [arrOf, setEngine, getTile_setTile_same]; rfl

/-! ## The arrays and the engine of a tile -/

/-- The arrays of a tile and the job in its program-verify engine. -/
def programOf (t : Tile) : Tab Arr × Option Job := (t.arrs, t.pv)

theorem getArr_of_programOf {t t' : Tile} (h : programOf t' = programOf t) (a : Nat) : getArr t' a = getArr t a := by
  have harrs : t'.arrs = t.arrs := congrArg Prod.fst h
  rw [getArr, harrs, getArr]
theorem pv_of_programOf {t t' : Tile} (h : programOf t' = programOf t) : t'.pv = t.pv := congrArg Prod.snd h

@[simp] theorem programOf_ltnPlace (t : Tile) (e : W64) (ix : Nat) (st : LtnState) :
    programOf (ltnPlace t e ix st) = programOf t := rfl
@[simp] theorem programOf_ltnDrop (t : Tile) (f : LtnSlot → Bool) : programOf (ltnDrop t f) = programOf t := rfl
@[simp] theorem programOf_evictVar (t : Tile) (v : Nat) : programOf (evictVar t v) = programOf t := rfl

@[simp] theorem programOf_evictFor (keep n fuel : Nat) (t : Tile) : programOf (evictFor keep n fuel t) = programOf t := by
  induction fuel generalizing t with
  | zero => rfl
  | succ fuel ih =>
    unfold evictFor
    split
    · rfl
    · split
      · rfl
      · rw [ih, programOf_evictVar]

@[simp] theorem programOf_stageRepair (t : Tile) (e : W64) : programOf (stageRepair t e).1 = programOf t := by
  unfold stageRepair
  dsimp only
  split <;> simp

@[simp] theorem programOf_stageRepairs (es : List W64) (t : Tile) : programOf (stageRepairs es t).1 = programOf t := by
  induction es generalizing t with
  | nil => rfl
  | cons e r ih =>
    have he := programOf_stageRepair t e
    unfold stageRepairs
    split
    next t' h => rw [ih, ← he, h]
    · exact he

theorem programOf_stageClass1 {t t' : Tile} {es : List (Nat × W64)} (h : stageClass1 t es = some t') :
    programOf t' = programOf t := by
  obtain ⟨_, ht⟩ := Option.ite_none_right_eq_some.1 h
  rw [← Option.some.inj ht]
  exact List.foldlRecOn (motive := fun t' => programOf t' = programOf t) es _ rfl fun _ h _ _ => h

/-- What a verified array stages in the Lantern leaves the tile's arrays and its engine alone. -/
theorem programOf_stageVerified (s : State) (p l : Nat) (j : Job) (ws : List Wt) (f : List FailedPair) :
    programOf (stageVerified s p l j ws f).1 = programOf (getTile s p) := by
  have hstart : programOf (if j.touchup then dropRepairs (getTile s p) l else dropStaged (getTile s p) l) =
      programOf (getTile s p) := by split <;> exact programOf_ltnDrop _ _
  have hrepairs := (programOf_stageRepairs (repairsOf l ws f) _).trans hstart
  unfold stageVerified
  dsimp only
  split
  next h => rw [← hrepairs, h]
  next h =>
    rw [h] at hrepairs
    split
    next hc => exact (programOf_stageClass1 hc).trans hrepairs
    · exact hrepairs

/-! ## The write port -/

@[simp] theorem getTile_arbCount (s : State) (k : Nat) (reserved : Bool) (p : Nat) :
    getTile (arbCount s k reserved) p = getTile s p := rfl

@[simp] theorem programOf_raiseLoads (s : State) (p n : Nat) :
    programOf (getTile (raiseLoads s p n) p) = programOf (getTile s p) := by
  rw [raiseLoads, getTile_setTile_same]; rfl

@[simp] theorem programOf_portGrant (s : State) (p : Nat) :
    programOf (getTile (portGrant s p) p) = programOf (getTile s p) := by
  unfold portGrant
  dsimp only
  split
  · rfl
  · split
    · rfl
    · split
      · rfl
      · rw [getTile_arbCount, getTile_setTile_same]; rfl

@[simp] theorem programOf_portGrants (p fuel : Nat) (s : State) :
    programOf (getTile (portGrants p fuel s) p) = programOf (getTile s p) := by
  induction fuel generalizing s with
  | zero => rfl
  | succ fuel ih => rw [portGrants, ih, programOf_portGrant]

@[simp] theorem programOf_servePort (s : State) (p : Nat) :
    programOf (getTile (servePort s p) p) = programOf (getTile s p) := by
  unfold servePort
  split
  · rfl
  · simp

@[simp] theorem programOf_portWrite (s : State) (p : Nat) (u : PortUser) (n : Nat) :
    programOf (getTile (portWrite s p u n) p) = programOf (getTile s p) := by
  unfold portWrite
  split
  · rfl
  · rw [getTile_setTile_same]
    exact programOf_servePort s p

@[simp] theorem programOf_portVerified (s : State) (p l repairs class1 : Nat) :
    programOf (getTile (portVerified s p l repairs class1) p) = programOf (getTile s p) := by
  rw [portVerified, programOf_portWrite, programOf_portWrite]

@[simp] theorem emitBreach_tile (s : State) (p n : Nat) : (emitBreach s p n).tile = s.tile := by
  unfold emitBreach
  split
  · exact (emit_frame ..).2.2.2.2.2.2.1
  · rfl

/-! ## Failed pairs (R55, R76) -/

theorem failPair_content (x : Arr) (f : FailedPair) : ∃ c k, failPair x f = { x with cells := c, checks := k } := by
  unfold failPair
  dsimp only
  split <;> exact ⟨_, _, rfl⟩

/-- Failed pairs change what an array's cells hold, and nothing else of it. -/
theorem foldl_failPair (f : List FailedPair) (x : Arr) :
    ∃ c k, f.foldl failPair x = { x with cells := c, checks := k } := by
  induction f generalizing x with
  | nil => exact ⟨_, _, rfl⟩
  | cons y r ih =>
    obtain ⟨c, k, hy⟩ := failPair_content x y
    rw [List.foldl_cons, hy]
    exact ih _

@[simp] theorem foldl_failPair_st (f : List FailedPair) (x : Arr) : (f.foldl failPair x).st = x.st := by
  obtain ⟨c, k, h⟩ := foldl_failPair f x
  rw [h]
@[simp] theorem foldl_failPair_job (f : List FailedPair) (x : Arr) : (f.foldl failPair x).job = x.job := by
  obtain ⟨c, k, h⟩ := foldl_failPair f x
  rw [h]
@[simp] theorem foldl_failPair_trims (f : List FailedPair) (x : Arr) : (f.foldl failPair x).trims = x.trims := by
  obtain ⟨c, k, h⟩ := foldl_failPair f x
  rw [h]

@[simp] theorem noteIllegal_job (x : Arr) (f : List FailedPair) : (noteIllegal x f).job = x.job := foldl_failPair_job _ x
@[simp] theorem noteIllegal_trims (x : Arr) (f : List FailedPair) : (noteIllegal x f).trims = x.trims :=
  foldl_failPair_trims _ x

/-! ## Entry to WRITING (R76, R128) -/

@[simp] theorem programOf_noteTouched (t : Tile) (j : Job) : programOf (noteTouched t j) = programOf t := by
  unfold noteTouched
  split
  · split <;> rfl
  · rfl

theorem getImage_of_img {s s' : State} (h : s'.img = s.img) (k : Nat) : getImage s' k = getImage s k := by
  rw [getImage, h, getImage]
theorem weightsAt_of_mem {s s' : State} (h : s'.mem = s.mem) (a : Nat) : weightsAt s' a = weightsAt s a := by
  rw [weightsAt, h, weightsAt]

/-- The weights that a job writes are those of its image slot in memory, for the logical tile it serves. -/
theorem jobWts_of_same {s s' : State} (himg : s'.img = s.img) (hmem : s'.mem = s.mem)
    (hmap : s'.tile.tmap = s.tile.tmap) (p : Nat) (j : Job) : jobWts s' p j = jobWts s p j := by
  have hlog : logTile s' p = logTile s p := by simp only [logTile, physTile, hmap]
  simp only [jobWts, imageWts, getImage_of_img himg, weightsAt_of_mem hmem, hlog]

section
variable (s : State) (p : Nat) (j : Job)

/-- The engine takes the job up with the weights as its image holds them now (R25, R76). -/
theorem pv_enterWriting : (getTile (enterWriting s p j) p).pv =
    some { j with age := s.now, wrote := false, target := cellsOf (jobWts s p j) } := by
  unfold enterWriting
  dsimp only
  rw [getTile_setTile_same]
  split <;> split <;> simp

/-- A write that is no erase takes its array to WRITING. -/
theorem arrOf_enterWriting (hk : j.kind ≠ .erase) : (arrOf (enterWriting s p j) p j.phys).st = .writing := by
  unfold enterWriting
  dsimp only
  rw [if_neg (not_and.2 fun h => absurd h hk), arrOf, getTile_setTile_same]
  refine (congrArg Arr.st (getArr_of_programOf (programOf_noteTouched _ j) j.phys)).trans ?_
  split <;> simp [movedArr]

end

/-! ## The commands -/

theorem tileNo_eq (t : TileId) : t.spire.val * 264 + t.tile.val = tileNo t := rfl

/-- A granted job whose array is not worn out is taken up by the engine (R128). -/
theorem execPvGrant_of_picked {s : State} {t : TileId} {j : Job} {n : Nat} {res resW : Bool} {r : ArbReq}
    (hpv : pvPick s (tileNo t) = some (j, n, res)) (hw : writePick s = some (r, resW)) (hr : r.index = tileNo t)
    (hworn : tooWorn (arrOf s (tileNo t) j.phys) j = false) :
    execPvGrant t s = .next (enterWriting
      (takeJob (arbCount (arbCount s (arbPv (tileNo t)) res) arbWrite resW) (tileNo t) j) (tileNo t) j) := by
  simp [execPvGrant, tileNo_eq, hpv, hw, hr, hworn]

theorem pvGrant_enters_writing {s : State} {t : TileId} {j : Job} {n : Nat} {res resW : Bool} {r : ArbReq}
    (hpv : pvPick s (tileNo t) = some (j, n, res)) (hw : writePick s = some (r, resW)) (hr : r.index = tileNo t)
    (hworn : tooWorn (arrOf s (tileNo t) j.phys) j = false) (hk : j.kind ≠ .erase) :
    Does (.pvGrant t) s fun s' =>
      (arrOf s' (tileNo t) j.phys).st = .writing ∧ (getTile s' (tileNo t)).pv =
        some { j with age := s.now, wrote := false, target := cellsOf (jobWts s (tileNo t) j) } := by
  refine ⟨_, execPvGrant_of_picked hpv hw hr hworn, arrOf_enterWriting _ _ _ hk, ?_⟩
  rw [pv_enterWriting, jobWts_of_same (s := s) rfl rfl rfl]
  rfl

/-- An array as the end of WRITING leaves its content (R65, R127). -/
def writtenArr (x : Arr) (target : Tab (BitVec 2)) : Arr :=
  { x with
    cells := target, cycles := x.cycles + 1
    checks := (checkLevels (cellWts target)).foldl (fun m (k, v) => tabPut m k v) [] }

/-- The state with the targets of a job in its array. -/
def writtenIn (s : State) (p : Nat) (j : Job) : State := setArrOf s p j.phys (writtenArr (arrOf s p j.phys) j.target)

/-- The end of WRITING: the array holds the job's targets and is VERIFYING (R65, R127). -/
theorem writingDone_verifies {s : State} {t : TileId} {j : Job} {n : Nat} (hpv : (getTile s (tileNo t)).pv = some j)
    (hwrote : j.wrote = false) (h0 : 0 < n) (h12 : n ≤ 12) (hdue : j.age + writeTime j n ≤ s.now)
    (hst : (arrOf s (tileNo t) j.phys).st = .writing) :
    Does (.writingDone t n) s fun s' =>
      let x' := arrOf s' (tileNo t) j.phys
      x'.st = .verifying ∧ x'.cells = j.target ∧ x'.cycles = (arrOf s (tileNo t) j.phys).cycles + 1 ∧
        (getTile s' (tileNo t)).pv = some { j with wrote := true, age := s.now } ∧ s'.mem = s.mem := by
  have hgo : ¬(j.wrote = true ∨ n = 0 ∨ 12 < n ∨ s.now < j.age + writeTime j n) := by simp [hwrote]; omega
  have hw : arrOf (writtenIn s (tileNo t) j) (tileNo t) j.phys =
      writtenArr (arrOf s (tileNo t) j.phys) j.target := arrOf_setArrOf_same ..
  have hwst : (arrOf (writtenIn s (tileNo t) j) (tileNo t) j.phys).st = .writing := by rw [hw]; exact hst
  have hmove := moveArr_unrecorded (st := .verifying) (by rw [hwst]; decide) (by decide) (jobWhy j) actNone
  have hexec : execWritingDone t n s = .next (setEngine
      (setArrOf (writtenIn s (tileNo t) j) (tileNo t) j.phys
        (movedArr (writtenArr (arrOf s (tileNo t) j.phys) j.target) .verifying s.now (jobWhy j)))
      (tileNo t) (some { j with wrote := true, age := s.now })) := by
    simp only [execWritingDone, tileNo_eq, hpv, if_neg hgo]
    exact congrArg (fun u => Host.Outcome.next (setEngine u (tileNo t) (some { j with wrote := true, age := u.now })))
      ((if_pos hwst).trans (hmove.trans (by rw [hw]; rfl)))
  refine ⟨_, hexec, ?_⟩
  simp only [arrOf_setEngine, pv_setEngine, arrOf_setArrOf_same]
  exact ⟨rfl, rfl, rfl, trivial, rfl⟩

section
variable (s : State) (p : Nat) (j : Job) (clean : Bool)

/-- An erasure or a retest leaves the engine as it was (R76, R77). -/
theorem pv_eraseDone : (getTile (eraseDone s p j clean) p).pv = (getTile s p).pv := by
  unfold eraseDone
  dsimp only
  split <;> split <;> simp

/-- A clean erasure or retest leaves its array a spare, any other leaves it FENCED (R76, R77). -/
theorem arrOf_eraseDone (h : (arrOf s p j.phys).st ≠ .fenced) :
    (arrOf (eraseDone s p j clean) p j.phys).st = if clean then .spare else .fenced := by
  have hsame (l : List Nat) : arrOf (if j.kind = .erase then setTile s p { getTile s p with erased := l } else s) p j.phys =
      arrOf s p j.phys := by
    split
    · rw [arrOf, getTile_setTile_same]; rfl
    · rfl
  unfold eraseDone
  dsimp only
  rw [if_neg (by rw [hsame]; exact h), arrOf_moveArr_same]
  rfl

/-- What verification notes first: the engine is free, and the array keeps its failed pairs and its check mask (R66, R76). -/
def notedVerify (f : List FailedPair) : State :=
  setArrOf (setEngine s p none) p j.phys
    { f.foldl failPair (arrOf (setEngine s p none) p j.phys) with
      failed := f, failedCount := f.length, mask := checkMask (cellWts j.target) f }

theorem pv_notedVerify (f : List FailedPair) : (getTile (notedVerify s p j f) p).pv = none := by simp [notedVerify]

theorem arrOf_notedVerify (f : List FailedPair) : arrOf (notedVerify s p j f) p j.phys =
    { f.foldl failPair (arrOf s p j.phys) with
      failed := f, failedCount := f.length, mask := checkMask (cellWts j.target) f } := by
  rw [notedVerify, arrOf_setArrOf_same, arrOf_setEngine]

end

section
variable {s : State} {t : TileId} {j : Job} (hpv : (getTile s (tileNo t)).pv = some j) (hwrote : j.wrote = true)
  (hdue : j.age + 1600000 ≤ s.now)
include hwrote hdue

/-- Verification is over 40 µs after WRITING (R76). -/
theorem verify_due : ¬(j.wrote = false ∨ s.now < j.age + 1600000) := by simp [hwrote]; omega

include hpv

/-- Verification of an array that no image uses ends its retest (R76). -/
theorem verifyingDone_retests (hl : j.logical = none) (hst : (arrOf s (tileNo t) j.phys).st ≠ .fenced)
    (f : List FailedPair) :
    Does (.verifyingDone t f) s fun s' =>
      (arrOf s' (tileNo t) j.phys).st = (if f = [] then .spare else .fenced) ∧ (getTile s' (tileNo t)).pv = none := by
  have hexec : execVerifyingDone t f s =
      .next (eraseDone (notedVerify s (tileNo t) j f) (tileNo t) j f.isEmpty) := by
    simp only [execVerifyingDone, tileNo_eq, hpv, if_neg (verify_due hwrote hdue), hl]
    rfl
  refine ⟨_, hexec, ?_, (pv_eraseDone ..).trans (pv_notedVerify ..)⟩
  rw [arrOf_eraseDone _ _ _ _ (by simpa [arrOf_notedVerify] using hst)]
  simp only [List.isEmpty_iff]

/-- Verification of an array that an image uses, whose repairs the Lantern takes: CALIBRATING, with its failed pairs
(R66, R76, R104). -/
theorem verifyingDone_calibrates {l : Nat} (hl : j.logical = some l) {f : List FailedPair} (hf : f.length ≤ 32)
    (hstaged : (stageVerified (notedVerify s (tileNo t) j f) (tileNo t) l j (cellWts j.target) f).2 = true) :
    Does (.verifyingDone t f) s fun s' =>
      (arrOf s' (tileNo t) j.phys).st = .calibrating ∧ (arrOf s' (tileNo t) j.phys).failed = f ∧
        (getTile s' (tileNo t)).pv = none := by
  obtain ⟨tl, htl⟩ : ∃ tl,
      stageVerified (notedVerify s (tileNo t) j f) (tileNo t) l j (cellWts j.target) f = (tl, true) :=
    ⟨_, Prod.ext rfl hstaged⟩
  have hkeep : programOf tl = programOf (getTile (notedVerify s (tileNo t) j f) (tileNo t)) := by
    rw [← programOf_stageVerified, htl]
  obtain ⟨u, hu, hexec⟩ : ∃ u, programOf (getTile u (tileNo t)) = programOf tl ∧ execVerifyingDone t f s =
      .next (setArrOf (moveArr u (tileNo t) j.phys .calibrating (jobWhy j) actNone) (tileNo t) j.phys
        { arrOf (moveArr u (tileNo t) j.phys .calibrating (jobWhy j) actNone) (tileNo t) j.phys with
          job := some { j with wrote := false } }) := by
    simp only [execVerifyingDone, tileNo_eq, hpv, if_neg (verify_due hwrote hdue), hl, if_neg (Nat.not_lt.2 hf)]
    split
    next h => cases h.symm.trans htl
    next h =>
      obtain rfl : _ = tl := congrArg Prod.fst (h.symm.trans htl)
      refine ⟨_, ?_, rfl⟩
      split
      · rw [programOf_portVerified, getTile_setTile_same]
      · rw [getTile_of_tile (emitBreach_tile ..), programOf_portVerified, getTile_setTile_same]
  have hprog := hu.trans hkeep
  refine ⟨_, hexec, ?_, ?_, ?_⟩
  · rw [arrOf_setArrOf_same, arrOf_moveArr_same]; rfl
  · rw [arrOf_setArrOf_same, arrOf_moveArr_same, arrOf, getArr_of_programOf hprog]
    exact congrArg Arr.failed (arrOf_notedVerify s (tileNo t) j f)
  · rw [getTile_setArrOf_same, setArr_pv, getTile_moveArr_same, setArr_pv, pv_of_programOf hprog, pv_notedVerify]

end

/-- An array of no logical array, with no job of its own, belongs to no job (R76). -/
theorem calJob_eq_none {s : State} {p a : Nat} (hjob : (arrOf s p a).job = none) (hlog : logArr (getTile s p) a = none) :
    calJob s p a = none := by
  unfold calJob
  dsimp only
  rw [arrOf] at hjob
  rw [hjob, hlog]

/-- Nothing follows from the calibration of an array of no job and no logical array (R76). -/
theorem calibrated_eq_self {s : State} {p a : Nat} (hjob : (arrOf s p a).job = none)
    (hlog : logArr (getTile s p) a = none) : calibrated s p a = s := by
  unfold calibrated
  dsimp only
  rw [arrOf] at hjob
  rw [hjob, hlog]

/-- The trims that a calibration measured. -/
def trimsOf (r : CalResult) : Tab (W16 × W16) := r.trims.foldl (fun m y => tabPut m y.col.val (y.gain, y.offset)) []

/-- An array with the trims measured and the illegal pairs found noted (R55, R76). -/
def measuredArr (x : Arr) (r : CalResult) : Arr := noteIllegal { x with trims := trimsOf r, newTrims := none } r.illegal

theorem foldl_trims (r : CalResult) :
    r.trims.foldl (fun m y => tabPut m y.col.val (y.gain, y.offset)) ([] : Tab (W16 × W16)) = trimsOf r := rfl
theorem noteIllegal_measured (x : Arr) (r : CalResult) :
    noteIllegal { x with trims := trimsOf r, newTrims := none } r.illegal = measuredArr x r := rfl

@[simp] theorem measuredArr_job (x : Arr) (r : CalResult) : (measuredArr x r).job = x.job := noteIllegal_job _ _
@[simp] theorem measuredArr_trims (x : Arr) (r : CalResult) : (measuredArr x r).trims = trimsOf r :=
  noteIllegal_trims _ _

section
variable {s : State} {t : TileId} {a : Fin 68} (hst : (arrOf s (tileNo t) a).st = .calibrating)
  (hcal : (arrOf s (tileNo t) a).calDone = false) (hjob : (arrOf s (tileNo t) a).job = none)
  (hlog : logArr (getTile s (tileNo t)) a = none) (hpow : tilePowered s (tileNo t) = true)
  (hdue : (arrOf s (tileNo t) a).since + 20000000 ≤ s.now)
  (hjobs : ∀ j ∈ (getTile s (tileNo t)).jobs, j.phys ≠ a.val)

section
include hst hcal hpow hdue hjobs

/-- A calibration that is over is taken up. -/
theorem calDone_due : ¬((arrOf s (tileNo t) a).st ≠ .calibrating ∨ (arrOf s (tileNo t) a).calDone = true ∨
    tilePowered s (tileNo t) = false ∨ s.now < (arrOf s (tileNo t) a).since + 20000000 ∨
      (getTile s (tileNo t)).jobs.any (fun j => j.phys == a.val) = true) := by
  simpa [hst, hcal, hpow, hdue] using hjobs

end

include hjob hlog

/-- With its new content, an array of no job and no logical array still has none. -/
theorem calJob_setArrOf_measured (r : CalResult) :
    calJob (setArrOf s (tileNo t) a (measuredArr (arrOf s (tileNo t) a) r)) (tileNo t) a = none :=
  calJob_eq_none (by simp [hjob]) (by simp [hlog])

include hst hcal hpow hdue hjobs

/-- A calibration of an array of no logical array that finds its trims in range leaves them in force (R55, R76). -/
theorem calDone_holds {r : CalResult} (hself : r.selfTestOk = true)
    (hfew : (measuredArr (arrOf s (tileNo t) a) r).failed.length ≤ 32) (hgain : anyGain 6 (trimsOf r) = false)
    (hoffset : ∀ z ∈ trimsOf r, offsetBeyond z.2.2 = false) (hfar : anyGain 25 (trimsOf r) = false) :
    Does (.calDone t a r) s fun s' =>
      arrOf s' (tileNo t) a = { measuredArr (arrOf s (tileNo t) a) r with calDone := true, touchups := 0 } := by
  have hany : (trimsOf r).any (fun z => offsetBeyond z.2.2) = false := by simpa using hoffset
  have hexec : execCalDone t a r s = .next (calibrated
      (setArrOf (setArrOf s (tileNo t) a (measuredArr (arrOf s (tileNo t) a) r)) (tileNo t) a
        { measuredArr (arrOf s (tileNo t) a) r with calDone := true, touchups := 0 }) (tileNo t) a) := by
    simp only [execCalDone, tileNo_eq, if_neg (calDone_due hst hcal hpow hdue hjobs), foldl_trims, noteIllegal_measured,
      hself, Nat.not_lt.2 hfew, measuredArr_trims, hgain, hfar, hany, calJob_setArrOf_measured hjob hlog]
    rfl
  rw [calibrated_eq_self (by simp [hjob]) (by simp [hlog])] at hexec
  exact ⟨_, hexec, arrOf_setArrOf_same ..⟩

/-- A calibration whose self-test fails fences an array of no logical array (R76). -/
theorem calDone_fences {r : CalResult} (hself : r.selfTestOk = false) :
    Does (.calDone t a r) s fun s' => (arrOf s' (tileNo t) a).st = .fenced := by
  have hexec : execCalDone t a r s = .next (moveArr
      (setArrOf s (tileNo t) a (measuredArr (arrOf s (tileNo t) a) r)) (tileNo t) a .fenced 3 actFenced) := by
    simp only [execCalDone, tileNo_eq, if_neg (calDone_due hst hcal hpow hdue hjobs), foldl_trims, noteIllegal_measured,
      hself, calJob_setArrOf_measured hjob hlog]
    rfl
  exact ⟨_, hexec, congrArg Arr.st (arrOf_moveArr_same ..)⟩

end

/-- An array whose last pass has ended and that serves nothing is a spare (R76). -/
theorem drainingDone_spare {s : State} {t : TileId} {a : Fin 68} (hst : (arrOf s (tileNo t) a).st = .draining)
    (hfl : inFlight (getTile s (tileNo t)) a = false) (hfence : (arrOf s (tileNo t) a).toFence = false)
    (hin : inPlaceOf (getTile s (tileNo t)) a = none) (hlog : logArr (getTile s (tileNo t)) a = none) :
    Does (.drainingDone t a) s fun s' =>
      (arrOf s' (tileNo t) a).st = .spare ∧ (arrOf s' (tileNo t) a).calDone = false := by
  have hexec : execDrainingDone t a s =
      .next (moveArr s (tileNo t) a .spare (arrOf s (tileNo t) a).why.toNat actNone) := by
    simp [execDrainingDone, tileNo_eq, hst, hfl, hfence, hin, hlog]
  exact ⟨_, hexec, congrArg Arr.st (arrOf_moveArr_same ..), congrArg Arr.calDone (arrOf_moveArr_same ..)⟩

/-! ## The end of zeroise (R141, R142) -/

@[simp] theorem emitImage_img (s : State) (action : Byte) (reason event : Nat) (id : W64) :
    (emitImage s action reason event id).img = s.img := by simp [emitImage]
@[simp] theorem emitImage_tile (s : State) (action : Byte) (reason event : Nat) (id : W64) :
    (emitImage s action reason event id).tile = s.tile := by simp [emitImage]
@[simp] theorem emitImage_keep (s : State) (action : Byte) (reason event : Nat) (id : W64) :
    (emitImage s action reason event id).keep = s.keep := by simp [emitImage]
@[simp] theorem emitImage_devFence (s : State) (action : Byte) (reason event : Nat) (id : W64) :
    (emitImage s action reason event id).flt.devFence = s.flt.devFence := by
  unfold emitImage emit
  dsimp only
  split <;> simp

/-- Telling threads that a command of the Keep is done changes threads alone. -/
theorem tellThreads_keeps {β : Type} (π : State → β) (h : ∀ s n v, π (setThr s n v) = π s) (ts : List Tid)
    (s : State) :
    π (tellThreads ts s) = π s :=
  foldl_keeps π _ (fun s t => by
    dsimp only
    split
    · exact h _ _ _
    · rfl) ts s

/-- The device with its erasures forgotten and the fence of zeroise lifted (R141, R375). -/
def unzeroised (s : State) : State :=
  { s with
    img.zeroise := false, img.zeroiseFlag := false, img.zeroiseBy := []
    tile.tiles := tabMap (fun _ t => { t with erased := [] }) s.tile.tiles
    flt.devFenceWhy := s.flt.devFenceWhy % 2, flt.devFence := s.flt.devFenceWhy % 2 != 0 }

theorem erased_unzeroised (s : State) (p : Nat) : (getTile (unzeroised s) p).erased = [] := by
  rw [getTile, unzeroised, tabGet_map _ _ fun _ => rfl]

/-- The device as the end of zeroise leaves it, but for the Keep. -/
def zeroiseEnded (s : State) : State := emitImage (unzeroised (tellThreads s.img.zeroiseBy s)) actNone 0 3 0

theorem zeroiseEnded_keep (s : State) : (zeroiseEnded s).keep = s.keep :=
  (emitImage_keep ..).trans (tellThreads_keeps (·.keep) (fun _ _ _ => rfl) _ s)

/-- The end of zeroise: no array counts as erased, and only a fence after a fault stays. -/
theorem zeroiseEnded_open (s : State) :
    (zeroiseEnded s).img.zeroise = false ∧ (zeroiseEnded s).img.zeroiseFlag = false ∧
      (∀ p, (getTile (zeroiseEnded s) p).erased = []) ∧
      (zeroiseEnded s).flt.devFence = decide (s.flt.devFenceWhy % 2 ≠ 0) := by
  have hflt := tellThreads_keeps (·.flt) (fun _ _ _ => rfl) s.img.zeroiseBy s
  refine ⟨?_, ?_, fun p => ?_, ?_⟩
  · rw [zeroiseEnded, emitImage_img]; rfl
  · rw [zeroiseEnded, emitImage_img]; rfl
  · rw [zeroiseEnded, getTile_of_tile (emitImage_tile ..), erased_unzeroised]
  · rw [zeroiseEnded, emitImage_devFence, unzeroised, hflt]
    exact Bool.eq_iff_iff.2 (by simp)

/-- Zeroise ends once every array has been erased, and so does the Keep's command that began it (R141, R457). -/
theorem zeroiseComplete_ends {s : State} (hz : s.img.zeroise = true) (ha : allErased s = true) :
    Does .zeroiseComplete s fun s' =>
      s'.img.zeroise = false ∧ s'.img.zeroiseFlag = false ∧ (∀ p, (getTile s' p).erased = []) ∧
        s'.flt.devFence = decide (s.flt.devFenceWhy % 2 ≠ 0) ∧
        (s.keep.busy = some .zeroise → s'.keep.busy = none ∧ s'.keep.done = true ∧ s'.keep.result = 0) := by
  have hexec : execZeroiseComplete s = .next
      (if (zeroiseEnded s).keep.busy = some .zeroise then endKeep (zeroiseEnded s) 0 else zeroiseEnded s) :=
    if_pos (by rw [hz, ha]; rfl)
  obtain ⟨hzero, hflag, herased, hfence⟩ := zeroiseEnded_open s
  rw [zeroiseEnded_keep] at hexec
  refine ⟨_, hexec, ?_⟩
  by_cases hb : s.keep.busy = some .zeroise
  · rw [if_pos hb]
    exact ⟨hzero, hflag, herased, hfence, fun _ => ⟨rfl, rfl, rfl⟩⟩
  · rw [if_neg hb]
    exact ⟨hzero, hflag, herased, hfence, fun h => absurd h hb⟩

/-- Settles O48: a granted write, its end, verification with and without a logical array, calibration that passes and one
that fails, the end of draining, and the end of zeroise. -/
theorem programming : Obligations.Programming := by
  unfold Obligations.Programming
  refine ⟨fun s t j n res resW r hpv hw hr hworn hk => ?_, fun s t j n hpv hwrote h0 h12 hdue hst => ?_,
    fun s t j f hpv hwrote hdue => ⟨fun hl hst => ?_, fun l hl hf hstaged => ?_⟩,
    fun s t a r hst hcal hjob hlog hpow hdue hjobs => ⟨fun hself hfew hgain hoffset hfar => ?_, fun hself => ?_⟩,
    fun s t a hst hfl hfence hin hlog => ?_, fun s hz ha => ?_⟩
  · exact pvGrant_enters_writing hpv hw hr hworn hk
  · exact writingDone_verifies hpv hwrote h0 h12 hdue hst
  · exact verifyingDone_retests hpv hwrote hdue hl hst f
  · refine verifyingDone_calibrates hpv hwrote hdue hl hf ?_
    rw [notedVerify, arrOf_setEngine]
    exact hstaged
  · exact calDone_holds hst hcal hjob hlog hpow hdue hjobs hself hfew hgain hoffset hfar
  · exact calDone_fences hst hcal hjob hlog hpow hdue hjobs hself
  · exact drainingDone_spare hst hfl hfence hin hlog
  · exact zeroiseComplete_ends hz ha

end Sys2Proof.Safety
end

section
/-! SUPPORT. Metrology (R72, R138, R422 to R433): what a grant of a converter leaves of its channels, how a channel is
raised and ends, what a result writes, and what drift calibration leaves of a tile. -/

namespace Sys2Proof.Safety

open Sys2Proof Sys2Proof.Machine

/-! ## Channels (R428, R431, R433) -/

theorem chans_grantMet (s : State) (x : Nat) : (grantMet s x).met.chans = s.met.chans := by
  unfold grantMet
  split
  · rfl
  · split <;> rfl

@[simp] theorem getChan_grantMet (s : State) (x k : Nat) : getChan (grantMet s x) k = getChan s k := by
  rw [getChan, chans_grantMet, getChan]

/-- A channel that asks for its next result (R428). -/
def raisedChan (c : Chan) (now : Nat) : Chan := { c with raised := true, age := now, requestedAt := now }

@[simp] theorem getChan_raiseChan_same (s : State) (k : Nat) :
    getChan (raiseChan s k) k = raisedChan (getChan s k) s.now := by
  rw [raiseChan, getChan_grantMet, getChan_setChan_same]; rfl

/-- A channel that has ended. -/
def endedChan (c : Chan) (err : Nat) : Chan :=
  { c with running := false, err := BitVec.ofNat 8 err, raised := false, stopping := false }

/-- The end of a running channel without a counter changes its entry, and which converter a channel holds (R433). -/
theorem endChan_of_running {s : State} {k : Nat} (hr : (getChan s k).running = true)
    (hd : (getChan s k).doneCnt = 0) (err : Nat) :
    ∃ m, endChan s k err = { setChan s k (endedChan (getChan s k) err) with met.mets := m } := by
  have hrun : ¬(!(getChan s k).running) = true := by rw [hr]; decide
  exact ⟨_, (if_neg hrun).trans (if_pos hd)⟩

/-- A running channel without a counter ends, and memory stays as it was (R433). -/
theorem closeChan_of_running {s : State} {k : Nat} (hr : (getChan s k).running = true)
    (hd : (getChan s k).doneCnt = 0) (err : Nat) :
    getChan (closeChan s k err) k = endedChan (getChan s k) err ∧ (closeChan s k err).mem = s.mem := by
  obtain ⟨m, hend⟩ := endChan_of_running hr hd err
  rw [closeChan, getChan_grantMet, grantMet_mem, hend]
  exact ⟨getChan_setChan_same s k _, rfl⟩

/-- A channel that does not run is left as it is by its end. -/
theorem closeChan_of_stopped {s : State} {k : Nat} (hr : (getChan s k).running = false) (err : Nat) :
    getChan (closeChan s k err) k = getChan s k ∧ (closeChan s k err).mem = s.mem := by
  have hend : endChan s k err = s := if_pos (by rw [Bool.not_eq_true']; exact hr)
  rw [closeChan, hend, getChan_grantMet, grantMet_mem]
  exact ⟨rfl, rfl⟩

/-- The end of a channel without a counter leaves its count of results and memory as they were (R433). -/
theorem closeChan_of_uncounted {s : State} {k : Nat} (hd : (getChan s k).doneCnt = 0) (err : Nat) :
    (getChan (closeChan s k err) k).taken = (getChan s k).taken ∧ (closeChan s k err).mem = s.mem := by
  cases hr : (getChan s k).running with
  | true =>
    obtain ⟨hchan, hmem⟩ := closeChan_of_running hr hd err
    rw [hchan]
    exact ⟨rfl, hmem⟩
  | false =>
    obtain ⟨hchan, hmem⟩ := closeChan_of_stopped hr err
    rw [hchan]
    exact ⟨rfl, hmem⟩

/-! ## START and STOP (R422, R433) -/

/-- The address of a channel's descriptor, and the descriptor (R431). -/
def chanAddr (s : State) (c ch : Nat) : Nat := (regAct s (.met c) (0x040 + 16 * ch)).toNat
def chanDesc (s : State) (c ch : Nat) : List Byte := rdBytes s (chanAddr s c ch) 64

section
variable {s : State} {c ch : Nat} (hrun : (getChan s (c * 8 + ch)).running = false)
include hrun

/-- A descriptor out of reach leaves the channel with the error of an access. -/
theorem startChan_of_unreached (h : inInst s 0 (chanAddr s c ch) 64 = false ∨ lineBad s (chanAddr s c ch) = true) :
    getChan (startChan s c ch) (c * 8 + ch) = { err := 2 } := by
  have hbad : (!inInst s 0 (chanAddr s c ch) 64 || lineBad s (chanAddr s c ch)) = true := by
    rcases h with h | h <;> simp [h]
  have hstart : startChan s c ch = setChan s (c * 8 + ch) { err := 2 } :=
    (if_neg (by rw [hrun]; decide)).trans (if_pos hbad)
  rw [hstart, getChan_setChan_same]

variable (hin : inInst s 0 (chanAddr s c ch) 64 = true) (hline : lineBad s (chanAddr s c ch) = false)
include hin hline

/-- A descriptor within reach is read and judged. -/
theorem startChan_of_reached : startChan s c ch =
    if (!chanOk s c (chanDesc s c ch)) = true then setChan (bumpFree s) (c * 8 + ch) { err := 1 }
    else
      let k := c * 8 + ch
      let x := chanOf (chanDesc s c ch)
      let u := setChan (bumpFree s) k x
      let u := if chanProbes k x = true then
          { u with met.senses := tabPut u.met.senses x.input { tabGet ({} : Sense) u.met.senses x.input with probedAt := none } }
        else u
      if domUsable u 46 = true then raiseChan u k else endChan u k 3 := by
  have hok : ¬(!inInst s 0 (chanAddr s c ch) 64 || lineBad s (chanAddr s c ch)) = true := by simp [hin, hline]
  exact (if_neg (by rw [hrun]; decide)).trans (if_neg hok)

/-- A wrong descriptor leaves the channel with the error of a malformed one. -/
theorem startChan_of_malformed (hok : chanOk s c (chanDesc s c ch) = false) :
    getChan (startChan s c ch) (c * 8 + ch) = { err := 1 } := by
  rw [startChan_of_reached hrun hin hline, if_pos (by rw [hok]; rfl), getChan_setChan_same]

/-- A right descriptor makes a channel that runs and has raised its request. -/
theorem startChan_of_right (hok : chanOk s c (chanDesc s c ch) = true) (hdom : domUsable s 46 = true) :
    getChan (startChan s c ch) (c * 8 + ch) = raisedChan (chanOf (chanDesc s c ch)) s.now ∧
      (startChan s c ch).mem = s.mem := by
  obtain ⟨n, hstart⟩ : ∃ n, startChan s c ch = raiseChan
      { setChan (bumpFree s) (c * 8 + ch) (chanOf (chanDesc s c ch)) with met.senses := n } (c * 8 + ch) := by
    rw [startChan_of_reached hrun hin hline, if_neg (by rw [hok]; decide)]
    dsimp only
    split
    · exact ⟨_, if_pos hdom⟩
    · exact ⟨s.met.senses, if_pos hdom⟩
  rw [hstart, getChan_raiseChan_same, raiseChan_mem]
  exact ⟨congrArg (raisedChan · s.now) (getChan_setChan_same (bumpFree s) _ _), rfl⟩

end

section
variable {s : State} {c ch : Nat} (hrun : (getChan s (c * 8 + ch)).running = true)
include hrun

/-- A channel that holds the converter is to end with its result. -/
theorem stopChan_of_holder (h : (getMet s c).holder.any (fun x => x.val == ch) = true) :
    stopChan s c ch = setChan s (c * 8 + ch) { getChan s (c * 8 + ch) with stopping := true } :=
  (if_neg (by rw [hrun]; decide)).trans (if_pos h)

/-- Another running channel ends at once. -/
theorem stopChan_of_not_holder (h : (getMet s c).holder.any (fun x => x.val == ch) = false) :
    stopChan s c ch = closeChan s (c * 8 + ch) 0 :=
  (if_neg (by rw [hrun]; decide)).trans (if_neg (by rw [h]; decide))

end

section
variable {s : State} {by_ : Requester} {c : Fin 5} {ch : Fin 8} (hmay : MayOrder s by_ (.met c))
include hmay

theorem does_channelStart {p : State → Prop} (hp : p (startChan s c ch)) : Does (.channelStart by_ c ch) s p := by
  obtain ⟨hup, hwrite, -⟩ := hmay
  exact ⟨_, congrArg Host.Outcome.next (orderTo_of_may hup hwrite _), hp⟩

theorem does_channelStop {p : State → Prop} (hp : p (stopChan s c ch)) : Does (.channelStop by_ c ch) s p := by
  obtain ⟨hup, hwrite, -⟩ := hmay
  exact ⟨_, congrArg Host.Outcome.next (orderTo_of_may hup hwrite _), hp⟩

end

/-- STOP of the channel that holds its converter (R433). -/
theorem channelStop_of_holder {s : State} {by_ : Requester} {c : Fin 5} {ch : Fin 8} (hmay : MayOrder s by_ (.met c))
    (hrun : (getChan s (c.val * 8 + ch.val)).running = true) (h : (getMet s c).holder = some ch) :
    Does (.channelStop by_ c ch) s fun s' =>
      getChan s' (c.val * 8 + ch.val) = { getChan s (c.val * 8 + ch.val) with stopping := true } := by
  refine does_channelStop hmay ?_
  rw [stopChan_of_holder hrun (by simp [h]), getChan_setChan_same]

/-- STOP of a channel that does not hold its converter, and has no counter (R433). -/
theorem channelStop_of_not_holder {s : State} {by_ : Requester} {c : Fin 5} {ch : Fin 8} (hmay : MayOrder s by_ (.met c))
    (hrun : (getChan s (c.val * 8 + ch.val)).running = true) (h : (getMet s c).holder ≠ some ch)
    (hd : (getChan s (c.val * 8 + ch.val)).doneCnt = 0) :
    Does (.channelStop by_ c ch) s fun s' =>
      (getChan s' (c.val * 8 + ch.val)).running = false ∧ (getChan s' (c.val * 8 + ch.val)).err = 0 := by
  have hno : (getMet s c).holder.any (fun x => x.val == ch.val) = false := by
    cases hh : (getMet s c).holder with
    | none => rfl
    | some x =>
      refine beq_false_of_ne fun hx => h ?_
      rw [hh, Fin.ext hx]
  refine does_channelStop hmay ?_
  rw [stopChan_of_not_holder hrun hno, (closeChan_of_running hrun hd 0).1]
  exact ⟨rfl, rfl⟩

/-- A channel whose interval is over asks again (R431). -/
theorem channelInterval_raises {s : State} {c : Fin 5} {ch : Fin 8}
    (hrun : (getChan s (c.val * 8 + ch.val)).running = true) (hidle : (getChan s (c.val * 8 + ch.val)).raised = false)
    (hdue : (getChan s (c.val * 8 + ch.val)).requestedAt + (getChan s (c.val * 8 + ch.val)).interval * 40000 ≤ s.now) :
    Does (.channelInterval c ch) s fun s' =>
      getChan s' (c.val * 8 + ch.val) = raisedChan (getChan s (c.val * 8 + ch.val)) s.now :=
  ⟨_, if_pos (by simp [hrun, hidle, hdue]), getChan_raiseChan_same s _⟩

/-! ## Results (R432, R433) -/

theorem wrBytes_setMet (s : State) (x : Nat) (v : Met) (i : Inst) (a : Nat) (bs : List Byte) :
    wrBytes (setMet s x v) i a bs = setMet (wrBytes s i a bs) x v := by
  unfold wrBytes
  split
  · rfl
  · split <;> rfl

theorem bumpFree_mem (s : State) : (bumpFree s).mem = s.mem := rfl

/-- What a result writes does not hang on the state of its converter. -/
theorem putResult_setMet (s : State) (x : Nat) (v : Met) (k : Nat) (c : Chan) (code : BitVec 24) (clip : Bool) :
    putResult (setMet s x v) k c code clip = setMet (putResult s k c code clip) x v := by
  have hrd (a n : Nat) : rdNat (setMet s x v) a n = rdNat s a n := rfl
  have hrec : metRecord (setMet s x v) k c code clip = metRecord s k c code clip := rfl
  unfold putResult
  simp only [hrd, hrec, wrNat, wrBytes_setMet]
  split <;> rfl

/-- What follows a result counts it in its channel, and leaves memory alone where the channel has no counter (R433). -/
theorem afterResult_counts {c : Chan} (hd : c.doneCnt = 0) (s : State) (k : Nat) :
    (getChan (afterResult s k c) k).taken = c.taken + 1 ∧ (afterResult s k c).mem = s.mem := by
  have hchan := getChan_setChan_same s k { c with taken := c.taken + 1, raised := false }
  unfold afterResult
  dsimp only
  split
  · obtain ⟨htaken, hmem⟩ := closeChan_of_uncounted (by rw [hchan]; exact hd) 0
    rw [htaken, hmem, hchan]
    exact ⟨rfl, rfl⟩
  · split
    · rw [getChan_raiseChan_same, hchan, raiseChan_mem]
      exact ⟨rfl, rfl⟩
    · rw [getChan_grantMet, hchan, grantMet_mem]
      exact ⟨rfl, rfl⟩

/-- A settled result of an input without tests is put in its ring and counted (R432, R433). -/
theorem metResult_delivers {s : State} {c : Fin 5} {ch : Fin 8} {x : Chan} (hx : getChan s (c.val * 8 + ch.val) = x)
    (hh : (getMet s c).holder = some ch) (hset : (getMet s c).settledAt ≤ s.now)
    (hp : chanProbes (c.val * 8 + ch.val) x = false) (hring : metRingOk s x = true) (hd : x.doneCnt = 0)
    (code : BitVec 24) (clip : Bool) :
    Does (.metResult c code clip) s fun s' =>
      s'.mem = (putResult s (c.val * 8 + ch.val) x code clip).mem ∧
        (getChan s' (c.val * 8 + ch.val)).taken = x.taken + 1 := by
  have hgo : ¬(s.now < (getMet s c).settledAt ∨ (chanProbes (c.val * 8 + ch.val) x &&
      (tabGet ({} : Sense) s.met.senses x.input).probedAt.isNone) = true) := by
    rw [hp]; simp [hset]
  have hexec : execMetResult c code clip s = .next (afterResult
      (bumpFree (putResult (setMet s c { getMet s c with holder := none }) (c.val * 8 + ch.val) x code clip))
      (c.val * 8 + ch.val) x) := by
    have hring' : metRingOk (setMet s c { getMet s c with holder := none }) x = true := hring
    simp only [execMetResult, hh, hx, if_neg hgo, hring', if_true]
  obtain ⟨htaken, hmem⟩ := afterResult_counts hd
    (bumpFree (putResult (setMet s c { getMet s c with holder := none }) (c.val * 8 + ch.val) x code clip))
    (c.val * 8 + ch.val)
  refine ⟨_, hexec, ?_, htaken⟩
  rw [hmem, putResult_setMet, bumpFree_mem, setMet_mem]

/-! ## SENSE tests (R427) -/

/-- What a test of a SENSE input found. -/
def FoundBy (n : Sense) (f : SenseTest) (now : Nat) : Prop :=
  n.open_ = f.open_ ∧ n.short = f.short ∧ n.reversed = f.reversed ∧ n.probedAt = some now

theorem noteSense_finds (s : State) (k : Nat) (f : SenseTest) :
    FoundBy (tabGet {} (noteSense s k f).met.senses k) f s.now := by
  unfold noteSense
  dsimp only
  split
  · rw [(emitPower_frame ..).2.2.2.2.2.2.2.2.2.2.2.2.1, tabGet_tabPut_same]
    exact ⟨rfl, rfl, rfl, rfl⟩
  · rw [tabGet_tabPut_same]
    exact ⟨rfl, rfl, rfl, rfl⟩

/-- A test of a running SENSE channel that is due keeps what it finds. -/
theorem senseProbe_keeps_findings {s : State} {k : Fin 4} (f : SenseTest) (hp : probing s k = true)
    (hdue : ∀ t, (tabGet ({} : Sense) s.met.senses k).probedAt = some t → t + 40000000000 ≤ s.now) :
    Does (.senseProbe k f) s fun s' => FoundBy (tabGet {} s'.met.senses k) f s.now := by
  have hnow : (match (tabGet ({} : Sense) s.met.senses k).probedAt with
      | some t => decide (t + 40000000000 ≤ s.now)
      | none => true) = true := by
    split
    next t ht => exact decide_eq_true (hdue t ht)
    · rfl
  have hfound := noteSense_finds s k f
  by_cases hh : ((getMet (noteSense s k f) 4).holder.any fun h =>
      (getChan (noteSense s k f) (32 + h.val)).input == k.val) = true
  · exact ⟨_, (if_pos (by rw [hp]; exact hnow)).trans (if_pos hh), hfound⟩
  · exact ⟨_, (if_pos (by rw [hp]; exact hnow)).trans (if_neg hh), hfound⟩

/-! ## Drift calibration (R83, R429) -/

/-- The tile of a trim that a field's cycle writes. -/
def trimTile (f : Nat) (w : TrimWrite) : Nat := f / 4 * 264 + f % 4 * 66 + w.tile.val

/-- An array with a trim that waits for the next pass boundary (R83). -/
def retrimmed (x : Arr) (w : TrimWrite) : Arr :=
  { x with newTrims := some (tabPut (x.newTrims.getD x.trims) w.trim.col.val (w.trim.gain, w.trim.offset)) }

theorem writeTrim_eq (f : Nat) (s : State) (w : TrimWrite) :
    writeTrim f s w = setArrOf s (trimTile f w) w.array (retrimmed (arrOf s (trimTile f w) w.array) w) := rfl

theorem mem_tabPut_same {α : Type} (t : Tab α) (n : Nat) (v : α) : (n, v) ∈ tabPut t n v := by
  induction t with
  | nil => exact List.mem_singleton.2 rfl
  | cons x r ih =>
    unfold tabPut
    split
    · exact List.mem_cons_self
    · split
      · exact List.mem_cons_self
      · exact List.mem_cons_of_mem _ ih

/-- A gain written beyond 6 % is a drift beyond 6 % (R72). -/
theorem driftedBeyond_retrimmed {w : TrimWrite} (h : gainBeyond 6 w.trim.gain = true) (x : Arr) :
    driftedBeyond (retrimmed x w) = true :=
  List.any_eq_true.2 ⟨_, mem_tabPut_same _ _ _, h⟩

@[simp] theorem metIdle_now (s : State) (x input filter : Nat) : (metIdle s x input filter).now = s.now := by
  unfold metIdle
  dsimp only
  split <;> rfl
@[simp] theorem metIdle_tile (s : State) (x input filter : Nat) : (metIdle s x input filter).tile = s.tile := by
  unfold metIdle
  dsimp only
  split <;> rfl

/-- Deep recalibration of an ACTIVE array starts: the tile has a rewrite of its logical array (R138). -/
theorem startRecal_of_active {s : State} {p a l : Nat} (hl : logArr (getTile s p) a = some l)
    (hst : (arrOf s p a).st = .active) (hnone : rewriteOf (getTile s p) l = none)
    (hfew : (getTile s p).rewrites.length < 4) (why : Nat) :
    ∃ r, (getTile (startRecal s p a why) p).rewrites = (getTile s p).rewrites ++ [r] ∧
      r.logical = l ∧ r.kind = .recal ∧ r.old = a := by
  have hgo : ¬((arrOf s p a).st ≠ .active ∨ (rewriteOf (getTile s p) l).isSome = true ∨
      4 ≤ (getTile s p).rewrites.length) := by
    simp [hst, hnone]; omega
  unfold startRecal
  simp only [hl, if_neg hgo]
  split
  next x _ =>
    refine ⟨{ logical := l, kind := .recal, newSlot := none, spare := some x, old := a }, ?_, rfl, rfl, rfl⟩
    rw [addJob, getTile_setTile_same, getTile_of_tile (emitArray_frame ..).2.2.2.2.2.2.1, getTile_setTile_same]
  · refine ⟨{ logical := l, kind := .recal, newSlot := none, spare := none, old := a, inPlace := true }, ?_, rfl, rfl, rfl⟩
    rw [getTile_moveArr_same, getTile_setTile_same]
    rfl

@[simp] theorem startRecal_now (s : State) (p a why : Nat) : (startRecal s p a why).now = s.now := by
  unfold startRecal
  dsimp only
  split
  · rfl
  · split
    · rfl
    · split
      · exact (emitArray_frame ..).2.1
      · simp

/-- Without RECAL_EN no trim sends an array to deep recalibration (R130). -/
theorem recalDrifted_of_disabled {f : Nat} {s : State} {w : TrimWrite}
    (h : regFld s (tileBlk (trimTile f w)) 0x00C 4 1 = 0) : recalDrifted f s w = s :=
  if_neg fun hen => by rw [trimTile] at h; rw [h] at hen; exact absurd hen.1 (by decide)

@[simp] theorem recalDrifted_now (f : Nat) (s : State) (w : TrimWrite) : (recalDrifted f s w).now = s.now := by
  unfold recalDrifted
  dsimp only
  split
  · exact startRecal_now ..
  · rfl

/-- The trims of a cycle written, and the arrays that they send to deep recalibration. -/
def driftWritten (f : Nat) (l : List TrimWrite) (s : State) : State :=
  l.foldl (recalDrifted f) (l.foldl (writeTrim f) s)

theorem driftWritten_now (f : Nat) (l : List TrimWrite) (s : State) : (driftWritten f l s).now = s.now :=
  (foldl_keeps (·.now) _ (recalDrifted_now f) l _).trans (foldl_keeps (·.now) (writeTrim f) (fun _ _ => rfl) l s)

theorem driftWritten_mem_of_disabled {f : Nat} {l : List TrimWrite} {s : State}
    (h : ∀ y ∈ l, regFld s (tileBlk (trimTile f y)) 0x00C 4 1 = 0) : (driftWritten f l s).mem = s.mem := by
  have hreg : (l.foldl (writeTrim f) s).reg = s.reg := foldl_keeps (·.reg) (writeTrim f) (fun _ _ => rfl) l s
  have hsame : driftWritten f l s = l.foldl (writeTrim f) s :=
    List.foldlRecOn (motive := fun u => u = l.foldl (writeTrim f) s) l _ rfl fun u hu y hy => by
      rw [hu]
      exact recalDrifted_of_disabled (by rw [regFld_of_reg hreg]; exact h y hy)
  rw [hsame]
  exact foldl_keeps (·.mem) _ (writeTrim_mem f) l s

/-- A gain beyond 6 % sends an ACTIVE array to deep recalibration under RECAL_EN (R72, R138). -/
theorem driftWritten_recalibrates {f : Nat} {s : State} {y : TrimWrite} {a : Nat}
    (hl : logArr (getTile s (trimTile f y)) y.array = some a) (hst : (arrOf s (trimTile f y) y.array).st = .active)
    (hnone : rewriteOf (getTile s (trimTile f y)) a = none) (hfew : (getTile s (trimTile f y)).rewrites.length < 4)
    (hen : regFld s (tileBlk (trimTile f y)) 0x00C 4 1 = 1) (hgain : gainBeyond 6 y.trim.gain = true) :
    ∃ r ∈ (getTile (driftWritten f [y] s) (trimTile f y)).rewrites, r.logical = a ∧ r.kind = .recal ∧ r.old = y.array.val := by
  have htile : getTile (writeTrim f s y) (trimTile f y) =
      setArr (getTile s (trimTile f y)) y.array (retrimmed (arrOf s (trimTile f y) y.array) y) := by
    rw [writeTrim_eq, getTile_setArrOf_same]
  have harr : arrOf (writeTrim f s y) (trimTile f y) y.array = retrimmed (arrOf s (trimTile f y) y.array) y := by
    rw [writeTrim_eq, arrOf_setArrOf_same]
  have hrecal : driftWritten f [y] s = startRecal (writeTrim f s y) (trimTile f y) y.array 6 :=
    if_pos ⟨hen, (congrArg driftedBeyond harr).trans (driftedBeyond_retrimmed hgain _)⟩
  obtain ⟨r, hr, hlog, hkind, hold⟩ := startRecal_of_active (s := writeTrim f s y) (p := trimTile f y) (a := y.array)
    (by rw [htile, logArr_setArr]; exact hl) (by rw [harr]; exact hst) (by rw [htile]; exact hnone)
    (by rw [htile]; exact hfew) 6
  rw [hrecal, hr]
  exact ⟨r, List.mem_append_right _ (List.mem_singleton.2 rfl), hlog, hkind, hold⟩

/-- The end of a field's cycle: its trims are written, and the field is marked (R429). -/
theorem driftCalibration_marks {s : State} (hk : s.keep.running = true) (hdom : domUsable s 46 = true) (f : Fin 16)
    (l : List TrimWrite) :
    Does (.driftCalibration f l) s fun s' =>
      tabGet 0 s'.met.driftAt f = s.now ∧ s'.met.missed.contains f.val = false ∧
        s'.mem = (driftWritten f l s).mem ∧ s'.tile = (driftWritten f l s).tile := by
  refine ⟨_, if_pos (by rw [hk, hdom]; rfl), ?_, ?_, ?_, ?_⟩
  · exact (tabGet_tabPut_same ..).trans ((metIdle_now ..).trans (driftWritten_now f l s))
  · simp
  · exact metIdle_mem ..
  · exact metIdle_tile ..

/-- A field without a cycle within 4 s is noted (R429). -/
theorem driftMissed_notes {s : State} (hk : s.keep.running = true) {f : Fin 16}
    (hnew : s.met.missed.contains f.val = false) (hdue : tabGet 0 s.met.driftAt f + 160000000000 ≤ s.now) :
    Does (.driftMissed f) s fun s' => s'.met.missed = f.val :: s.met.missed :=
  ⟨_, if_pos (by rw [hk, hnew, decide_eq_true hdue]; rfl),
    congrArg MetSt.missed (emitPower_frame ..).2.2.2.2.2.2.2.2.2.2.2.2.1⟩

/-- Settles O57: START and STOP of a channel, its interval and results, SENSE tests, and drift calibration. -/
theorem metrology : Obligations.Metrology := by
  unfold Obligations.Metrology
  refine ⟨fun s by_ c ch hmay => ⟨fun hrun => ⟨fun hin hline hok hdom => ?_, fun hbad => ?_, fun hin hline hok => ?_⟩,
      fun hrun => ⟨fun hh => ?_, fun hh hd => ?_⟩⟩,
    fun s c ch => ⟨fun hrun hidle hdue => ?_, fun code clip hh hset hp hring hd => ?_⟩,
    fun s k f hp hdue => ?_, fun s f l hk => ⟨fun hdom => ?_, fun hnew hdue => ?_⟩⟩
  · exact does_channelStart hmay (startChan_of_right hrun hin hline hok hdom)
  · exact does_channelStart hmay (startChan_of_unreached hrun hbad)
  · exact does_channelStart hmay (startChan_of_malformed hrun hin hline hok)
  · exact channelStop_of_holder hmay hrun hh
  · exact channelStop_of_not_holder hmay hrun hh hd
  · exact channelInterval_raises hrun hidle hdue
  · exact metResult_delivers rfl hh hset hp hring hd code clip
  · exact senseProbe_keeps_findings f hp hdue
  · obtain ⟨s', hexec, hat, hmissed, hmem, htile⟩ := driftCalibration_marks hk hdom f l
    refine ⟨s', hexec, hat, hmissed, fun hoff => hmem.trans (driftWritten_mem_of_disabled hoff), ?_⟩
    rintro y a rfl hl hst hnone hfew hen hgain
    rw [getTile_of_tile htile]
    exact driftWritten_recalibrates hl hst hnone hfew hen hgain
  · exact driftMissed_notes hk hnew hdue

end Sys2Proof.Safety
end

section
/-! SUPPORT. Pass boundaries (R64, R81, R98, R485): what the arbitration of the exact unit leaves of a tile, what the
opening of a boundary leaves of it, and what the admission of a pass makes of its position and its flights. -/

namespace Sys2Proof.Safety

open Sys2Proof Sys2Proof.Machine

/-! ## The exact unit (R113, R114) -/

/-- A tile but for the requests to its exact unit and what the unit does. -/
def exactless (t : Tile) : Tile := { t with exactQ := [], recompQ := [], exactBusy := none, exactNext := 0 }

theorem same_of_exactless {t t' : Tile} (h : exactless t = exactless t') :
    t.boundary = t'.boundary ∧ t.nextB = t'.nextB ∧ t.positions = t'.positions ∧ t.todo = t'.todo ∧ t.flight = t'.flight :=
  ⟨(congrArg Tile.boundary h :), (congrArg Tile.nextB h :), (congrArg Tile.positions h :), (congrArg Tile.todo h :),
    (congrArg Tile.flight h :)⟩

theorem exactless_setTile {s : State} {p : Nat} {v : Tile} (h : exactless v = exactless (getTile s p)) (q : Nat) :
    exactless (getTile (setTile s p v) q) = exactless (getTile s q) := by
  rw [getTile_setTile]
  split
  next hq => rw [hq, h]
  · rfl

theorem exactless_leaveQueue (s : State) (p : Nat) (x : ExactReq) (q : Nat) :
    exactless (getTile (leaveQueue s p x) q) = exactless (getTile s q) :=
  exactless_setTile (by split <;> rfl) q

theorem exactless_rejoinQueue (s : State) (p : Nat) (x : ExactReq) (q : Nat) :
    exactless (getTile (rejoinQueue s p x) q) = exactless (getTile s q) :=
  exactless_setTile (by split <;> rfl) q

theorem exactless_takeExact (s : State) (p from_ : Nat) (x : ExactReq) (reserved : Bool) (q : Nat) :
    exactless (getTile (takeExact s p from_ x reserved) q) = exactless (getTile s q) :=
  exactless_setTile (by rfl) q

@[simp] theorem exactless_grantExact (s : State) (p from_ q : Nat) :
    exactless (getTile (grantExact s p from_) q) = exactless (getTile s q) := by
  unfold grantExact
  dsimp only
  split
  · rfl
  · split
    · rfl
    · split
      · rfl
      · rw [getTile_arbCount, exactless_takeExact, exactless_leaveQueue]

@[simp] theorem exactless_preemptExact (s : State) (p q : Nat) :
    exactless (getTile (preemptExact s p).1 q) = exactless (getTile s q) := by
  unfold preemptExact
  dsimp only
  split
  · rfl
  · split
    · rw [exactless_rejoinQueue]
      exact exactless_setTile (by split <;> rfl) q
    · rfl

@[simp] theorem exactless_kickMates (s : State) (p q : Nat) :
    exactless (getTile (kickMates s p) q) = exactless (getTile s q) := by
  unfold kickMates
  split
  · exact foldl_keeps (fun u => exactless (getTile u q)) _ (fun u x => exactless_grantExact u x u.now q) _ s
  · rfl

@[simp] theorem grantExact_op (s : State) (p from_ : Nat) : (grantExact s p from_).op = s.op := by
  unfold grantExact
  dsimp only
  split
  · rfl
  · split
    · rfl
    · split <;> rfl

@[simp] theorem preemptExact_op (s : State) (p : Nat) : (preemptExact s p).1.op = s.op := by
  unfold preemptExact
  dsimp only
  split
  · rfl
  · split <;> rfl

@[simp] theorem kickMates_op (s : State) (p : Nat) : (kickMates s p).op = s.op := by
  unfold kickMates
  split
  · exact foldl_keeps (·.op) _ (fun u x => grantExact_op u x u.now) _ s
  · rfl

/-- No PASS.X pass raises its request where none waits (R237). -/
theorem raiseExact_of_none_waiting {s : State} {p : Nat} (h : (getTile s p).todo = []) : raiseExact s p = s := by
  simp [raiseExact, h, firstOf]

section
variable {s : State} {p : Nat} (h : (getTile s p).todo = [])
include h

theorem kickExact_of_none_waiting :
    kickExact s p = kickMates (grantExact (preemptExact s p).1 p (preemptExact s p).2) p := by
  rw [kickExact, raiseExact_of_none_waiting h]

/-- With no pass waiting, what may use the exact unit is all that changes in any tile. -/
theorem exactless_kickExact (q : Nat) : exactless (getTile (kickExact s p) q) = exactless (getTile s q) := by
  simp [kickExact_of_none_waiting h]

theorem kickExact_op_of_none_waiting : (kickExact s p).op = s.op := by
  simp [kickExact_of_none_waiting h]

theorem kickExact_mem_of_none_waiting : (kickExact s p).mem = s.mem := by
  simp [kickExact_of_none_waiting h]

end

/-! ## The opening of a boundary (R64, R97) -/

/-- A tile as a boundary opens: retired slots and used positions free, trims in force, one boundary more. -/
def openedTile (t : Tile) : Tile :=
  { freeRetiring t with
    arrs := tabMap (fun _ a => { a with trims := a.newTrims.getD a.trims, newTrims := none }) t.arrs
    boundary := t.boundary + 1
    applied := 0
    fullQ := decide (8 ≤ recomputeLoad t)
    positions := t.positions.filter fun (_, x) => x.uses != 0 || x.held != 0 }

@[simp] theorem openedTile_todo (t : Tile) : (openedTile t).todo = t.todo := rfl
@[simp] theorem openedTile_flight (t : Tile) : (openedTile t).flight = t.flight := rfl
@[simp] theorem openedTile_rewrites (t : Tile) : (openedTile t).rewrites = t.rewrites := rfl

theorem recomputeLoad_openedTile (t : Tile) : recomputeLoad (openedTile t) = recomputeLoad t := rfl

/-- What follows the opening of a boundary: swings, the scan of the passes that wait, and the times (R64, R133). -/
def afterOpening (s : State) (p tb : Nat) : State :=
  let u := doSwings ((unstaged (getTile s p)).foldl (stageStep ((logTile s p).getD 0) p) s) p
  let again := (getTile u p).flight.filter moreRepeats
  let v := again.foldl (fun s f => notePass s p (f.phys.getD 0)) u
  let x : Scan := { st := v, busy := again.map fun f => f.req.array, stuck := [] }
  kickExact (setTimes (if tileOpen v p = true then ((getTile v p).todo.foldl (scanPass p) x).st else v) p tb again) p

/-- The state in which a boundary opens, with no value of class PASS to apply. -/
def opened (s : State) (p : Nat) : State := setTile s p (openedTile (getTile s p))

@[simp] theorem getTile_opened (s : State) (p : Nat) : getTile (opened s p) p = openedTile (getTile s p) :=
  getTile_setTile_same ..

/-- A boundary that is due, with no value to apply and nothing for the write port (R64, R112). -/
theorem execPassBoundary_of_due {s : State} {t : TileId} (hpow : tilePowered s (tileNo t) = true)
    (hdue : (getTile s (tileNo t)).nextB ≤ s.now / 32 * 32) (hfull : (getTile s (tileNo t)).fullQ = false)
    (hport : servePort s (tileNo t) = s) (hpend : s.reg.vals.pend = []) :
    execPassBoundary t s = .next (afterOpening (opened s (tileNo t)) (tileNo t) (s.now / 32 * 32)) := by
  have happly : applyBlock .pass (tileBlk (tileNo t)) s = s := by rw [applyBlock, hpend]; rfl
  have hgo : (tilePowered s (tileNo t) && boundaryDue (getTile s (tileNo t)) (s.now / 32 * 32)) = true := by
    simp [hpow, boundaryDue, hdue, hfull]
  refine (if_pos hgo).trans ?_
  rw [tileNo_eq, happly, hport, afterOpening, getTile_opened]
  rfl

/-- Without a rewrite or a flight, a boundary is the scan of what waits, and the times. -/
theorem afterOpening_of_quiet {s : State} {p : Nat} (hrew : (getTile s p).rewrites = []) (hfl : (getTile s p).flight = [])
    (tb : Nat) :
    afterOpening s p tb = kickExact (setTimes
      (if tileOpen s p = true then ((getTile s p).todo.foldl (scanPass p) ⟨s, [], []⟩).st else s) p tb []) p := by
  have hstage : unstaged (getTile s p) = [] := by rw [unstaged, hrew]; rfl
  have hswing : doSwings s p = s := if_pos (by rw [hrew]; rfl)
  simp [afterOpening, hstage, hswing, hfl]

/-! ## Admission (R81, R86 to R91) -/

/-- Leaving out entries of a table that are not the one read does not change what is read. -/
theorem tabGet_filter_of_kept {α : Type} {d : α} {t : Tab α} {n : Nat} {f : Nat × α → Bool} (h : tabHas t n = true)
    (hf : f (n, tabGet d t n) = true) : tabGet d (t.filter f) n = tabGet d t n ∧ tabHas (t.filter f) n = true := by
  induction t with
  | nil => exact absurd h Bool.false_ne_true
  | cons x r ih =>
    obtain ⟨k, v⟩ := x
    by_cases hk : n = k
    · subst hk
      have hv : tabGet d ((n, v) :: r) n = v := if_pos rfl
      rw [hv] at hf ⊢
      rw [List.filter_cons_of_pos hf]
      exact ⟨if_pos rfl, by simp [tabHas]⟩
    · have hv : tabGet d ((k, v) :: r) n = tabGet d r n := if_neg hk
      rw [hv] at hf ⊢
      have hr : tabHas r n = true := by simpa [tabHas, Ne.symm hk] using h
      obtain ⟨hget, hhas⟩ := ih hr hf
      rw [List.filter_cons]
      split
      · exact ⟨(if_neg hk).trans hget, by simp only [tabHas, List.any_cons] at hhas ⊢; rw [hhas, Bool.or_true]⟩
      · exact ⟨hget, hhas⟩

/-- A pass that is admitted has a position with a use left (R81). -/
theorem position_of_admitted {s : State} {p : Nat} {q : PassReq} {w : PassWork} (hw : passOf s q.op = some w)
    (h : admitTest s p q = .go) :
    tabHas (getTile s p).positions q.pos = true ∧ (tabGet ({} : Position) (getTile s p).positions q.pos).uses ≠ 0 := by
  simp only [admitTest, hw] at h
  split at h
  · cases h
  · split at h
    · cases h
    next hpos => simpa using hpos

/-- The position of a pass that is admitted stays as it is at the opening of a boundary. -/
theorem openedTile_position {t : Tile} {n : Nat} (hhas : tabHas t.positions n = true)
    (huse : (tabGet ({} : Position) t.positions n).uses ≠ 0) :
    tabGet ({} : Position) (openedTile t).positions n = tabGet {} t.positions n ∧
      tabHas (openedTile t).positions n = true :=
  tabGet_filter_of_kept hhas (Bool.or_eq_true_iff.2 (.inl (bne_iff_ne.2 huse)))

theorem overflowIx_of_base {t : Tile} {l v : Nat} (h : v = 0) : overflowIx t l v = [] := if_pos (.inl h)

/-- A pass without a variant that may be admitted before the opening of a boundary may be admitted after it. -/
theorem admitTest_opened {s : State} {p : Nat} {q : PassReq} {w : PassWork} (hw : passOf s q.op = some w)
    (hv : q.variant = 0) (h : admitTest s p q = .go) : admitTest (opened s p) p q = .go := by
  obtain ⟨hhas, huse⟩ := position_of_admitted hw h
  obtain ⟨hget, hhas'⟩ := openedTile_position hhas huse
  have hw' : passOf (opened s p) q.op = some w := hw
  rw [← h]
  simp only [admitTest, hw, hw', getTile_opened, hget, hhas, hhas', overflowIx_of_base hv]
  rfl

theorem servingArr_openedTile (t : Tile) (l : Nat) : servingArr (openedTile t) l = servingArr t l := by
  have harr (a : Nat) : (getArr (openedTile t) a).st = (getArr t a).st := by
    have hmap := tabGet_map ({} : Arr) (fun _ a => { a with trims := a.newTrims.getD a.trims, newTrims := none })
      (fun _ => rfl) t.arrs a
    exact (congrArg Arr.st hmap :)
  simp only [servingArr, show physArr (openedTile t) l = physArr t l from rfl, harr]
  rfl

/-! ## A pass without a variant, on its array -/

/-- No overflow entry is read for a pass without a variant (R105). -/
theorem readOverflow_of_base (s : State) (t : Tile) (int2 : Bool) (l : Nat) {v : Nat} (h : v = 0) :
    readOverflow s t int2 l v = ([], none) := by
  simp [readOverflow, overflowIx_of_base h, firstOf]

theorem rereadOverflow_of_base (s : State) (p : Nat) {q : PassReq} (h : q.variant = 0) :
    ∃ l, rereadOverflow s p q = setTile s p { getTile s p with upset := l } := by
  simp only [rereadOverflow, overflowIx_of_base h]
  exact ⟨_, rfl⟩

/-- The flight of a pass without a variant on an array: what it reads of its position, with nothing due yet (R95). -/
theorem newFlight_of_base (s : State) (p : Nat) {q : PassReq} (h : q.variant = 0) (a : Nat) :
    let x : Position := tabGet {} (getTile s p).positions q.pos
    ∃ f, newFlight s p q (some a) = (f, none) ∧ f.req = q ∧ f.phys = some a ∧ f.data = x.data ∧ f.scale = x.scale ∧
      f.due = [] ∧ f.got = 0 := by
  simp only [newFlight, readOverflow_of_base _ _ _ _ h]
  exact ⟨_, rfl, rfl, rfl, rfl, rfl, rfl, rfl⟩

/-- The tile of a pass that is admitted, but for its flight. -/
def admittedTile (t : Tile) (q : PassReq) (w : PassWork) (f : Flight) (keep : Bool) : Tile :=
  let u := takeBlock (usePosition t q.pos keep) q w f.scale
  { u with todo := dropFirst (fun x => x == q) u.todo, applied := u.applied + entryCount u f }

@[simp] theorem getTile_opCounts (s : State) (e a b p : Nat) : getTile (opCounts s e a b) p = getTile s p := rfl

theorem getTile_notePass_same (s : State) (p a : Nat) :
    getTile (notePass s p a) p = setArr (getTile s p) a (arrOf (notePass s p a) p a) := by
  rw [notePass, getTile_setArrOf_same, arrOf_setArrOf_same]

theorem admitPass_of_serving {s : State} {p a : Nat} {q : PassReq} {f : Flight} (w : PassWork) (hv : q.variant = 0)
    (ha : servingArr (getTile s p) q.array = some a) (hf : newFlight s p q (some a) = (f, none)) :
    let keep := sampleNow s p f.slot
    let u := rereadOverflow { bumpFree s with free := s.free + 1 } p q
    let v := notePass (opCounts (setTile u p (admittedTile (getTile u p) q w f keep)) q.op 1 0) p a
    admitPass s p q w = setTile v p { getTile v p with flight := (getTile v p).flight ++ [{ f with sampled := keep }] } := by
  simp only [admitPass, ha, hf, overflowFail, stampVar, hv, if_true]
  rfl

/-- A pass without a variant is admitted on its array: one use of its position fewer, and one flight more. -/
theorem admitPass_on_array {s : State} {p a : Nat} {q : PassReq} {f : Flight} (w : PassWork) (hv : q.variant = 0)
    (ha : servingArr (getTile s p) q.array = some a) (hf : newFlight s p q (some a) = (f, none)) :
    let t := getTile s p
    let t' := getTile (admitPass s p q w) p
    t'.flight = t.flight ++ [{ f with sampled := sampleNow s p f.slot }] ∧
      t'.todo = dropFirst (fun x => x == q) t.todo ∧ t'.boundary = t.boundary ∧
      (tabGet ({} : Position) t'.positions q.pos).uses = (tabGet ({} : Position) t.positions q.pos).uses - 1 := by
  obtain ⟨l, hl⟩ := rereadOverflow_of_base { bumpFree s with free := s.free + 1 } p hv
  dsimp only
  rw [admitPass_of_serving w hv ha hf, getTile_setTile_same, getTile_notePass_same, getTile_opCounts,
    getTile_setTile_same, hl, getTile_setTile_same]
  exact ⟨rfl, rfl, rfl, congrArg Position.uses (tabGet_tabPut_same _ _ _ _)⟩

/-! ## The scan and the times (R64, R83, R485) -/

/-- The one pass that waits is admitted where it may be. -/
theorem scanPass_of_go {s : State} {p : Nat} {q : PassReq} {w : PassWork} (hx : q.exact = false)
    (hload : recomputeLoad (getTile s p) = 0) (hgo : admitTest s p q = .go) (hw : passOf s q.op = some w) :
    (scanPass p ⟨s, [], []⟩ q).st = admitPass s p q w := by
  simp [scanPass, hx, hload, hgo, hw]

/-- The times of a boundary leave the count of boundaries, the positions and what waits. -/
theorem setTimes_keeps (s : State) (p tb : Nat) (again : List Flight) :
    (getTile (setTimes s p tb again) p).boundary = (getTile s p).boundary ∧
      (getTile (setTimes s p tb again) p).positions = (getTile s p).positions ∧
      (getTile (setTimes s p tb again) p).todo = (getTile s p).todo := by
  rw [setTimes, getTile_setTile_same]
  exact ⟨rfl, rfl, rfl⟩

/-- Without a flight or an entry to apply, the next boundary comes after I_T (R64, R98). -/
theorem getTile_setTimes_of_no_flight {s : State} {p : Nat} (hfl : (getTile s p).flight = [])
    (happ : (getTile s p).applied = 0) (tb : Nat) :
    getTile (setTimes s p tb []) p = { getTile s p with nextB := tb + intervalOf s p * 32 } := by
  rw [setTimes, getTile_setTile_same]
  simp [hfl, happ]

/-- A flight that has just been admitted is given one due time, and the trims of its conversions. -/
theorem flight_setTimes {s : State} {p : Nat} {f : Flight} (hfl : (getTile s p).flight = [f])
    (hphys : f.phys.isSome = true) (hdue : f.due = []) (hgot : f.got = 0) (tb : Nat) :
    ∃ d l, (getTile (setTimes s p tb []) p).flight = [{ f with due := [d], trims := l }] ∧ tb + 11200 ≤ d := by
  refine ⟨_, f.trims ++ [(getArr (getTile s p) (f.phys.getD 0)).trims], ?_,
    Nat.add_le_add_left (Nat.le_max_left _ (((getTile s p).applied + 15) / 16 * 32 + 320)) tb⟩
  rw [setTimes, getTile_setTile_same]
  simp [hfl, hphys, hdue, hgot]

/-! ## The command -/

section
variable {s : State} {t : TileId} (hpow : tilePowered s (tileNo t) = true)
  (hdue : (getTile s (tileNo t)).nextB ≤ s.now / 32 * 32) (hrew : (getTile s (tileNo t)).rewrites = [])
  (hfl : (getTile s (tileNo t)).flight = []) (hfull : (getTile s (tileNo t)).fullQ = false)
  (hport : servePort s (tileNo t) = s) (hpend : s.reg.vals.pend = [])
include hpow hdue hrew hfl hfull hport hpend

theorem execPassBoundary_of_quiet :
    execPassBoundary t s = .next (kickExact (setTimes
      (if tileOpen (opened s (tileNo t)) (tileNo t) = true then
        ((getTile s (tileNo t)).todo.foldl (scanPass (tileNo t)) ⟨opened s (tileNo t), [], []⟩).st
      else opened s (tileNo t)) (tileNo t) (s.now / 32 * 32) []) (tileNo t)) := by
  rw [execPassBoundary_of_due hpow hdue hfull hport hpend, afterOpening_of_quiet, getTile_opened, openedTile_todo]
  · rw [getTile_opened, openedTile_rewrites, hrew]
  · rw [getTile_opened, openedTile_flight, hfl]

/-- A boundary with no pass to admit counts itself, frees the positions without a use and sets the next one (R64). -/
theorem passBoundary_of_none_waiting (htodo : (getTile s (tileNo t)).todo = []) :
    Does (.passBoundary t) s fun s' =>
      (getTile s' (tileNo t)).boundary = (getTile s (tileNo t)).boundary + 1 ∧ (getTile s' (tileNo t)).flight = [] ∧
        (getTile s' (tileNo t)).nextB = s.now / 32 * 32 + intervalOf s (tileNo t) * 32 ∧
        (∀ q ∈ (getTile s' (tileNo t)).positions, q.2.uses ≠ 0 ∨ q.2.held ≠ 0) ∧ s'.mem = s.mem ∧
        s'.op.table = s.op.table := by
  have hexec := execPassBoundary_of_quiet hpow hdue hrew hfl hfull hport hpend
  rw [htodo, List.foldl_nil, ite_self] at hexec
  have htimes := getTile_setTimes_of_no_flight (s := opened s (tileNo t)) (p := tileNo t)
    (by rw [getTile_opened]; exact hfl) (by rw [getTile_opened]; rfl) (s.now / 32 * 32)
  rw [getTile_opened] at htimes
  have hwait : (getTile (setTimes (opened s (tileNo t)) (tileNo t) (s.now / 32 * 32) []) (tileNo t)).todo = [] := by
    rw [htimes]; exact htodo
  obtain ⟨hbound, hnext, hpos, -, hflight⟩ := same_of_exactless (exactless_kickExact hwait (tileNo t))
  rw [htimes] at hbound hnext hpos hflight
  refine ⟨_, hexec, hbound, hflight.trans hfl, hnext, fun q hq => ?_, ?_, ?_⟩
  · rw [hpos] at hq
    simpa using (List.mem_filter.1 hq).2
  · rw [kickExact_mem_of_none_waiting hwait, setTimes_mem]
    rfl
  · rw [kickExact_op_of_none_waiting hwait]
    rfl

/-- A boundary admits the one pass that waits, if it may be admitted on its array (R64, R75, R81). -/
theorem passBoundary_of_one_waiting {q : PassReq} {a : Nat} {w : PassWork} (htodo : (getTile s (tileNo t)).todo = [q])
    (hrecomp : (getTile s (tileNo t)).recompQ = []) (hx : q.exact = false) (hv : q.variant = 0)
    (hw : passOf s q.op = some w) (hgo : admitTest s (tileNo t) q = .go)
    (ha : servingArr (getTile s (tileNo t)) q.array = some a) (hopen : tileOpen s (tileNo t) = true) :
    Does (.passBoundary t) s fun s' =>
      (getTile s' (tileNo t)).boundary = (getTile s (tileNo t)).boundary + 1 ∧ (getTile s' (tileNo t)).todo = [] ∧
        (tabGet ({} : Position) (getTile s' (tileNo t)).positions q.pos).uses + 1 =
          (tabGet ({} : Position) (getTile s (tileNo t)).positions q.pos).uses ∧
        ∃ f, (getTile s' (tileNo t)).flight = [f] ∧ f.req = q ∧ f.phys = some a ∧
          f.data = (tabGet ({} : Position) (getTile s (tileNo t)).positions q.pos).data ∧
          f.scale = (tabGet ({} : Position) (getTile s (tileNo t)).positions q.pos).scale ∧
          f.due.length = 1 ∧ ∀ d ∈ f.due, s.now / 32 * 32 + 11200 ≤ d := by
  obtain ⟨hhas, huse⟩ := position_of_admitted hw hgo
  obtain ⟨hpos, -⟩ := openedTile_position hhas huse
  have htile := getTile_opened s (tileNo t)
  have hexec := execPassBoundary_of_quiet hpow hdue hrew hfl hfull hport hpend
  have hload : recomputeLoad (getTile (opened s (tileNo t)) (tileNo t)) = 0 := by
    rw [htile, recomputeLoad_openedTile, recomputeLoad, hrecomp, hfl]; rfl
  have hopen' : tileOpen (opened s (tileNo t)) (tileNo t) = true := by
    rw [← hopen, tileOpen, htile]; rfl
  rw [if_pos hopen', htodo, List.foldl_cons, List.foldl_nil,
    scanPass_of_go hx hload (admitTest_opened hw hv hgo) hw] at hexec
  obtain ⟨f, hf, hreq, hphys, hdata, hscale, hnone, hgot⟩ := newFlight_of_base (opened s (tileNo t)) (tileNo t) hv a
  obtain ⟨hflight, htodo', hbound, huses⟩ := admitPass_on_array w hv
    (by rw [htile, servingArr_openedTile]; exact ha) hf
  rw [htile] at hflight htodo' hbound huses
  rw [openedTile_flight, hfl, List.nil_append] at hflight
  rw [openedTile_todo, htodo, dropFirst, if_pos (beq_self_eq_true q)] at htodo'
  obtain ⟨d, l, hfinal, hd⟩ := flight_setTimes (f := { f with
    sampled := sampleNow (opened s (tileNo t)) (tileNo t) f.slot }) hflight (by rw [hphys]; rfl) hnone hgot (s.now / 32 * 32)
  obtain ⟨hbound', hpos', hwait⟩ := setTimes_keeps (admitPass (opened s (tileNo t)) (tileNo t) q w) (tileNo t)
    (s.now / 32 * 32) []
  rw [htodo'] at hwait
  obtain ⟨kbound, -, kpos, ktodo, kflight⟩ := same_of_exactless (exactless_kickExact hwait (tileNo t))
  refine ⟨_, hexec, (kbound.trans hbound').trans hbound, ktodo.trans hwait, ?_, _, kflight.trans hfinal, hreq, hphys,
    ?_, ?_, rfl, ?_⟩
  · rw [kpos, hpos', huses, hpos]
    exact Nat.succ_pred huse
  · exact hdata.trans (by rw [htile, hpos])
  · exact hscale.trans (by rw [htile, hpos])
  · exact fun x hx => (List.mem_singleton.1 hx) ▸ hd

end

/-- Settles O33: a boundary with no pass to admit, and one with a pass that may be admitted. -/
theorem passBoundaryAdmits : Obligations.PassBoundaryAdmits := by
  unfold Obligations.PassBoundaryAdmits
  intro s t p x hpow hdue hrew hfl hexq hrecomp hbusy hfull hport hpend
  refine ⟨fun htodo => ?_, fun q a w htodo hx hv hreps hw hgo ha hopen => ?_⟩
  · exact passBoundary_of_none_waiting hpow hdue hrew hfl hfull hport hpend htodo
  · exact passBoundary_of_one_waiting hpow hdue hrew hfl hfull hport hpend htodo hrecomp hx hv hw hgo ha hopen

end Sys2Proof.Safety
end

section
/-! SUPPORT. The end of an exact pass (R113, R237): what the command comes to, and a state in which a PASS.X pass that
waits takes the exact unit at that end. -/

namespace Sys2Proof.Safety

open Sys2Proof Sys2Proof.Machine

/-- Entries that pass their residue are left in their slots (R94). -/
theorem rewriteBad_of_ok {es : List W64} (h : ∀ e ∈ es, residueOk e = true) (s : State) (p : Nat) (inst : Inst) :
    rewriteBad s p inst es = s := by
  have hnone : (getTile s p).ltn.filter (fun (_, x) => es.contains x.entry && !residueOk x.entry) = [] := by
    refine List.filter_eq_nil_iff.2 fun x _ hx => ?_
    obtain ⟨hmem, hbad⟩ := Bool.and_eq_true_iff.1 hx
    rw [h _ (List.contains_iff_mem.1 hmem)] at hbad
    exact absurd hbad (by decide)
  simp only [rewriteBad, hnone, List.foldl_nil]

/-- The tile of an exact unit that has been set free, with the use of a PASS.X pass taken from its position (R81). -/
def freedTile (t : Tile) (x : ExactReq) : Tile :=
  if x.for_ = .passx then usePosition { t with exactBusy := none } x.flight.req.pos false else { t with exactBusy := none }

/-- The exact unit of a tile set free after a request. -/
def freed (s : State) (p : Nat) (x : ExactReq) : State := setTile s p (freedTile (getTile s p) x)

/-- An exact pass whose segments are over delivers its result in the tile that it is of, and the unit is looked at again
(R113, R390). -/
theorem execExactPassDone_of_over {s : State} {t : TileId} {x : ExactReq} {h : Nat} {v : List Fv}
    (hbusy : (getTile s (tileNo t)).exactBusy = some x) (hfor : x.for_ ≠ .recompute) (hover : exactOver s.now x = true)
    (hok : ∀ e ∈ x.flight.entries, residueOk e = true) (hbad : x.flight.bad = false) (hhome : x.home.getD (tileNo t) = h)
    (hread : imageReadable s (flightImage s h x.flight).1 (flightImage s h x.flight).2.1 x.flight.req.array = true)
    (hv : exactResult (freed s (tileNo t) x) h x.flight = v) :
    execExactPassDone t s = .next (kickExact (collectSlots (deliver
      (opFlags (freed s (tileNo t) x) x.flight.req.op (fvFlags v)) h x.flight.req (fvVals v))) (tileNo t)) := by
  have hgo : ¬(x.for_ = .recompute ∨ exactOver s.now x = false) := by simp [hfor, hover]
  have hread' : (!imageReadable (freed s (tileNo t) x) (flightImage (freed s (tileNo t) x) h x.flight).1
      (flightImage (freed s (tileNo t) x) h x.flight).2.1 x.flight.req.array) = false := by
    rw [Bool.not_eq_false']; exact hread
  have hfreed : setTile s (tileNo t) (if x.for_ = .passx then
      usePosition { getTile s (tileNo t) with exactBusy := none } x.flight.req.pos false
      else { getTile s (tileNo t) with exactBusy := none }) = freed s (tileNo t) x := rfl
  simp only [execExactPassDone, tileNo_eq, hbusy, if_neg hgo, rewriteBad_of_ok hok, hfreed, hhome, hread', hbad, hv,
    Bool.false_eq_true, if_false]

/-- With no weight, no scale and no entry, every column of the reference result is 0 (R51). -/
theorem exactPass_of_empty (uns : Bool) (d : List Byte) :
    exactPass [] [] false uns d [] = List.replicate 512 ⟨0, 0⟩ := by
  have hcol (c : Nat) : exactCol [] [] false uns d [] c = exactCol [] [] false false [] [] 0 := rfl
  have hzero : exactCol [] [] false false [] [] 0 = ⟨0, 0⟩ := by decide +kernel
  have hall (l : List Nat) : l.map (exactCol [] [] false uns d []) = List.replicate l.length ⟨0, 0⟩ := by
    rw [List.map_congr_left fun c _ => (hcol c).trans hzero, List.map_const']
  rw [exactPass, List.filter_nil, hall, length_upFrom, colCount, if_neg Bool.false_ne_true]

/-- What an exact pass computes from: the weights of its image slot. -/
def flightWts (s : State) (p : Nat) (f : Flight) : List Wt :=
  imageWts s (flightImage s p f).1 (flightImage s p f).2.1 f.req.array

theorem exactResult_of_empty {s : State} {p : Nat} {f : Flight} (hint2 : (flightImage s p f).2.2 = false)
    (hwts : flightWts s p f = []) (hscales : f.scales = []) (hent : usedEntries f ++ f.overflow = []) :
    exactResult s p f = List.replicate 512 ⟨0, 0⟩ := by
  have hpass : exactResult s p f = exactPass f.scales (flightWts s p f) (flightImage s p f).2.2 f.req.unsigned f.data
      (usedEntries f ++ f.overflow) := rfl
  rw [hpass, hint2, hwts, hscales, hent, exactPass_of_empty]

/-- A result of 0 raises no flag and is delivered as a row of 0. -/
theorem deliver_of_zero {s : State} {p : Nat} {q : PassReq} {v : List Fv} (hv : v = List.replicate 512 ⟨0, 0⟩) :
    deliver (opFlags s q.op (fvFlags v)) p q (fvVals v) = deliver s p q zeroRow := by
  have hflags : fvFlags (List.replicate 512 ⟨0, 0⟩) = 0 := by decide +kernel
  have hvals : fvVals (List.replicate 512 ⟨0, 0⟩) = zeroRow := List.map_replicate
  have hsame : opFlags s q.op 0 = s := by simp [opFlags]
  rw [hv, hflags, hvals, hsame]

/-! ## A PASS.X pass that waits (R237) -/

/-- A PASS.X pass of operation 7 on array 1 of tile 0, for one of its vectors. -/
def exactAsk (vec : Nat) : PassReq :=
  { op := 7, seq := 0, inst := 0, array := 1, kblock := 0, firstK := 0, lastK := 0, listLast := 0, nblock := 0, msel := false
    oix := 0, vec := vec, pos := 3, reps := 1, variant := 0, unsigned := false, exact := true, blk := 0, slotV := vec }

/-- The pass for vector 0 in the exact unit, its segments over. -/
def exactEnding : ExactReq :=
  { for_ := .passx, prio := 0, age := 0, segs := 4
    flight := { req := exactAsk 0, phys := none, slot := none, data := [], scale := 0, entries := [], overflow := [] } }

/-- Tile 0 has that pass in its exact unit, and the pass for vector 1 waits. -/
def exactWaiting : State :=
  { State.reset with
    op.table := [(7, { used := true, started := true
                       work := .pass { items := [⟨0, 1, 0, 0, 3, false⟩], vectors := 3, drainsLeft := 1 } })]
    tile.tiles := [(0, { positions := [(3, { uses := 2 })], todo := [exactAsk 1], exactBusy := some exactEnding })] }

/-- The pass for vector 0 is the only one of its run, and its block is not full with it. -/
theorem oneStep_exactWaiting : OneStep exactWaiting 0 (exactAsk 0) :=
  ⟨by decide +kernel, by decide +kernel, by decide +kernel, rfl, rfl, rfl, rfl, _, 0, rfl, by decide +kernel, by decide +kernel⟩

/-- The command delivers a row of 0 for vector 0, and looks at the exact unit again. -/
theorem execExactPassDone_exactWaiting : execExactPassDone ⟨0, 0⟩ exactWaiting =
    .next (kickExact (collectSlots (deliver (freed exactWaiting (tileNo ⟨0, 0⟩) exactEnding) 0 exactEnding.flight.req
      zeroRow)) (tileNo ⟨0, 0⟩)) := by
  have hres : exactResult (freed exactWaiting (tileNo ⟨0, 0⟩) exactEnding) 0 exactEnding.flight = List.replicate 512 ⟨0, 0⟩ :=
    exactResult_of_empty (by decide +kernel) (by decide +kernel) rfl rfl
  rw [execExactPassDone_of_over (t := ⟨0, 0⟩) (x := exactEnding) (h := 0) (by decide +kernel) (by decide) (by decide +kernel)
    (fun _ h => absurd h List.not_mem_nil) rfl rfl (by decide +kernel) hres, deliver_of_zero rfl]

/-- The pass for vector 1 has the exact unit at the end of the one for vector 0. -/
theorem exactBusy_exactWaiting : (getTile (kickExact (collectSlots (deliver
    (freed exactWaiting (tileNo ⟨0, 0⟩) exactEnding) 0 exactEnding.flight.req zeroRow)) (tileNo ⟨0, 0⟩))
      (tileNo ⟨0, 0⟩)).exactBusy ≠ none := by
  decide +kernel

/-- Refutes O34: the unit is free at the end of an exact pass only if no PASS.X pass waits in the tile, which the
statement does not ask; one that waits takes the unit at once (R237). -/
theorem not_passResultsReachTheirSlots : ¬ Obligations.PassResultsReachTheirSlots := by
  unfold Obligations.PassResultsReachTheirSlots
  rintro ⟨-, hexact⟩
  obtain ⟨s', hexec, hfree, -⟩ := hexact exactWaiting ⟨0, 0⟩ exactEnding (by decide +kernel) (by decide +kernel)
    (by decide +kernel) (by decide +kernel) (by decide) (by decide +kernel) oneStep_exactWaiting
    (fun _ h => absurd h List.not_mem_nil) (by decide +kernel) rfl
  have hs' := Host.Outcome.next.inj (execExactPassDone_exactWaiting.symm.trans hexec)
  rw [← hs'] at hfree
  exact exactBusy_exactWaiting hfree

end Sys2Proof.Safety
end

section
/-! SUPPORT. Position writes and seeds (R80, R81, R86, R234): the first element of a list and the list without it, and what
an operation that is told of an accepted write changes. -/

namespace Sys2Proof.Safety

open Sys2Proof Sys2Proof.Machine

/-- The list without the first element that passes a test is one shorter. -/
theorem length_dropFirst {α : Type} {f : α → Bool} {l : List α} {x : α} (h : firstOf f l = some x) :
    (dropFirst f l).length + 1 = l.length := by
  induction l with
  | nil => cases h
  | cons y r ih =>
    rw [firstOf] at h
    rw [dropFirst]
    split at h
    next hy => rw [if_pos hy, List.length_cons]
    next hy => rw [if_neg hy, List.length_cons, List.length_cons, ih h]

/-! ## What the work of an operation changes (R227) -/

/-- The end of an operation's work changes the operation table alone. -/
theorem setResult_table (s : State) (e : Nat) (r : Byte) (d : Nat) :
    ∃ l, setResult s e r d = { s with op.table := l } := by
  unfold setResult
  dsimp only
  split
  · exact ⟨_, rfl⟩
  · exact ⟨_, rfl⟩

/-- PASS work that is put back changes the operation table alone. -/
theorem putPass_table (s : State) (e : Nat) (w : PassWork) : ∃ l, putPass s e w = { s with op.table := l } := by
  unfold putPass
  dsimp only
  split
  · exact setResult_table ..
  · exact ⟨_, rfl⟩

/-- An accepted position write changes the operation table alone in its operation. -/
theorem posAccepted_table (s : State) (e : Nat) : ∃ l, posAccepted s e = { s with op.table := l } := by
  unfold posAccepted
  split
  · exact putPass_table ..
  · dsimp only
    split
    · exact setResult_table ..
    · exact ⟨_, rfl⟩
  · exact ⟨_, rfl⟩

theorem putPass_tile (s : State) (e : Nat) (w : PassWork) : (putPass s e w).tile = s.tile := by
  obtain ⟨l, hl⟩ := putPass_table s e w
  rw [hl]

theorem posAccepted_keeps (s : State) (e : Nat) :
    (posAccepted s e).tile = s.tile ∧ (posAccepted s e).op.posQueue = s.op.posQueue := by
  obtain ⟨l, hl⟩ := posAccepted_table s e
  rw [hl]
  exact ⟨rfl, rfl⟩

/-! ## Position writes (R80, R81, R234) -/

/-- Whether a position write is for a position of a physical tile. -/
def forPosition (s : State) (n p : Nat) (w : PosWrite) : Bool := physTile s w.tile == n && w.pos == p

/-- What a position write leaves in its position. -/
def writtenPos (w : PosWrite) : Position := { data := w.data, scale := w.scale, vec := w.vec, uses := w.uses }

/-- The oldest write for a position is taken from the queue and fills it. -/
def posFilled (s : State) (n p : Nat) (w : PosWrite) : State :=
  setTile { s with op.posQueue := dropFirst (forPosition s n p) s.op.posQueue } n
    { getTile s n with positions := tabPut (getTile s n).positions p (writtenPos w) }

section
variable {s : State} {t : TileId} {p : Fin 64} {w : PosWrite}
  (hw : firstOf (forPosition s (tileNo t) p) s.op.posQueue = some w)
include hw

theorem execPositionWrite_of_free (hfree : tabHas (getTile s (tileNo t)).positions p = false) :
    execPositionWrite t p s = .next (posAccepted (posFilled s (tileNo t) p w) w.op) := by
  have hw' : firstOf (fun w : PosWrite => physTile s w.tile == tileNo t && w.pos == p.val) s.op.posQueue = some w := hw
  simp only [execPositionWrite, tileNo_eq, hw', hfree, Bool.false_eq_true, if_false]
  rfl

/-- A position that is filled holds what was written; one write fewer waits, and no other tile changes. -/
theorem posAccepted_posFilled :
    let s' := posAccepted (posFilled s (tileNo t) p w) w.op
    tabGet {} (getTile s' (tileNo t)).positions p = writtenPos w ∧ s'.op.posQueue.length + 1 = s.op.posQueue.length ∧
      s'.mem = s.mem ∧ ∀ q, q ≠ tileNo t → getTile s' q = getTile s q := by
  obtain ⟨htile, hqueue⟩ := posAccepted_keeps (posFilled s (tileNo t) p w) w.op
  dsimp only
  refine ⟨?_, ?_, posAccepted_mem .., fun q hq => ?_⟩
  · rw [getTile_of_tile htile, posFilled, getTile_setTile_same, tabGet_tabPut_same]
  · rw [hqueue]
    exact length_dropFirst hw
  · rw [getTile_of_tile htile, posFilled, getTile_setTile_other _ _ _ _ hq]
    rfl

end

/-! ## Seeds (R86, R89) -/

/-- The oldest seed for a tile arrives in it. -/
def seedArrived (s : State) (p : Nat) (m : SeedMsg) : State :=
  setTile { s with op.seeds := dropFirst (fun m : SeedMsg => physTile s m.tile == p) s.op.seeds } p
    { getTile s p with seeds := (getTile s p).seeds ++ [m] }

/-- A seed waits in its tile unless another scale is recorded for its vector (R89). -/
theorem execSeed_of_scale {s : State} {t : TileId} {m : SeedMsg} {w : PassWork}
    (hm : firstOf (fun m : SeedMsg => physTile s m.tile == tileNo t) s.op.seeds = some m) (hw : passOf s m.op = some w)
    (hscale : ∀ c, recordedScale (getTile s (tileNo t)) m.op ((w.acc + m.vec / w.vb) % 2) (m.vec % w.vb) (m.vec / w.vb) =
      some c → c = m.scale) :
    execSeed t s = .next (seedArrived s (tileNo t) m) := by
  have hw' (l : List SeedMsg) : passOf { s with op.seeds := l } m.op = some w := hw
  have htile (l : List SeedMsg) : getTile { s with op.seeds := l } (tileNo t) = getTile s (tileNo t) := rfl
  simp only [execSeed, tileNo_eq, hm, hw', htile]
  split
  next c hc => rw [if_pos (hscale c hc)]; rfl
  · rfl

/-- Settles O32: what the acceptance of a position write and the arrival of a seed leave. -/
theorem positionsAndSeeds : Obligations.PositionsAndSeeds := by
  unfold Obligations.PositionsAndSeeds
  constructor
  · intro s t p w hw hfree
    exact ⟨_, execPositionWrite_of_free hw hfree, posAccepted_posFilled hw⟩
  · intro s t m w hm hw x hscale
    exact ⟨_, execSeed_of_scale hm hw hscale, getTile_setTile_same .., length_dropFirst hm, rfl⟩

end Sys2Proof.Safety
end

section
/-! SUPPORT. The end of a drain (R87, R88, R233, R335): what an output row changes, what the rows of a drain leave of tiles,
of the operation and of memory, and what is left of the block. -/

namespace Sys2Proof.Safety

open Sys2Proof Sys2Proof.Machine

/-! ## The work of an operation (R227) -/

/-- The PASS work of an operation is read from its entry's work alone. -/
theorem passOf_of_work {s s' : State} {e : Nat} (h : (getOp s' e).work = (getOp s e).work) : passOf s' e = passOf s e := by
  rw [passOf, h, passOf]

theorem passOf_of_table {s s' : State} {e : Nat} (h : s'.op.table = s.op.table) : passOf s' e = passOf s e :=
  passOf_of_work (by rw [getOp, h, getOp])

theorem passOf_setResult (s : State) (e : Nat) (r : Byte) (d : Nat) : passOf (setResult s e r d) e = passOf s e := by
  unfold setResult
  dsimp only
  split
  · rfl
  · exact passOf_of_work (by rw [getOp_setOp_same])

theorem passOf_opFlags (s : State) (e : Nat) (f : BitVec 4) : passOf (opFlags s e f) e = passOf s e := by
  unfold opFlags
  dsimp only
  split
  · rfl
  · exact passOf_of_work (by rw [getOp_setOp_same])

/-- PASS work that is put back is the operation's work, whether it is done or not. -/
theorem passOf_putPass (s : State) (e : Nat) (w : PassWork) : passOf (putPass s e w) e = some w := by
  have hset : passOf (setOp s e { getOp s e with work := .pass w }) e = some w := by
    rw [passOf, getOp_setOp_same]
  unfold putPass
  dsimp only
  split
  · rw [passOf_setResult, hset]
  · exact hset

theorem getOp_inst_opFlags (s : State) (e : Nat) (f : BitVec 4) : (getOp (opFlags s e f) e).inst = (getOp s e).inst := by
  unfold opFlags
  dsimp only
  split
  · rfl
  · rw [getOp_setOp_same]

/-- An operation without a result that fails during its passes has the result it fails with (R231). -/
theorem result_failPass {s : State} {e : Nat} (h : (getOp s e).result = none) (r : Byte) (d : Nat) :
    (getOp (failPass s e r d) e).result = some r := by
  have hnone : ¬ (getOp s e).result.isSome = true := by simp [h]
  have hop : getOp (failPass s e r d) e = getOp (setResult s e r d) e := by
    rw [failPass, if_neg hnone]
    rfl
  rw [hop, setResult, if_neg hnone, getOp_setOp_same]

/-! ## One output row (R233, R261) -/

theorem passOf_wrBytes (s : State) (e : Nat) (inst : Inst) (a : Nat) (bs : List Byte) :
    passOf (wrBytes s inst a bs) e = passOf s e := passOf_of_table (by simp)

/-- What a write leaves in memory depends on what memory held alone. -/
theorem wrBytes_mem_of_mem {s s' : State} (h : s'.mem = s.mem) (inst : Inst) (a : Nat) (bs : List Byte) :
    (wrBytes s' inst a bs).mem = (wrBytes s inst a bs).mem := by
  unfold wrBytes
  split
  · simp only [wrStacked, getStack_of_mem h, h]
  · split <;> exact h

/-- A write of DVALID leaves the operations and the tiles as they are. -/
theorem setDvalid_keeps (s : State) (inst : Inst) (a : Nat) (v : Bool) :
    (setDvalid s inst a v).op = s.op ∧ (setDvalid s inst a v).tile = s.tile := by
  unfold setDvalid
  dsimp only
  split
  · exact ⟨rfl, rfl⟩
  · exact ⟨by simp, by simp⟩

/-- An append of codes leaves the operation table and the tiles as they are. -/
theorem kvAppend_keeps (s : State) (e dst v n : Nat) (codes : List Byte) :
    (kvAppend s e dst v n codes).op.table = s.op.table ∧ (kvAppend s e dst v n codes).tile = s.tile := by
  unfold kvAppend
  dsimp only
  split
  · split <;> simp
  · split <;> simp [setDvalid_keeps]

/-- The state after an output row has been written to memory or appended. -/
def rowWritten (s : State) (e : Nat) (d : DrainSpec) (v b : Nat) (row : List Fv) : State :=
  let s := opFlags s e (fvFlags row)
  if d.kv = true then
    opFlags (kvAppend s e d.dst.toNat v b (elemBytes 1 (convertRow 0xA (fvVals row)).1)) e (convertRow 0xA (fvVals row)).2
  else if (d.mem && d.fmt != 4) = true then
    opFlags (wrBytes s (getOp s e).inst (d.dst.toNat + v * d.dstStride + b * 512 * outSize d.fmt)
      (elemBytes (outSize d.fmt) (convertRow d.fmt (fvVals row)).1)) e (convertRow d.fmt (fvVals row)).2
  else s

/-- The state after an output row has been kept for quantise, if it is to be. -/
def rowKept (s : State) (e : Nat) (w : PassWork) (v b : Nat) (row : List Fv) : State :=
  if needsQuant w = true then
    setOp s e { getOp s e with work := .pass { w with y := tabPut w.y (v * 65536 + b) (fvVals row) } }
  else s

theorem drainOut_of_pass {s : State} {e : Nat} {w : PassWork} (hw : passOf s e = some w) (n : Nat) (k : Block) (x : Fill)
    (v b : Nat) (m : Bool) :
    drainOut e n k x s (v, b, m) =
      rowKept (rowWritten s e w.drain v b (drainRow s w k x n b v m)) e w v b (drainRow s w k x n b v m) := by
  simp only [drainOut, hw]
  rfl

theorem rowWritten_tile (s : State) (e : Nat) (d : DrainSpec) (v b : Nat) (row : List Fv) :
    (rowWritten s e d v b row).tile = s.tile := by
  unfold rowWritten
  dsimp only
  split
  · simp [kvAppend_keeps]
  · split <;> simp

theorem passOf_rowWritten (s : State) (e : Nat) (d : DrainSpec) (v b : Nat) (row : List Fv) :
    passOf (rowWritten s e d v b row) e = passOf s e := by
  unfold rowWritten
  dsimp only
  split
  · rw [passOf_opFlags, passOf_of_table (kvAppend_keeps ..).1, passOf_opFlags]
  · split
    · rw [passOf_opFlags, passOf_wrBytes, passOf_opFlags]
    · exact passOf_opFlags ..

/-- A row that goes neither to memory nor to a page changes no memory. -/
theorem rowWritten_mem_of_unwritten {d : DrainSpec} (hmem : d.mem = false) (hkv : d.kv = false) (s : State) (e v b : Nat)
    (row : List Fv) : (rowWritten s e d v b row).mem = s.mem := by
  simp [rowWritten, hmem, hkv]

/-- A row that goes to memory is its converted elements written at its address. -/
theorem rowWritten_mem_of_written {d : DrainSpec} (hmem : d.mem = true) (hkv : d.kv = false) (hfmt : d.fmt ≠ 4) (s : State)
    (e v b : Nat) (row : List Fv) :
    (rowWritten s e d v b row).mem =
      (wrBytes s (getOp s e).inst (d.dst.toNat + v * d.dstStride + b * 512 * outSize d.fmt)
        (elemBytes (outSize d.fmt) (convertRow d.fmt (fvVals row)).1)).mem := by
  have hwrite : (d.mem && d.fmt != 4) = true := by simp [hmem, hfmt]
  have hflags (u : State) (f : BitVec 4) : (opFlags u e f).mem = u.mem := by simp
  simp only [rowWritten, hkv, hwrite, Bool.false_eq_true, if_false, if_true, hflags, getOp_inst_opFlags]
  exact wrBytes_mem_of_mem (hflags ..) ..

theorem rowKept_mem (s : State) (e : Nat) (w : PassWork) (v b : Nat) (row : List Fv) :
    (rowKept s e w v b row).mem = s.mem := by
  unfold rowKept
  split <;> rfl

/-- A row that is kept changes nothing of its operation's work but the rows kept. -/
theorem passOf_rowKept {s : State} {e : Nat} {w : PassWork} (hw : passOf s e = some w) (v b : Nat) (row : List Fv) :
    ∃ y, passOf (rowKept s e w v b row) e = some { w with y := y } := by
  unfold rowKept
  split
  · exact ⟨_, by rw [passOf, getOp_setOp_same]⟩
  · exact ⟨w.y, hw⟩

/-! ## The rows of a drain -/

theorem drainOut_tile (e n : Nat) (k : Block) (x : Fill) (s : State) (r : Nat × Nat × Bool) :
    (drainOut e n k x s r).tile = s.tile := by
  obtain ⟨v, b, m⟩ := r
  cases hw : passOf s e with
  | none => simp only [drainOut, hw]
  | some w =>
    have hkept (u : State) (row : List Fv) : (rowKept u e w v b row).tile = u.tile := by unfold rowKept; split <;> rfl
    rw [drainOut_of_pass hw, hkept, rowWritten_tile]

section
variable {e : Nat} (n : Nat) (k : Block) (x : Fill)

theorem passOf_drainOut {s : State} {w : PassWork} (hw : passOf s e = some w) (r : Nat × Nat × Bool) :
    ∃ y, passOf (drainOut e n k x s r) e = some { w with y := y } := by
  obtain ⟨v, b, m⟩ := r
  rw [drainOut_of_pass hw]
  exact passOf_rowKept ((passOf_rowWritten ..).trans hw) ..

/-- The rows of a drain change nothing of the operation's work but the rows kept for quantise. -/
theorem passOf_foldl_drainOut (rows : List (Nat × Nat × Bool)) {s : State} {w : PassWork} (hw : passOf s e = some w) :
    ∃ y, passOf (rows.foldl (drainOut e n k x) s) e = some { w with y := y } := by
  induction rows generalizing s w with
  | nil => exact ⟨w.y, hw⟩
  | cons r rows ih =>
    obtain ⟨y, hy⟩ := passOf_drainOut n k x hw r
    obtain ⟨z, hz⟩ := ih hy
    exact ⟨z, hz⟩

/-- The rows of a drain that go nowhere change no memory. -/
theorem foldl_drainOut_mem_of_unwritten (rows : List (Nat × Nat × Bool)) {s : State} {w : PassWork}
    (hw : passOf s e = some w) (hmem : w.drain.mem = false) (hkv : w.drain.kv = false) :
    (rows.foldl (drainOut e n k x) s).mem = s.mem := by
  induction rows generalizing s w with
  | nil => rfl
  | cons r rows ih =>
    obtain ⟨v, b, m⟩ := r
    obtain ⟨y, hy⟩ := passOf_drainOut n k x hw (v, b, m)
    rw [List.foldl_cons, ih hy hmem hkv, drainOut_of_pass hw, rowKept_mem, rowWritten_mem_of_unwritten hmem hkv]

end

/-! ## The block (R87, R88) -/

/-- A block holds the fills that it is given. -/
theorem fills_setBlock (t : Tile) (b : Nat) (k : Block) : (getBlock (setBlock t b k) b).fills = k.fills := by
  unfold getBlock setBlock
  dsimp only
  split
  next h => rw [tabGet_tabDel_same, List.isEmpty_iff.1 h]
  · rw [tabGet_tabPut_same]

/-- A block that is given no fill is free. -/
theorem tabHas_setBlock_of_no_fill {k : Block} (h : k.fills = []) (t : Tile) (b : Nat) :
    tabHas (setBlock t b k).blocks b = false := by
  simp [setBlock, h, tabHas_tabDel]

/-- A fill whose drain is in progress is draining. -/
theorem draining_of_drainingFill {k : Block} {x : Fill} (h : drainingFill k = some x) : x.draining = true := by
  rw [drainingFill, firstOf_eq_find?] at h
  exact List.find?_some h

/-- The fill of an operation that drains. -/
def drains (e : Nat) (y : Fill) : Bool := y.op == some e && y.draining

theorem drains_eq (e : Nat) : drains e = fun y => y.op == some e && y.draining := rfl

/-- A block without the fill of an operation that drains. -/
def blockFreed (s : State) (p b e : Nat) : State :=
  setTile s p (setBlock (getTile s p) b (dropFills (drains e) (getBlock (getTile s p) b)))

/-- The state after the rows of a drain, its block freed of the fill. -/
def drained (s : State) (p b e n : Nat) (x : Fill) (rows : List (Nat × Nat × Bool)) : State :=
  blockFreed (bumpFree (rows.foldl (drainOut e n (getBlock (getTile s p) b) x) s)) p b e

theorem getTile_drained (s : State) (p b e n : Nat) (x : Fill) (rows : List (Nat × Nat × Bool)) :
    getTile (drained s p b e n x rows) p =
      setBlock (getTile s p) b (dropFills (drains e) (getBlock (getTile s p) b)) := by
  have hrows := getTile_of_tile (foldl_tile _ (drainOut_tile e n (getBlock (getTile s p) b) x) rows s) p
  have hbump : getTile (bumpFree (rows.foldl (drainOut e n (getBlock (getTile s p) b) x) s)) p = getTile s p := hrows
  rw [drained, blockFreed, getTile_setTile_same, hbump]

theorem drained_mem (s : State) (p b e n : Nat) (x : Fill) (rows : List (Nat × Nat × Bool)) :
    (drained s p b e n x rows).mem = (rows.foldl (drainOut e n (getBlock (getTile s p) b) x) s).mem := rfl

/-! ## The command -/

section
variable {s : State} {t : TileId} {b : Fin 2} {e n : Nat} {w : PassWork} {x : Fill}
  (hx : drainingFill (getBlock (getTile s (tileNo t)) b) = some x) (hop : x.op = some e)
  (hn : logTile s (tileNo t) = some n) (hw : passOf s e = some w)
include hx hop hn hw

/-- A drain whose residual can be read ends with its rows written, its fill gone and one drain fewer to come. -/
theorem execBlockDrainEnd_of_readable (hres : resReadable s w (drainRows w n x) = true) :
    ∃ y, execBlockDrainEnd t b s = .next (putPass (drained s (tileNo t) b e n x (drainRows w n x)) e
      { w with y := y, drainsLeft := w.drainsLeft - 1 }) := by
  obtain ⟨y, hy⟩ := passOf_foldl_drainOut n (getBlock (getTile s (tileNo t)) b) x (drainRows w n x) hw
  have hy' : passOf (drained s (tileNo t) b e n x (drainRows w n x)) e = some { w with y := y } := hy
  refine ⟨y, ?_⟩
  simp only [drained, blockFreed, drains_eq] at hy'
  simp only [execBlockDrainEnd, tileNo_eq, hx, hn, hop, Option.getD_some, hw, hres, Bool.not_true, Bool.false_eq_true,
    if_false, hy']
  rfl

/-- A drain whose residual cannot be read fails its operation with MEM_ERR (R335). -/
theorem execBlockDrainEnd_of_unreadable (hres : resReadable s w (drainRows w n x) = false) :
    execBlockDrainEnd t b s = .next (failPass (blockFreed s (tileNo t) b e) e rMemErr n) := by
  simp only [execBlockDrainEnd, tileNo_eq, hx, hn, hop, Option.getD_some, hw, hres, Bool.not_false, if_true]
  rfl

end

/-- Settles O35: the rows of a drain leave its tile alone, and its operation but for the rows kept; then its fill goes. -/
theorem blockDrainFreesTheBlock : Obligations.BlockDrainFreesTheBlock := by
  unfold Obligations.BlockDrainFreesTheBlock
  intro s t b e n w x p k rows hx hop hn hw
  constructor
  · intro hres
    obtain ⟨y, hexec⟩ := execBlockDrainEnd_of_readable hx hop hn hw hres
    have htile : getTile (putPass (drained s p b e n x rows) e { w with y := y, drainsLeft := w.drainsLeft - 1 }) p =
        setBlock (getTile s p) b (dropFills (drains e) k) :=
      (getTile_of_tile (putPass_tile ..) p).trans (getTile_drained ..)
    refine ⟨_, hexec, ?_, fun hone => ?_, ?_, fun hmem hkv => ?_, fun v o m hmem hkv hfmt hrow => ?_⟩
    · rw [htile, fills_setBlock]
      rfl
    · have hnone : (dropFills (drains e) k).fills = [] := by
        simp [dropFills, drains, hone, hop, draining_of_drainingFill hx]
      rw [htile, tabHas_setBlock_of_no_fill hnone]
    · rw [passOf_putPass]
      exact beq_self_eq_true _
    · rw [putPass_mem, drained_mem, foldl_drainOut_mem_of_unwritten n k x _ hw hmem hkv]
    · rw [putPass_mem, drained_mem, show drainRows w n x = [(v, o, m)] from hrow, List.foldl_cons, List.foldl_nil,
        drainOut_of_pass hw, rowKept_mem, rowWritten_mem_of_written hmem hkv hfmt]
  · intro hres hnone
    exact ⟨_, execBlockDrainEnd_of_unreadable hx hop hn hw hres, result_failPass (s := blockFreed s p b e) hnone ..,
      failPass_mem ..⟩

end Sys2Proof.Safety
end

section
/-! SUPPORT. The end of a recompute (R237, R381): what the command comes to, and a state in which a PASS.X pass that waits
takes the exact unit at that end. -/

namespace Sys2Proof.Safety

open Sys2Proof Sys2Proof.Machine

/-- The exact unit of a tile set free after a recompute, the use that it kept given back (R380), and the retired slots
that it alone still applied free (R97). -/
def recomputeFreed (s : State) (p : Nat) (x : ExactReq) : State :=
  let u := setTile s p (releasePosition { getTile s p with exactBusy := none } x.flight.req.pos)
  setTile u p (freeDue (getTile u p))

/-- A recompute whose segments are over and that matches sets the exact unit free, which is looked at again (R381). -/
theorem execRecomputeDone_of_match {s : State} {t : TileId} {x : ExactReq}
    (hbusy : (getTile s (tileNo t)).exactBusy = some x) (hfor : x.for_ = .recompute) (hover : exactOver s.now x = true)
    (hread : imageReadable s (flightImage s (tileNo t) x.flight).1 (flightImage s (tileNo t) x.flight).2.1
      x.flight.req.array = true) (hmism : x.flight.mism = false) :
    execRecomputeDone t s = .next (kickExact (collectSlots (recomputeFreed s (tileNo t) x)) (tileNo t)) := by
  have hgo : ¬(x.for_ ≠ .recompute ∨ exactOver s.now x = false) := by simp [hfor, hover]
  have hread' (u : Tile) : (!imageReadable (setTile s (tileNo t) u)
      (flightImage (setTile s (tileNo t) u) (tileNo t) x.flight).1 (flightImage (setTile s (tileNo t) u) (tileNo t) x.flight).2.1 x.flight.req.array) = false := by
    rw [Bool.not_eq_false']; exact hread
  simp only [execRecomputeDone, tileNo_eq, hbusy, if_neg hgo, hread', hmism, Bool.false_eq_true, if_false]
  rfl

/-! ## A PASS.X pass that waits (R237) -/

/-- The recompute of an analogue pass of operation 6 on array 1 of tile 0, which keeps a use of position 5: granted the
exact unit at time 0, and without a mismatch. -/
def recomputeEnding : ExactReq :=
  { for_ := .recompute, prio := 5, age := 0
    flight := { req := { exactAsk 0 with op := 6, pos := 5, exact := false }, phys := some 1, slot := some 0, data := []
                scale := 0, entries := [], overflow := [], sampled := true } }

/-- Tile 0 has that recompute in its exact unit, its four segments over, and the PASS.X pass of operation 7 waits. -/
def recomputeWaiting : State :=
  { exactWaiting with
    now := 4 * 32768
    tile.tiles := [(0, { positions := [(3, { uses := 2 }), (5, { held := 1 })], todo := [exactAsk 1], image := some 0
                         exactBusy := some recomputeEnding })] }

/-- The pass that waits has the exact unit at the end of the recompute (R237). -/
theorem exactBusy_recomputeWaiting :
    (getTile (kickExact (collectSlots (recomputeFreed recomputeWaiting 0 recomputeEnding)) 0) 0).exactBusy.map
      (fun x => (x.for_, x.flight.req)) = some (.passx, exactAsk 1) := by
  decide +kernel

/-- Refutes O37: the unit is free at the end of a recompute only if no PASS.X pass waits in the tile, which the last clause
does not ask; one that waits takes the unit at once (R237). -/
theorem not_lanternAndRecompute : ¬ Obligations.LanternAndRecompute := by
  unfold Obligations.LanternAndRecompute
  rintro ⟨-, hrecompute⟩
  have hbusy : (getTile recomputeWaiting (tileNo ⟨0, 0⟩)).exactBusy = some recomputeEnding := by decide +kernel
  have hover : exactOver recomputeWaiting.now recomputeEnding = true := by decide
  have hread : imageReadable recomputeWaiting (flightImage recomputeWaiting 0 recomputeEnding.flight).1
      (flightImage recomputeWaiting 0 recomputeEnding.flight).2.1 1 = true := by decide +kernel
  obtain ⟨s', hexec, hfree, -⟩ := hrecompute recomputeWaiting ⟨0, 0⟩ recomputeEnding hbusy (by decide +kernel)
    (by decide +kernel) (by decide +kernel) rfl hover hread rfl (by decide +kernel)
  have hs' := Host.Outcome.next.inj ((execRecomputeDone_of_match hbusy rfl hover hread rfl).symm.trans hexec)
  have hpass := exactBusy_recomputeWaiting
  rw [show kickExact (collectSlots (recomputeFreed recomputeWaiting 0 recomputeEnding)) 0 = s' from hs',
    show (getTile s' 0).exactBusy = none from hfree] at hpass
  cases hpass

end Sys2Proof.Safety
end

section
/-! SUPPORT. The start of a zeroise (R141, R142, R165, R340): that ending the operations and the launches of the device leaves
the images, the flag of R142 and the device fence alone, and what a zeroise that begins leaves behind. -/

namespace Sys2Proof.Safety

open Sys2Proof Sys2Proof.Machine

@[simp] theorem foldl_devFence {α : Type} (f : State → α → State) (h : ∀ s x, (f s x).flt.devFence = s.flt.devFence)
    (l : List α) (s : State) : (l.foldl f s).flt.devFence = s.flt.devFence := foldl_keeps (·.flt.devFence) f h l s

/-! ## Transfers that stop (R340) -/

@[simp] theorem askHost_img_flt (s : State) (e row : Nat) (inst : Inst) (t : ReadTag) :
    (askHost s e row inst t).img = s.img ∧ (askHost s e row inst t).flt = s.flt := by
  unfold askHost; split <;> exact ⟨rfl, rfl⟩

@[simp] theorem sendReads_img_flt (e : Nat) (inst : Inst) (d n a k : Nat) (s : State) :
    (sendReads e inst d n a k s).img = s.img ∧ (sendReads e inst d n a k s).flt = s.flt := by
  induction n generalizing a k s with
  | zero => exact ⟨rfl, rfl⟩
  | succ n ih =>
    unfold sendReads
    split
    · exact ⟨rfl, rfl⟩
    · simp [ih]

@[simp] theorem askPieces_img_flt (s : State) (e : Nat) (inst : Inst) (t : ReadTag) (ps : List (XPlace × Nat)) :
    (askPieces s e inst t ps).img = s.img ∧ (askPieces s e inst t ps).flt = s.flt := by
  unfold askPieces tagReads
  constructor
  · exact foldl_img _ (fun s p => by dsimp only; split <;> simp) ps s
  · exact foldl_flt _ (fun s p => by dsimp only; split <;> simp) ps s

@[simp] theorem askNext_img_flt (s : State) (e : Nat) :
    (askNext s e).img = s.img ∧ (askNext s e).flt = s.flt := by
  unfold askNext; dsimp only; (repeat' split) <;> simp [putXfer]

@[simp] theorem grantXfer_img_devFence (s : State) (x : Nat) :
    (grantXfer s x).img = s.img ∧ (grantXfer s x).flt.devFence = s.flt.devFence := by
  unfold grantXfer; dsimp only; (repeat' split) <;> simp [putXfer]

@[simp] theorem releaseXfer_img_devFence (s : State) (e : Nat) :
    (releaseXfer s e).img = s.img ∧ (releaseXfer s e).flt.devFence = s.flt.devFence := by
  unfold releaseXfer; dsimp only; (repeat' split) <;> simp [putXfer]

@[simp] theorem endXfer_img_devFence (s : State) (e : Nat) (r : Byte) (detail : Nat) :
    (endXfer s e r detail).img = s.img ∧ (endXfer s e r detail).flt.devFence = s.flt.devFence := by
  unfold endXfer; dsimp only; split <;> simp [dropReads]

@[simp] theorem doubtAt_img_flt (s : State) (inst : Inst) (w : XferWork) (p : Nat) (t : State) (o : Nat) :
    (doubtAt s inst w p t o).img = t.img ∧ (doubtAt s inst w p t o).flt = t.flt := by
  unfold doubtAt; (repeat' split) <;> simp

@[simp] theorem doubt_img_flt (s : State) (e : Nat) :
    (doubt s e).img = s.img ∧ (doubt s e).flt = s.flt := by
  unfold doubt; dsimp only; (repeat' split) <;> simp

@[simp] theorem stopXfer_img_devFence (s : State) (e : Nat) (r : Byte) (detail : Nat) :
    (stopXfer s e r detail).img = s.img ∧ (stopXfer s e r detail).flt.devFence = s.flt.devFence := by
  unfold stopXfer; dsimp only; (repeat' split) <;> simp

/-! ## Collectives that take a freed engine (R324) -/

@[simp] theorem endColl_img_flt (s : State) (e : Nat) (r : Byte) (missing : Nat) :
    (endColl s e r missing).img = s.img ∧ (endColl s e r missing).flt = s.flt := by
  unfold endColl undefDst; dsimp only; (repeat' split) <;> simp [putColl]

@[simp] theorem sendPulls_img_flt (e n : Nat) (s : State) :
    (sendPulls e n s).img = s.img ∧ (sendPulls e n s).flt = s.flt := by
  induction n generalizing s with
  | zero => exact ⟨rfl, rfl⟩
  | succ n ih => unfold sendPulls; dsimp only; (repeat' split) <;> simp [ih, putColl]

@[simp] theorem arriveRank_img_flt (s : State) (e r : Nat) :
    (arriveRank s e r).img = s.img ∧ (arriveRank s e r).flt = s.flt := by
  unfold arriveRank; dsimp only; (repeat' split) <;> simp [putColl, sendCtrl]

@[simp] theorem servePull_img_flt (s : State) (e : Nat) (w : CollWork) (m : CollMsg) (off : Nat) (q : W32) :
    (servePull s e w m off q).img = s.img ∧ (servePull s e w m off q).flt = s.flt := by
  unfold servePull; dsimp only; split <;> simp [putColl]

@[simp] theorem foldChunk_img_flt (s : State) (e : Nat) (w : CollWork) (c : Nat) :
    (foldChunk s e w c).img = s.img ∧ (foldChunk s e w c).flt = s.flt := by simp [foldChunk]

@[simp] theorem takeEarly_img_flt (s : State) (e : Nat) :
    (takeEarly s e).img = s.img ∧ (takeEarly s e).flt = s.flt := by
  unfold takeEarly
  dsimp only
  split
  · exact ⟨rfl, rfl⟩
  · constructor
    · exact foldl_img _ (fun s x => by (repeat' split) <;> simp) _ _
    · exact foldl_flt _ (fun s x => by (repeat' split) <;> simp) _ _

@[simp] theorem ownPart_img_flt (s : State) (e : Nat) :
    (ownPart s e).img = s.img ∧ (ownPart s e).flt = s.flt := by
  unfold ownPart; dsimp only; (repeat' split) <;> simp [sendCtrl]

@[simp] theorem collAdvance_img_flt (s : State) (e : Nat) :
    (collAdvance s e).img = s.img ∧ (collAdvance s e).flt = s.flt := by
  unfold collAdvance; (repeat' split) <;> simp [putColl]

@[simp] theorem grantColl_img_flt (n : Nat) (s : State) :
    (grantColl n s).img = s.img ∧ (grantColl n s).flt = s.flt := by
  induction n generalizing s with
  | zero => exact ⟨rfl, rfl⟩
  | succ n ih => unfold grantColl; (repeat' split) <;> simp [ih, beginColl, collGoOn, putColl]

/-! ## Launches whose T has not come (R165) -/

@[simp] theorem hearMember_img_flt (s : State) (slice : Nat) (m : LaunchMsg) (f : GroupLaunch → GroupLaunch) :
    (hearMember s slice m f).img = s.img ∧ (hearMember s slice m f).flt = s.flt := by
  unfold hearMember openGroup setGroup; dsimp only; (repeat' split) <;> exact ⟨rfl, rfl⟩

@[simp] theorem tellCoord_img_flt (s : State) (inst : Inst) (g : Nat) (kind : Nat) (tag : W32) (t : W64) (why : Byte) :
    (tellCoord s inst g kind tag t why).img = s.img ∧ (tellCoord s inst g kind tag t why).flt = s.flt := by
  unfold tellCoord sendLaunch; dsimp only; (repeat' split) <;> simp

@[simp] theorem missEntry_img_flt (s : State) (i : Nat) (why r : Byte) :
    (missEntry s i why r).img = s.img ∧ (missEntry s i why r).flt = s.flt := by
  unfold missEntry freeReserved; dsimp only; (repeat' split) <;> simp

@[simp] theorem fenceEntry_img_flt (s : State) (i : Nat) :
    (fenceEntry s i).img = s.img ∧ (fenceEntry s i).flt = s.flt := by
  unfold fenceEntry; dsimp only; split <;> simp

@[simp] theorem fenceLaunches_img_devFence (s : State) :
    (fenceLaunches s).img = s.img ∧ (fenceLaunches s).flt.devFence = s.flt.devFence := by simp [fenceLaunches]

/-! ## Operations of a zeroise (R141) -/

@[simp] theorem failPass_img_flt (s : State) (e : Nat) (r : Byte) (detail : Nat) :
    (failPass s e r detail).img = s.img ∧ (failPass s e r detail).flt = s.flt := by
  unfold failPass; dsimp only; split <;> simp

@[simp] theorem zeroiseOps_img_devFence (s : State) :
    (zeroiseOps s).img = s.img ∧ (zeroiseOps s).flt.devFence = s.flt.devFence := by simp [zeroiseOps]

/-! ## Sweeps that end (R438) -/

/-- The end of a sweep changes the Keep alone. -/
@[simp] theorem abortSweep_frame (s : State) :
    (abortSweep s).mbx = s.mbx ∧ (abortSweep s).op = s.op ∧ (abortSweep s).time = s.time ∧ (abortSweep s).img = s.img := by
  unfold abortSweep; split <;> exact ⟨rfl, rfl, rfl, rfl⟩

/-- A RESTORE_FACTORY that begins erases both user sets and is in progress. -/
theorem startRestore_begun (s : State) :
    (startRestore s).keep.restoring = some (epochNo s) ∧ (startRestore s).img.userSets = [] ∧ (startRestore s).mbx = s.mbx := by
  simp [startRestore, epochNo, nsNow]

/-! ## Zeroise begins (R141, R142) -/

/-- A zeroise that begins sets the flag of R142 and the device fence, and no image is left. -/
theorem startZeroise_begun (s : State) :
    (startZeroise s).img.zeroise = true ∧ (startZeroise s).img.zeroiseFlag = true ∧ (startZeroise s).img.images = [] ∧
      (startZeroise s).flt.devFence = true := by
  have hslot : ∀ (l : List (Nat × Image)) (u : State),
      (l.foldl (fun s (_, i) => zeroRange s i.base i.size) u).img = u.img ∧
        (l.foldl (fun s (_, i) => zeroRange s i.base i.size) u).flt = u.flt := fun l u => ⟨foldl_img _ (by simp) l u, foldl_flt _ (by simp) l u⟩
  simp [startZeroise, hslot]

/-- With no operation, no load and no launch to end, a zeroise that begins changes no thread. -/
theorem startZeroise_mbx {s : State} (hop : s.op.table = []) (hload : s.img.load = none) (hl : s.time.launches = []) :
    (startZeroise s).mbx = s.mbx := by
  have hslot : ∀ (l : List (Nat × Image)) (u : State),
      (l.foldl (fun s (_, i) => zeroRange s i.base i.size) u).mbx = u.mbx := foldl_mbx _ (by simp)
  have hload' : abortLoad s = s := by simp [abortLoad, hload]
  simp [startZeroise, hload', hslot, zeroiseOps, fenceLaunches, runningOps, emitImage, hop, hl]

/-! ## Orders of management of one cycle (R221) -/

/-- No management command has been accepted in a cycle that has seen no order. -/
theorem mgmtNow_of_first {s : State} (h : FirstOrder s) (cmd : Nat) : mgmtNow s cmd = false :=
  List.any_eq_false.2 fun o ho => by simp [h o ho]

/-- A management command that is accepted is one of its cycle. -/
theorem mgmtNow_noteMgmt (s : State) (c cmd : Nat) (reply : Option (Tid × GReg)) :
    mgmtNow (noteMgmt s c reply) cmd = (mgmtNow s cmd || c == cmd) := by simp [mgmtNow, noteMgmt]

@[simp] theorem mgmtNow_mgmtCode (s : State) (t : Tid) (d : GReg) (n cmd : Nat) :
    mgmtNow (mgmtCode s t d n) cmd = mgmtNow s cmd := rfl

/-- With no RESTORE_FACTORY accepted in its cycle, a zeroise takes the place of none. -/
theorem restoreYields_of_none {s : State} (h : mgmtNow s 1 = false) : restoreYields s = s := by simp [restoreYields, h]

/-! ## Answers of MGMT (R220, R221) -/

/-- The answer of a management command of a thread: it retires with the code in its register and in KSTAT, DONE clear. -/
def Answered (th th' : Thread) (d : GReg) (n : Nat) : Prop :=
  Advanced th th' ∧ th'.kstat.toNat = n ∧ th'.kdone = false ∧
    ∀ r, gRd th' r = if r = d ∧ r ≠ 0 then BitVec.ofNat 64 n else gRd th r

/-- A management command has started nothing: threads that wait for one apart, the Keep, the images, memory, the tiles and
the fences are the same. -/
def StartsNothing (s s' : State) : Prop :=
  s'.keep = { s.keep with restoreBy := s'.keep.restoreBy } ∧ s'.img = { s.img with zeroiseBy := s'.img.zeroiseBy } ∧
    s'.mem = s.mem ∧ s'.tile = s.tile ∧ s'.flt = s.flt

theorem getThr_mgmtCode (s : State) (t : Tid) (d : GReg) (n : Nat) :
    getThr (mgmtCode s t d n) t.toNat =
      { retired (gWr (getThr s t.toNat) d (BitVec.ofNat 64 n)) with kstat := BitVec.ofNat 8 n, kdone := false } := by
  have hret : getThr (retireG s t d (BitVec.ofNat 64 n)) t.toNat = retired (gWr (getThr s t.toNat) d (BitVec.ofNat 64 n)) :=
    getThr_setThr_same ..
  rw [← hret]
  exact getThr_setThr_same ..

/-- The answer is the thread's, whatever it changes of the fields that an answer does not name. -/
theorem answered_mgmtCode {s : State} {t : Tid} {th : Thread} (hpc : (getThr s t.toNat).pc = th.pc)
    (hret : (getThr s t.toNat).retired = th.retired) (hg : (getThr s t.toNat).g = th.g) (d : GReg) {n : Nat} (hn : n < 256) :
    Answered th (getThr (mgmtCode s t d n) t.toNat) d n := by
  rw [getThr_mgmtCode]
  refine ⟨⟨by simp [retired, hpc], by simp [retired, hret]⟩, ?_, rfl, fun r => ?_⟩
  · simp [Nat.mod_eq_of_lt hn]
  · have hread : gRd (getThr s t.toNat) r = gRd th r := by rw [gRd, gRd, hg]
    rw [← hread]
    exact gRd_gWr ..

theorem zarm_mgmtCode (s : State) (t : Tid) (d : GReg) (n : Nat) :
    (getThr (mgmtCode s t d n) t.toNat).zarm = (getThr s t.toNat).zarm := by
  rw [getThr_mgmtCode]; unfold gWr; split <;> rfl

/-- A command that only answers, given in a state that differs in threads and cores alone, starts nothing. -/
theorem startsNothing_mgmtCode {s u : State} (h : SameElsewhere s u) (t : Tid) (d : GReg) (n : Nat) :
    StartsNothing s (mgmtCode u t d n) := by
  refine ⟨?_, ?_, h.mem, h.tile, h.flt⟩
  · rw [← h.keep]; rfl
  · rw [← h.img]; rfl

/-! ## The commands (R220, R221) -/

/-- What a RESTORE_FACTORY that is accepted leaves. -/
def restoreTaken (s : State) (t : Tid) (d : GReg) : State :=
  let s := startRestore (noteMgmt (mgmtCode s t d 0) 1 (some (t, d)))
  { s with keep.restoreBy := t :: s.keep.restoreBy }

/-- What a ZEROISE that is accepted leaves. -/
def zeroiseTaken (s : State) (t : Tid) (d : GReg) : State :=
  let s := startZeroise (noteMgmt (mgmtCode s t d 0) 2 (some (t, d)))
  { s with img.zeroiseBy := t :: s.img.zeroiseBy }

/-- The state in which ZEROISE of a thread is answered: the word is fetched, and ZARM disarmed. -/
def disarmed (s : State) (t : Tid) : State := setThr (fetched s t.toNat) t.toNat { getThr s t.toNat with zarm := none }

theorem answered_mgmtCode_fetched (s : State) (t : Tid) (d : GReg) {n : Nat} (hn : n < 256) :
    Answered (getThr s t.toNat) (getThr (mgmtCode (fetched s t.toNat) t d n) t.toNat) d n :=
  answered_mgmtCode (by rw [getThr_fetched]) (by rw [getThr_fetched]) (by rw [getThr_fetched]) d hn

theorem answered_mgmtCode_disarmed (s : State) (t : Tid) (d : GReg) {n : Nat} (hn : n < 256) :
    Answered (getThr s t.toNat) (getThr (mgmtCode (disarmed s t) t d n) t.toNat) d n ∧
      (getThr (mgmtCode (disarmed s t) t d n) t.toNat).zarm = none := by
  have hthr : getThr (disarmed s t) t.toNat = { getThr s t.toNat with zarm := none } := getThr_setThr_same ..
  exact ⟨answered_mgmtCode (by rw [hthr]) (by rw [hthr]) (by rw [hthr]) d hn, by rw [zarm_mgmtCode, hthr]⟩

/-- A RESTORE_FACTORY that is accepted has begun, for its thread among others. -/
theorem restoreTaken_begun {s u : State} (h : SameElsewhere s u) (t : Tid) (d : GReg) :
    (restoreTaken u t d).keep.restoring = some (epochNo s) ∧ (restoreTaken u t d).keep.restoreBy.contains t = true ∧
      (restoreTaken u t d).img.userSets = [] := by
  obtain ⟨hrestoring, husers, -⟩ := startRestore_begun (noteMgmt (mgmtCode u t d 0) 1 (some (t, d)))
  refine ⟨hrestoring.trans ?_, by simp [restoreTaken], husers⟩
  rw [epochNo, nsNow, epochNo, nsNow, ← h.time]
  rfl

/-- A RESTORE_FACTORY that is accepted leaves its thread as the answer does. -/
theorem getThr_restoreTaken (s : State) (t : Tid) (d : GReg) (n : Nat) :
    getThr (restoreTaken s t d) n = getThr (mgmtCode s t d 0) n :=
  getThr_of_mbx (startRestore_begun _).2.2 n

/-- A ZEROISE that is accepted has begun, for its thread among others. -/
theorem zeroiseTaken_begun (s : State) (t : Tid) (d : GReg) :
    (zeroiseTaken s t d).img.zeroise = true ∧ (zeroiseTaken s t d).img.zeroiseFlag = true ∧
      (zeroiseTaken s t d).img.zeroiseBy.contains t = true ∧ (zeroiseTaken s t d).img.images = [] ∧
      (zeroiseTaken s t d).flt.devFence = true := by
  simp [zeroiseTaken, startZeroise_begun]

/-- A ZEROISE that is accepted with nothing to end leaves its thread as the answer does. -/
theorem getThr_zeroiseTaken {s : State} (hop : s.op.table = []) (hload : s.img.load = none) (hl : s.time.launches = [])
    (t : Tid) (d : GReg) (n : Nat) : getThr (zeroiseTaken s t d) n = getThr (mgmtCode s t d 0) n := by
  have hmbx := startZeroise_mbx (s := noteMgmt (mgmtCode s t d 0) 2 (some (t, d))) hop hload hl
  simp only [zeroiseTaken, getThr, hmbx]
  rfl

section
variable {s : State} {t : Tid} {g : Guard} (hissue : Issues s t g) (hpriv : (getThr s t.toNat).priv = true)
  (hinst : (getThr s t.toNat).inst = 0) (hfirst : FirstOrder s)
include hissue hpriv hinst hfirst

/-- RESTORE_FACTORY as the first order of its cycle. -/
theorem exec_restoreFactory (d : GReg) :
    exec (.restoreFactory t g d) s = .next (
      if s.keep.restoring.isSome = true then mgmtCode (fetched s t.toNat) t d 1
      else if regFld s .keep 0x018 1 1 ≠ 1 then mgmtCode (fetched s t.toNat) t d 2
      else if (s.img.zeroise || s.img.zeroiseFlag) = true then mgmtCode (fetched s t.toNat) t d 4
      else restoreTaken (fetched s t.toNat) t d) := by
  have hf := (fetched_frame s t).elsewhere
  have hnow : mgmtNow (fetched s t.toNat) 1 = false := by
    rw [mgmtNow, hf.reg, hf.now]; exact mgmtNow_of_first hfirst 1
  have hen : regFld (fetched s t.toNat) .keep 0x018 1 1 = regFld s .keep 0x018 1 1 := regFld_of_reg hf.reg ..
  refine (congrArg Host.Outcome.next (issueWord_issues hissue _ _ .device (by simp [hasPriv, hpriv, hinst]) _)).trans ?_
  simp only [hnow, mgmtEnabled, hen, hf.keep, hf.img]
  cases hr : s.keep.restoring <;> simp [restoreTaken]

/-- ZEROISE as the first order of its cycle. -/
theorem exec_zeroise (d : GReg) :
    exec (.zeroise t g d) s = .next (
      if regFld s .keep 0x018 1 1 ≠ 1 then mgmtCode (disarmed s t) t d 2
      else if zarmed s (getThr s t.toNat) = false then mgmtCode (disarmed s t) t d 3
      else if (s.img.zeroise || s.img.zeroiseFlag) = true then mgmtCode (disarmed s t) t d 4
      else zeroiseTaken (disarmed s t) t d) := by
  have hf : SameElsewhere s (disarmed s t) := (fetched_setThr_frame s t _).elsewhere
  have hnow (n : Nat) : mgmtNow (disarmed s t) n = false := by
    rw [mgmtNow, hf.reg, hf.now]; exact mgmtNow_of_first hfirst n
  have hnote : mgmtNow (noteMgmt (mgmtCode (disarmed s t) t d 0) 2 (some (t, d))) 1 = false := by
    rw [mgmtNow_noteMgmt, mgmtNow_mgmtCode, hnow]; rfl
  have hen : regFld (disarmed s t) .keep 0x018 1 1 = regFld s .keep 0x018 1 1 := regFld_of_reg hf.reg ..
  have harm (th : Thread) : zarmed (fetched s t.toNat) th = zarmed s th := by
    rw [zarmed, (fetched_frame s t).elsewhere.now, zarmed]
  refine (congrArg Host.Outcome.next (issueWord_issues hissue _ _ .device (by simp [hasPriv, hpriv, hinst]) _)).trans ?_
  simp only [getThr_fetched, harm]
  rw [show setThr (fetched s t.toNat) t.toNat { getThr s t.toNat with zarm := none } = disarmed s t from rfl]
  simp only [hnow, mgmtEnabled, hen, hf.img, restoreYields_of_none hnote]
  cases hz : s.img.zeroise <;> simp [zeroiseTaken]

theorem restoreFactory_accepted (d : GReg) (hen : regFld s .keep 0x018 1 1 = 1) (hnone : s.keep.restoring = none)
    (hrun : (s.img.zeroise || s.img.zeroiseFlag) = false) :
    Does (.restoreFactory t g d) s fun s' => Answered (getThr s t.toNat) (getThr s' t.toNat) d 0 ∧
      s'.keep.restoring = some (epochNo s) ∧ s'.keep.restoreBy.contains t = true ∧ s'.img.userSets = [] := by
  have hexec := exec_restoreFactory hissue hpriv hinst hfirst d
  rw [hnone, if_neg (by simp), if_neg (Classical.not_not.2 hen), if_neg (Bool.eq_false_iff.1 hrun)] at hexec
  refine ⟨_, hexec, ?_, restoreTaken_begun (fetched_frame s t).elsewhere t d⟩
  rw [getThr_restoreTaken]
  exact answered_mgmtCode_fetched s t d (by decide)

theorem restoreFactory_refused (d : GReg) {n : Nat}
    (hn : (s.keep.restoring.isSome = true ∧ n = 1) ∨ (s.keep.restoring = none ∧ regFld s .keep 0x018 1 1 ≠ 1 ∧ n = 2) ∨
      (s.keep.restoring = none ∧ regFld s .keep 0x018 1 1 = 1 ∧ (s.img.zeroise || s.img.zeroiseFlag) = true ∧ n = 4)) :
    Does (.restoreFactory t g d) s fun s' => Answered (getThr s t.toNat) (getThr s' t.toNat) d n ∧ StartsNothing s s' := by
  have hexec := exec_restoreFactory hissue hpriv hinst hfirst d
  have hcode : exec (.restoreFactory t g d) s = .next (mgmtCode (fetched s t.toNat) t d n) ∧ n < 256 := by
    obtain ⟨hbusy, rfl⟩ | ⟨hnone, hen, rfl⟩ | ⟨hnone, hen, hrun, rfl⟩ := hn
    · exact ⟨by rw [hexec, if_pos hbusy], by decide⟩
    · exact ⟨by rw [hexec, hnone, if_neg (by simp), if_pos hen], by decide⟩
    · exact ⟨by rw [hexec, hnone, if_neg (by simp), if_neg (Classical.not_not.2 hen), if_pos hrun], by decide⟩
  exact ⟨_, hcode.1, answered_mgmtCode_fetched s t d hcode.2, startsNothing_mgmtCode (fetched_frame s t).elsewhere t d n⟩

theorem exec_zeroise_accepted (d : GReg) (hen : regFld s .keep 0x018 1 1 = 1)
    (harm : zarmed s (getThr s t.toNat) = true) (hrun : (s.img.zeroise || s.img.zeroiseFlag) = false) :
    exec (.zeroise t g d) s = .next (zeroiseTaken (disarmed s t) t d) := by
  rw [exec_zeroise hissue hpriv hinst hfirst d, if_neg (Classical.not_not.2 hen), if_neg (by rw [harm]; decide),
    if_neg (Bool.eq_false_iff.1 hrun)]

theorem zeroise_refused (d : GReg) {n : Nat}
    (hn : (regFld s .keep 0x018 1 1 ≠ 1 ∧ n = 2) ∨
      (regFld s .keep 0x018 1 1 = 1 ∧ zarmed s (getThr s t.toNat) = false ∧ n = 3) ∨
      (regFld s .keep 0x018 1 1 = 1 ∧ zarmed s (getThr s t.toNat) = true ∧ (s.img.zeroise || s.img.zeroiseFlag) = true ∧ n = 4)) :
    Does (.zeroise t g d) s fun s' => Answered (getThr s t.toNat) (getThr s' t.toNat) d n ∧
      (getThr s' t.toNat).zarm = none ∧ StartsNothing s s' := by
  have hexec := exec_zeroise hissue hpriv hinst hfirst d
  have hcode : exec (.zeroise t g d) s = .next (mgmtCode (disarmed s t) t d n) ∧ n < 256 := by
    obtain ⟨hen, rfl⟩ | ⟨hen, harm, rfl⟩ | ⟨hen, harm, hrun, rfl⟩ := hn
    · exact ⟨by rw [hexec, if_pos hen], by decide⟩
    · exact ⟨by rw [hexec, if_neg (Classical.not_not.2 hen), if_pos harm], by decide⟩
    · exact ⟨by rw [hexec, if_neg (Classical.not_not.2 hen), if_neg (by rw [harm]; decide), if_pos hrun], by decide⟩
  obtain ⟨hanswer, hzarm⟩ := answered_mgmtCode_disarmed s t d hcode.2
  exact ⟨_, hcode.1, hanswer, hzarm, startsNothing_mgmtCode (fetched_setThr_frame s t _).elsewhere t d n⟩

end

/-- Settles O24: RESTORE_FACTORY and ZEROISE accepted, and each refusal of them. -/
theorem managementInstructions : Obligations.ManagementInstructions := by
  unfold Obligations.ManagementInstructions
  intro s t g d hissue hpriv hinst hfirst
  refine ⟨restoreFactory_accepted hissue hpriv hinst hfirst d, fun hen harm hrun => ?_,
    fun n hn => restoreFactory_refused hissue hpriv hinst hfirst d hn, fun n hn => zeroise_refused hissue hpriv hinst hfirst d hn⟩
  have hexec := exec_zeroise_accepted hissue hpriv hinst hfirst d hen harm hrun
  have hbegun := zeroiseTaken_begun (disarmed s t) t d
  refine ⟨⟨_, hexec, hbegun⟩, fun hop hload hl => ⟨_, hexec, ?_⟩⟩
  have hd : SameElsewhere s (disarmed s t) := (fetched_setThr_frame s t _).elsewhere
  dsimp only
  rw [getThr_zeroiseTaken (by rw [hd.op, hop]) (by rw [hd.img, hload]) (by rw [hd.time, hl])]
  obtain ⟨hanswer, hzarm⟩ := answered_mgmtCode_disarmed s t d (n := 0) (by decide)
  exact ⟨hanswer, hzarm, hbegun.1⟩

end Sys2Proof.Safety
end

section
/-! SUPPORT. Loads of weight images (R124 to R126, R129): the order that begins one, the end of one whose check fails, and
the tile of a FULL image of one array. -/

namespace Sys2Proof.Safety

open Sys2Proof Sys2Proof.Machine

/-! ## GO (R124) -/

/-- GO of a load in progress changes no image. -/
theorem startLoad_img_of_busy {s : State} {by_ : Requester} (h : MayOrder s by_ .sec) (hl : s.img.load.isSome = true)
    (m : LoadMode) : (startLoad s by_ m).img = s.img := by
  obtain ⟨hup, hmay, -⟩ := h
  rw [startLoad, orderTo_of_may hup hmay]
  simp [setMode, hl]

/-- GO begins a load in its mode. -/
theorem startLoad_img_of_idle {s : State} {by_ : Requester} (h : MayOrder s by_ .sec) (hl : s.img.load = none)
    (hz : s.img.zeroise = false) (m : LoadMode) :
    (startLoad s by_ m).img =
      { s.img with load := some { mode := m }, loadReason := 0, loadStage := 1, loadDone := false, progress := 0 } := by
  obtain ⟨hup, hmay, -⟩ := h
  rw [startLoad, orderTo_of_may hup hmay]
  simp [setMode, hl, hz]

/-! ## A check that fails (R125, R126) -/

@[simp] theorem emitImage_reg (s : State) (action : Byte) (reason event : Nat) (id : W64) :
    (emitImage s action reason event id).reg = s.reg := by simp [emitImage]

/-- The records of a reserve that is too small leave the images, the tiles and the registers alone. -/
theorem reportReserve_frame (s : State) (m : LoadMode) (f : ImageFile) :
    (reportReserve s m f).img = s.img ∧ (reportReserve s m f).tile = s.tile ∧ (reportReserve s m f).reg = s.reg := by
  simp [reportReserve]

/-- A load that fails without a completion counter ends with its reason, and no other part of the images, no tile differs. -/
theorem failLoad_uncounted {s : State} (hc : (regAct s .sec 0x028).toNat = 0) (r : Nat) (id : W64) :
    (failLoad s r id).img = { s.img with load := none, loadDone := true, loadReason := BitVec.ofNat 8 r } ∧
      (failLoad s r id).tile = s.tile := by
  have hreg (v : State) (h : v.reg = s.reg) : (regAct v .sec 0x028).toNat = 0 := by rw [regAct_of_reg h, hc]
  rw [failLoad, endLoad]
  dsimp only
  rw [if_pos (hreg _ (by simp))]
  simp

/-- The stage of a check that has failed is noted, and the tiles of a reserve that is too small are reported. -/
def faultNoted (s : State) (m : LoadMode) (f : ImageFile) (r : Nat) : State :=
  { (if r = imgReserve then reportReserve s m f else s) with img.loadStage := BitVec.ofNat 4 (stageOf r) }

theorem faultNoted_frame (s : State) (m : LoadMode) (f : ImageFile) (r : Nat) :
    (faultNoted s m f r).img.images = s.img.images ∧ (faultNoted s m f r).tile = s.tile ∧ (faultNoted s m f r).reg = s.reg := by
  unfold faultNoted; dsimp only; split <;> simp [reportReserve_frame]

/-- A failed check ends the load with its reason (R126). -/
theorem imageCommit_fails {s : State} {f : ImageFile} {m : LoadMode} {o : Option Nat} {r : Nat}
    (hl : s.img.load = some ⟨m, none, o⟩) (hr : loadFault s m f = some r) (hc : (regAct s .sec 0x028).toNat = 0) :
    Does (.imageCommit f) s fun s' =>
      s'.img.load = none ∧ s'.img.loadDone = true ∧ s'.img.loadReason = BitVec.ofNat 8 r ∧ s'.img.images = s.img.images ∧
        s'.tile = s.tile := by
  have hexec : exec (.imageCommit f) s = .next (failLoad (faultNoted s m f r) r f.imageId) := by
    change execImageCommit f s = _
    simp [execImageCommit, hl, hr, faultNoted]
  obtain ⟨himages, htile, hreg⟩ := faultNoted_frame s m f r
  obtain ⟨himg, htile'⟩ := failLoad_uncounted (s := faultNoted s m f r) (by rw [regAct_of_reg hreg, hc]) r f.imageId
  refine ⟨_, hexec, ?_⟩
  dsimp only
  rw [himg, htile']
  exact ⟨rfl, rfl, rfl, himages, htile⟩

/-! ## What a reading depends on -/

theorem physTile_of_tile {s s' : State} (h : s'.tile = s.tile) (n : Nat) : physTile s' n = physTile s n := by
  rw [physTile, h, physTile]

theorem logTile_of_tile {s s' : State} (h : s'.tile = s.tile) (p : Nat) : logTile s' p = logTile s p := by
  simp only [logTile, physTile_of_tile h]

/-! ## Checks that pass (R119, R125, R129) -/

/-- A chain of checks passes only when its first check passes and the rest does. -/
theorem ite_some_eq_none {α : Type} {c : Prop} [Decidable c] {a : α} {o : Option α} :
    (if c then some a else o) = none ↔ ¬c ∧ o = none := by
  split <;> simp [*]

/-- An image that passes every check has content that passes. -/
theorem contentFault_of_loadFault {s : State} {m : LoadMode} {f : ImageFile} (h : loadFault s m f = none) :
    contentFault s m f = none := by
  cases hr : contentFault s m f with
  | none => rfl
  | some r => cases hanchor : anchorOf s f <;> simp [loadFault, hr, hanchor, ite_some_eq_none] at h

/-- A FULL load that passes every check takes only tiles that are free. -/
theorem tileUse_of_full {s : State} {f : ImageFile} (h : loadFault s .full f = none) {n : Nat} (hn : n ∈ placeTiles f.placement) :
    tileUse s n = .free := by
  have hc := contentFault_of_loadFault h
  rw [contentFault] at hc
  split at hc
  · cases hc
  · split at hc
    · exact eq_of_beq (List.all_eq_true.1 ‹_› n hn)
    · cases hc

/-! ## The slot of an image (R115) -/

/-- An image that goes to its slot changes no tile. -/
theorem placeImage_tile (s : State) (f : ImageFile) (k base : Nat) : (placeImage s f k base).tile = s.tile := by
  have hw (a : Nat) (l : List (Nat × Byte)) (u : State) : (wrScattered u a l).tile = u.tile := foldl_tile _ (by simp) l u
  simp [placeImage, hw]

/-- Slot `k` holds the image of the file. -/
theorem getImage_placeImage (s : State) (f : ImageFile) (k base : Nat) :
    (getImage (placeImage s f k base) k).imageId = f.imageId ∧ (getImage (placeImage s f k base) k).base = base ∧
      (getImage (placeImage s f k base) k).placement = f.placement := by
  simp [placeImage, getImage]

/-! ## Tiles that are not ready -/

/-- A tile does not go to ACTIVE while an array that its image places is not ready (R129). -/
theorem tryActivate_of_not_ready {s : State} {p k n l : Nat} (hi : (getTile s p).image = some k) (hn : logTile s p = some n)
    (hl : l ∈ placedIn (getImage s k) n) (hr : arrayReady (getTile s p) l = false) : tryActivate s p = s := by
  have hall : (placedIn (getImage s k) n).all (arrayReady (getTile s p)) = false := List.all_eq_false.2 ⟨l, hl, by simp [hr]⟩
  simp [tryActivate, hi, hn, hall]

/-- A load goes on while a tile of its image does not serve (R129). -/
theorem loadCheck_of_not_loaded {s : State} {m : LoadMode} {o : Option Nat} {k n : Nat} (hl : s.img.load = some ⟨m, some k, o⟩)
    (hn : n ∈ imageTiles (getImage s k)) (ht : (getTile s (physTile s n)).loaded = false) : loadCheck s = s := by
  have hall : (imageTiles (getImage s k)).all (tileLoaded s k) = false :=
    List.all_eq_false.2 ⟨n, hn, by simp [tileLoaded, ht]⟩
  simp [loadCheck, hl, hall]

/-! ## A FULL image of one array (R125, R129) -/

/-- The tile of a load that takes image slot `k`, with nothing of an image before (R129). -/
def tileTaken (t : Tile) (k : Nat) : Tile :=
  { t with image := some k, curSlot := [], loaded := false, locked := false, substituted := [], pendMap := [] }

/-- The job that writes a logical array of a FULL image to its physical array. -/
def fullJob (t : Tile) (k l : Nat) : Job := { kind := .full, phys := physArr t l, logical := some l, slot := some k }

/-- The state with an image in its slot and its load committed to it. -/
def imageTaken (s : State) (f : ImageFile) (k base : Nat) : State :=
  { placeImage s f k base with img.load := some { mode := .full, slot := some k, oldSlot := none }, img.loadStage := 8 }

theorem imageTaken_tile (s : State) (f : ImageFile) (k base : Nat) : (imageTaken s f k base).tile = s.tile :=
  placeImage_tile s f k base

/-- A tile that takes an image is asked to write array `l` of it. -/
def arrayAsked (s : State) (p k l : Nat) : State :=
  addJob (setTile s p (tileTaken (getTile s p) k)) p (fullJob (getTile s p) k l)

theorem getTile_arrayAsked (s : State) (p k l : Nat) :
    getTile (arrayAsked s p k l) p = { tileTaken (getTile s p) k with
      jobs := (getTile s p).jobs ++ [{ fullJob (getTile s p) k l with age := s.now }] } := by
  rw [arrayAsked, addJob, getTile_setTile_same, getTile_setTile_same]
  rfl

/-- A logical array whose physical array is a spare is not ready to serve. -/
theorem arrayReady_of_spare {t : Tile} {l : Nat} (hs : t.substituted = []) (hp : t.pendMap = [])
    (hst : (getArr t (physArr t l)).st = .spare) : arrayReady t l = false := by
  simp [arrayReady, pendPhys, hs, hp, tabGet, hst]

/-- A free tile that takes a FULL image of one array, which is a spare, is asked to write it. -/
theorem takeImage_of_spare {s : State} {f : ImageFile} {k n l p : Nat} (kept : List (Nat × Nat)) (hp : physTile s n = p)
    (hlog : logTile s p = some n) (hf : (f.placement.filter fun r => r.tile.toNat == n).map (fun r => r.array.toNat) = [l])
    (hk : placedIn (getImage s k) n = [l]) (hst : (getArr (getTile s p) (physArr (getTile s p) l)).st = .spare) :
    takeImage .full f k kept s n = arrayAsked s p k l := by
  have hprogram : programArr p k (setTile s p (tileTaken (getTile s p) k)) l = arrayAsked s p k l := by
    have hspare : (getArr (tileTaken (getTile s p) k) (physArr (tileTaken (getTile s p) k) l)).st = .spare := hst
    rw [programArr, getTile_setTile_same]
    exact if_neg (by rw [hspare]; decide)
  have hready : arrayReady (getTile (arrayAsked s p k l) p) l = false := by
    rw [getTile_arrayAsked]
    exact arrayReady_of_spare rfl rfl hst
  have hactive : tryActivate (arrayAsked s p k l) p = arrayAsked s p k l :=
    tryActivate_of_not_ready (by rw [getTile_arrayAsked]; rfl) hlog (show l ∈ placedIn (getImage s k) n by simp [hk]) hready
  unfold takeImage
  simp only [hp, hf, List.foldl, reduceCtorEq, false_and, if_false]
  exact (congrArg (tryActivate · p) hprogram).trans hactive

/-- A load goes on while a tile of its image has an array to write. -/
theorem loadCheck_arrayAsked {s : State} {m : LoadMode} {o : Option Nat} {p k l n : Nat} (hp : physTile s n = p)
    (hload : s.img.load = some ⟨m, some k, o⟩) (hn : n ∈ imageTiles (getImage s k)) :
    loadCheck (arrayAsked s p k l) = arrayAsked s p k l := by
  have hp' : physTile (arrayAsked s p k l) n = p := hp
  have hwaits : (getTile (arrayAsked s p k l) p).loaded = false := by rw [getTile_arrayAsked]; rfl
  exact loadCheck_of_not_loaded hload hn (by rw [hp', hwaits])

/-- A FULL image of one array that passes every check: it is in its slot, its load is committed to it, and its tile is asked to
write the array (R125, R129). -/
theorem commitLoad_of_single {s : State} {f : ImageFile} {r : PlaceRec} {k base p : Nat} (hf : f.placement = [r])
    (hp : physTile s r.tile.toNat = p) (hlog : logTile s p = some r.tile.toNat) (hfree : tileUse s r.tile.toNat = .free)
    (hst : (getArr (getTile s p) (physArr (getTile s p) r.array.toNat)).st = .spare) :
    commitLoad s .full f k base = arrayAsked (imageTaken s f k base) p k r.array.toNat := by
  have htile := imageTaken_tile s f k base
  have hplaced : (getImage (imageTaken s f k base) k).placement = [r] := (getImage_placeImage s f k base).2.2.trans hf
  have hp' : physTile (imageTaken s f k base) r.tile.toNat = p := (physTile_of_tile htile _).trans hp
  have htake := fun kept => takeImage_of_spare (s := imageTaken s f k base) (f := f) (k := k) kept hp'
    ((logTile_of_tile htile p).trans hlog) (l := r.array.toNat) (by simp [hf]) (by simp [placedIn, hplaced])
    (by rw [getTile_of_tile htile, hst])
  have hgoes := loadCheck_arrayAsked (s := imageTaken s f k base) (k := k) (l := r.array.toNat) hp' rfl
    (by simp [imageTiles, hplaced])
  have honly : placeTiles f.placement = [r.tile.toNat] := by simp [hf, placeTiles, List.eraseDups_cons]
  rw [commitLoad]
  simp only [honly, List.map_cons, List.map_nil, List.foldl_cons, List.foldl_nil, hfree]
  exact (congrArg loadCheck (htake _)).trans hgoes

/-- A FULL image of one array that passes every check is placed, and its array waits to be written. -/
theorem imageCommit_places {s : State} {f : ImageFile} {o : Option Nat} {k b p : Nat} {r : PlaceRec}
    (hp : physTile s r.tile.toNat = p) (hlog : logTile s p = some r.tile.toNat) (hl : s.img.load = some ⟨.full, none, o⟩)
    (hok : loadFault s .full f = none) (hk : freeSlot s = some k) (hb : slotBase s f.imageLength.toNat = some b)
    (hf : f.placement = [r]) (hst : (getArr (getTile s p) (physArr (getTile s p) r.array.toNat)).st = .spare) :
    Does (.imageCommit f) s fun s' =>
      (getImage s' k).imageId = f.imageId ∧ (getImage s' k).base = b ∧ s'.img.loadStage = 8 ∧
        s'.img.load.map (·.slot) = some (some k) ∧ (getTile s' p).image = some k ∧
        ∃ j ∈ (getTile s' p).jobs, j.kind = .full ∧ j.phys = physArr (getTile s p) r.array.toNat ∧ j.slot = some k ∧
          j.logical = some r.array.toNat := by
  have hfree : tileUse s r.tile.toNat = .free := tileUse_of_full hok (by simp [hf, placeTiles])
  have hexec : exec (.imageCommit f) s = .next (arrayAsked (imageTaken s f k b) p k r.array.toNat) := by
    rw [← commitLoad_of_single hf hp hlog hfree hst]
    change execImageCommit f s = _
    simp [execImageCommit, hl, hok, hk, hb]
  have htile : getTile (imageTaken s f k b) p = getTile s p := getTile_of_tile (imageTaken_tile s f k b) p
  obtain ⟨hid, hbase, -⟩ := getImage_placeImage s f k b
  refine ⟨_, hexec, hid, hbase, rfl, rfl, ?_⟩
  rw [getTile_arrayAsked, htile]
  exact ⟨rfl, _, List.mem_append_right _ (List.mem_singleton_self _), rfl, rfl, rfl, rfl⟩

/-- Settles O47: GO for each mode, a check that fails, and a FULL image of one array. -/
theorem imageLoads : Obligations.ImageLoads := by
  unfold Obligations.ImageLoads
  refine ⟨fun s by_ h q hq => ?_, fun s f m o r hl hr hc => imageCommit_fails hl hr hc,
    fun s f o k b r hlog hl hok hk hb hf hst => imageCommit_places rfl hlog hl hok hk hb hf hst⟩
  have hexec : exec q.1 s = .next (startLoad s by_ q.2) := by
    simp only [List.mem_cons, List.not_mem_nil, or_false] at hq
    obtain rfl | rfl | rfl := hq <;> rfl
  exact ⟨fun hl hz => ⟨_, hexec, startLoad_img_of_idle h hl hz q.2⟩, fun hl => ⟨_, hexec, startLoad_img_of_busy h hl q.2⟩⟩

end Sys2Proof.Safety
end

section
/-! SUPPORT. Commands of the Keep (R123, R374, R375, R435 to R438, R456, R457, R471): the state in which one is taken up, what
its readings depend on, and what each command leaves. -/

namespace Sys2Proof.Safety

open Sys2Proof Sys2Proof.Machine

/-! ## A command that is taken up (R456) -/

/-- The state in which the Keep takes up a command: DONE is clear, and its time runs. -/
def commandBegun (s : State) : State := { s with keep.done := false, keep.since := s.now }

/-- The state in which the Keep takes up a command with an argument. -/
def argTaken (s : State) (arg : W64) : State := commandBegun (setCmdArg s arg)

theorem mayOrder_setCmdArg {s : State} {by_ : Requester} (h : MayOrder s by_ .keep) (arg : W64) :
    MayOrder (setCmdArg s arg) by_ .keep := by
  obtain ⟨hup, hmay, hfirst⟩ := h
  cases by_ <;> exact ⟨hup, hmay, hfirst⟩

section
variable {s : State} {by_ : Requester} (hmay : MayOrder s by_ .keep) (hbusy : s.keep.busy = none) (hrun : s.keep.running = true)
include hmay hbusy hrun

theorem keepCmd_of_idle (f : State → State) : keepCmd s by_ f = f (commandBegun s) := by
  obtain ⟨hup, hmay, -⟩ := hmay
  rw [keepCmd, orderTo_of_may hup hmay]
  simp [hbusy, hrun, commandBegun]

theorem keepArg_of_idle (arg : W64) (f : State → State) : keepArg s by_ arg f = f (argTaken s arg) := by
  rw [keepArg, orderTo_of_may hmay.1 hmay.2.1]
  exact keepCmd_of_idle (mayOrder_setCmdArg hmay arg) hbusy hrun f

end

/-! ## What its readings depend on -/

/-- CMD_ARG is the one register that an argument changes. -/
theorem regAct_argTaken (s : State) (arg : W64) {b : Blk} {o : Nat} (h : blkBase b + o ≠ blkBase .keep + 0x010) :
    regAct (argTaken s arg) b o = regAct s b o := tabGet_tabPut_other _ _ _ _ _ h

theorem fromOwner_argTaken (s : State) (arg : W64) (by_ : Requester) : fromOwner (argTaken s arg) by_ = fromOwner s by_ := by
  rw [fromOwner, regFld, regAct_argTaken s arg (by decide), fromOwner, regFld]

theorem userRanges_argTaken (s : State) (arg : W64) (n : Nat) : userRanges (argTaken s arg) n = userRanges s n := by
  have hreg (i : Nat) : regAct (argTaken s arg) (.inst n) (0x020 + 4 * i) = regAct s (.inst n) (0x020 + 4 * i) :=
    regAct_argTaken s arg (by simp only [blkBase]; omega)
  simp only [userRanges, hreg]

theorem hostRanges_argTaken (s : State) (arg : W64) (n : Nat) : hostRanges (argTaken s arg) n = hostRanges s n := by
  have hreg (a i : Nat) : regAct (argTaken s arg) (.inst n) (a + 16 * i) = regAct s (.inst n) (a + 16 * i) :=
    regAct_argTaken s arg (by simp only [blkBase]; omega)
  simp only [hostRanges, hreg]

theorem inInst_argTaken (s : State) (arg : W64) (n a len : Nat) : inInst (argTaken s arg) n a len = inInst s n a len := by
  simp only [inInst, inUser, userRanges_argTaken, hostRanges_argTaken]

theorem sweepCond_argTaken (s : State) (arg : W64) (n : Nat) : sweepCond (argTaken s arg) n = sweepCond s n := rfl

theorem faultFenced_argTaken (s : State) (arg : W64) (u : UnitId) : faultFenced (argTaken s arg) u = faultFenced s u := rfl

/-- The bytes of a range from one of its places on. -/
theorem drop_take_upFrom {a n k m : Nat} (h : k + m ≤ n) : ((upFrom a n).drop k).take m = upFrom (a + k) m := by
  refine List.ext_getElem? fun i => ?_
  rw [List.getElem?_take, List.getElem?_drop, upFrom_getElem?, upFrom_getElem?]
  split
  · rw [if_pos (by omega), Nat.add_assoc]
  · rfl

theorem drop_take_rdBytes (s : State) (a : Nat) {n k m : Nat} (h : k + m ≤ n) :
    ((rdBytes s a n).drop k).take m = rdBytes s (a + k) m := by
  rw [rdBytes, ← List.map_drop, ← List.map_take, drop_take_upFrom h, rdBytes]

/-! ## Ends of commands -/

/-- A command of the Keep has ended with a result. -/
def KeepEnds (c : Instr) (s : State) (r : Byte) : Prop :=
  Does c s fun s' => s'.keep.busy = none ∧ s'.keep.done = true ∧ s'.keep.result = r

theorem keepEnds_of_endKeep {c : Instr} {s u : State} {n : Nat} (h : exec c s = .next (endKeep u n)) :
    KeepEnds c s (BitVec.ofNat 8 n) := ⟨_, h, rfl, rfl, rfl⟩

section
variable {s : State} {by_ : Requester} (hmay : MayOrder s by_ .keep) (hbusy : s.keep.busy = none) (hrun : s.keep.running = true)
include hmay hbusy hrun

/-! ## RESTORE_FACTORY and ZEROISE (R438, R141) -/

theorem keepRestoreFactory_begins (hz : s.img.zeroise = false) (hflag : s.img.zeroiseFlag = false)
    (hnone : s.keep.restoring = none) :
    Does (.keepRestoreFactory by_) s fun s' =>
      s'.keep.busy = some .restoreFactory ∧ s'.img.userSets = [] ∧ s'.keep.restoring = some (epochNo s) := by
  have hnow : mgmtNow (commandBegun s) 1 = false := mgmtNow_of_first hmay.2.2 1
  have hexec : exec (.keepRestoreFactory by_) s =
      .next (beginKeep (noteMgmt (startRestore (commandBegun s)) 1 none) .restoreFactory) := by
    change Host.Outcome.next (keepCmd s by_ doRestore) = _
    rw [keepCmd_of_idle hmay hbusy hrun, doRestore, hnow]
    simp [commandBegun, hz, hflag, hnone]
  obtain ⟨hrestoring, husers, -⟩ := startRestore_begun (commandBegun s)
  exact ⟨_, hexec, rfl, husers, hrestoring⟩

theorem keepZeroise_bad_arg {arg : W64} (harg : arg ≠ 0x5A45) : KeepEnds (.keepZeroise by_ arg) s 3 := by
  refine keepEnds_of_endKeep (u := argTaken s arg) (n := 3) ?_
  change Host.Outcome.next (keepArg s by_ arg (doZeroise arg)) = _
  rw [keepArg_of_idle hmay hbusy hrun, doZeroise, if_pos harg]

theorem keepZeroise_begins (hz : s.img.zeroise = false) (hflag : s.img.zeroiseFlag = false) :
    Does (.keepZeroise by_ 0x5A45) s fun s' => s'.img.zeroise = true ∧ s'.img.zeroiseFlag = true ∧ s'.img.images = [] ∧
      s'.flt.devFence = true ∧ s'.keep.busy = some .zeroise := by
  have hnow (n : Nat) : mgmtNow (argTaken s 0x5A45) n = false := mgmtNow_of_first hmay.2.2 n
  have hexec : exec (.keepZeroise by_ 0x5A45) s =
      .next (beginKeep (noteMgmt (startZeroise (argTaken s 0x5A45)) 2 none) .zeroise) := by
    change Host.Outcome.next (keepArg s by_ 0x5A45 (doZeroise 0x5A45)) = _
    rw [keepArg_of_idle hmay hbusy hrun, doZeroise, if_neg (by decide), hnow, restoreYields_of_none (hnow 1)]
    simp [argTaken, commandBegun, setCmdArg, hz, hflag]
  obtain ⟨hz', hflag', himages, hfence⟩ := startZeroise_begun (argTaken s 0x5A45)
  exact ⟨_, hexec, hz', hflag', himages, hfence, rfl⟩

/-! ## Sweeps (R437) -/

theorem sweep_takes (hnone : s.keep.restoring = none) (ref : W16) {q : Instr × Nat × W16}
    (hq : q ∈ ([(.sweepConverter by_, 0, 0), (.sweepSensor by_ ref, 1, ref), (.sweepOscillator by_, 2, 0),
      (.sweepReference by_, 3, 0)] : List (Instr × Nat × W16))) :
    (sweepCond s q.2.1 = true → Does q.1 s fun s' => s'.keep.busy = some (.sweep q.2.1 q.2.2)) ∧
      (sweepCond s q.2.1 = false → KeepEnds q.1 s 8) := by
  have hexec : exec q.1 s = .next (doSweep q.2.1 q.2.2 (argTaken s (sweepArg q.2.1 q.2.2))) := by
    rw [← keepArg_of_idle hmay hbusy hrun (sweepArg q.2.1 q.2.2) (doSweep q.2.1 q.2.2)]
    simp only [List.mem_cons, List.not_mem_nil, or_false] at hq
    obtain rfl | rfl | rfl | rfl := hq <;> rfl
  have hidle : (argTaken s (sweepArg q.2.1 q.2.2)).keep.restoring = none := hnone
  rw [doSweep, hidle, if_neg (by simp), sweepCond_argTaken] at hexec
  refine ⟨fun hc => ?_, fun hc => ?_⟩
  · rw [hc] at hexec; exact ⟨_, hexec, rfl⟩
  · rw [hc] at hexec; exact keepEnds_of_endKeep (n := 8) hexec

/-! ## Retests (R375) -/

theorem retest_takes {arg : W64} (hu : unitExists (argUnit arg) = true) (hk : (argUnit arg).kind ≠ 3) :
    (faultFenced s (argUnit arg) = true → Does (.retest by_ arg) s fun s' => s'.keep.busy = some (.retest (argUnit arg))) ∧
      (faultFenced s (argUnit arg) = false → KeepEnds (.retest by_ arg) s 7) := by
  have hexec : exec (.retest by_ arg) s = .next (doRetest (argUnit arg) (argTaken s arg)) :=
    congrArg Host.Outcome.next (keepArg_of_idle hmay hbusy hrun arg _)
  rw [doRetest, hu, if_neg (by decide), if_neg hk, faultFenced_argTaken] at hexec
  refine ⟨fun hf => ?_, fun hf => ?_⟩
  · rw [hf] at hexec; exact ⟨_, hexec, rfl⟩
  · rw [hf] at hexec; exact keepEnds_of_endKeep (n := 7) hexec

/-! ## The owner's store (R123) -/

theorem keepArg_owner (howner : fromOwner s by_ = true) (hz : s.img.zeroise = false) (hflag : s.img.zeroiseFlag = false)
    (arg : W64) (f : State → State) : keepArg s by_ arg (ownerCmd by_ f) = f (argTaken s arg) := by
  have hidle : ((argTaken s arg).img.zeroise || (argTaken s arg).img.zeroiseFlag) = false := by
    change (s.img.zeroise || s.img.zeroiseFlag) = false
    rw [hz, hflag]; rfl
  rw [keepArg_of_idle hmay hbusy hrun, ownerCmd, fromOwner_argTaken, howner, hidle]
  rfl

theorem otpRevoke_revokes (howner : fromOwner s by_ = true) (hz : s.img.zeroise = false) (hflag : s.img.zeroiseFlag = false)
    (arg : W64) :
    Does (.otpRevoke by_ arg) s fun s' => (getAnchor s' (bits arg.toNat 0 4)).revoked = true ∧
      (getAnchor s' (bits arg.toNat 0 4)).hash = (getAnchor s (bits arg.toNat 0 4)).hash := by
  refine ⟨_, congrArg Host.Outcome.next (keepArg_owner hmay hbusy hrun howner hz hflag arg (doRevoke arg)), ?_⟩
  have hanchor : getAnchor (doRevoke arg (argTaken s arg)) (bits arg.toNat 0 4) =
      { getAnchor s (bits arg.toNat 0 4) with revoked := true } := getAnchor_setAnchor_same ..
  exact ⟨by rw [hanchor], by rw [hanchor]⟩

theorem otpFloor_rises (howner : fromOwner s by_ = true) (hz : s.img.zeroise = false) (hflag : s.img.zeroiseFlag = false)
    {arg : W64} (hle : (getAnchor s (bits arg.toNat 0 4)).floor ≤ bits arg.toNat 8 7) (h64 : bits arg.toNat 8 7 ≤ 64) :
    Does (.otpFloor by_ arg) s fun s' => (getAnchor s' (bits arg.toNat 0 4)).floor = bits arg.toNat 8 7 := by
  have hexec := keepArg_owner hmay hbusy hrun howner hz hflag arg (doFloor arg)
  have hok : ¬(64 < bits arg.toNat 8 7 ∨ bits arg.toNat 8 7 < (getAnchor (argTaken s arg) (bits arg.toNat 0 4)).floor) :=
    not_or.2 ⟨Nat.not_lt.2 h64, Nat.not_lt.2 hle⟩
  rw [doFloor, if_neg hok] at hexec
  refine ⟨_, congrArg Host.Outcome.next hexec, ?_⟩
  exact congrArg Anchor.floor (getAnchor_setAnchor_same ..)

theorem otpFloor_refuses (howner : fromOwner s by_ = true) (hz : s.img.zeroise = false) (hflag : s.img.zeroiseFlag = false)
    {arg : W64} (hlt : bits arg.toNat 8 7 < (getAnchor s (bits arg.toNat 0 4)).floor) :
    Does (.otpFloor by_ arg) s fun s' => s'.img.anchors = s.img.anchors ∧ s'.keep.result = 7 := by
  have hexec := keepArg_owner hmay hbusy hrun howner hz hflag arg (doFloor arg)
  rw [doFloor, if_pos (.inr hlt)] at hexec
  exact ⟨_, congrArg Host.Outcome.next hexec, rfl, rfl⟩

theorem otpAnchor_anchors (howner : fromOwner s by_ = true) (hz : s.img.zeroise = false) (hflag : s.img.zeroiseFlag = false)
    {arg : W64} (hin : inInst s 0 arg.toNat 64 = true) (hbad : rangeBad s arg.toNat 64 = false) (hn : rdNat s arg.toNat 1 < 16)
    (hfree : (getAnchor s (rdNat s arg.toNat 1)).valid = false) :
    Does (.otpAnchor by_ arg) s fun s' => (getAnchor s' (rdNat s arg.toNat 1)).valid = true ∧
      (getAnchor s' (rdNat s arg.toNat 1)).hash = BitVec.ofNat 384 (rdNat s (arg.toNat + 16) 48) := by
  have hexec := keepArg_owner hmay hbusy hrun howner hz hflag arg (doAnchor arg)
  have hbytes : rdBytes (argTaken s arg) arg.toNat 64 = rdBytes s arg.toNat 64 := rfl
  have hbad' : rangeBad (argTaken s arg) arg.toNat 64 = false := hbad
  have hslot : at_ (rdBytes s arg.toNat 64) 0 1 = rdNat s arg.toNat 1 := by
    rw [at_, drop_take_rdBytes s _ (by decide), Nat.add_zero, rdNat]
  have hhash : ofBytes (((rdBytes s arg.toNat 64).drop 16).take 48) = rdNat s (arg.toNat + 16) 48 := by
    rw [drop_take_rdBytes s _ (by decide), rdNat]
  have hok : ¬(16 ≤ rdNat s arg.toNat 1 ∨ (getAnchor (argTaken s arg) (rdNat s arg.toNat 1)).valid = true) :=
    not_or.2 ⟨Nat.not_le.2 hn, Bool.eq_false_iff.1 hfree⟩
  rw [doAnchor, hbytes, hslot, hhash, inInst_argTaken, hin, hbad'] at hexec
  simp only [Bool.not_true, Bool.or_self, Bool.false_eq_true, if_false, hok] at hexec
  refine ⟨_, congrArg Host.Outcome.next hexec, ?_⟩
  have hanchor (v : State) (x : Anchor) (m : Nat) :
      getAnchor (endKeep (setAnchor v (rdNat s arg.toNat 1) x) m) (rdNat s arg.toNat 1) = x := getAnchor_setAnchor_same ..
  exact ⟨by rw [hanchor], by rw [hanchor]⟩

theorem otpPolicyBoth_sets (howner : fromOwner s by_ = true) (hz : s.img.zeroise = false) (hflag : s.img.zeroiseFlag = false) :
    Does (.otpPolicyBoth by_) s fun s' => s'.img.policyBoth = true := by
  have hidle : ((commandBegun s).img.zeroise || (commandBegun s).img.zeroiseFlag) = false := by
    change (s.img.zeroise || s.img.zeroiseFlag) = false
    rw [hz, hflag]; rfl
  have hexec := keepCmd_of_idle hmay hbusy hrun (ownerCmd by_ doPolicy)
  rw [ownerCmd, show fromOwner (commandBegun s) by_ = true from howner, hidle] at hexec
  exact ⟨_, congrArg Host.Outcome.next hexec, rfl⟩

/-- Commands of the owner's store end with DENIED for anyone else. -/
theorem owner_denied (howner : fromOwner s by_ = false) (arg : W64) :
    ∀ c ∈ [Instr.otpRevoke by_ arg, .otpFloor by_ arg, .otpAnchor by_ arg, .otpPolicyBoth by_], KeepEnds c s 6 := by
  have hdenied (f : State → State) : keepArg s by_ arg (ownerCmd by_ f) = endKeep (argTaken s arg) 6 := by
    rw [keepArg_of_idle hmay hbusy hrun, ownerCmd, fromOwner_argTaken, howner]; rfl
  intro c hc
  simp only [List.mem_cons, List.not_mem_nil, or_false] at hc
  obtain rfl | rfl | rfl | rfl := hc
  · exact keepEnds_of_endKeep (n := 6) (congrArg Host.Outcome.next (hdenied (doRevoke arg)))
  · exact keepEnds_of_endKeep (n := 6) (congrArg Host.Outcome.next (hdenied (doFloor arg)))
  · exact keepEnds_of_endKeep (n := 6) (congrArg Host.Outcome.next (hdenied (doAnchor arg)))
  · have hpolicy := keepCmd_of_idle hmay hbusy hrun (ownerCmd by_ doPolicy)
    rw [ownerCmd, show fromOwner (commandBegun s) by_ = false from howner] at hpolicy
    exact keepEnds_of_endKeep (n := 6) (congrArg Host.Outcome.next hpolicy)

end

/-! ## Codes that are not listed (R457) -/

theorem keepDo_of_unlisted {c : Byte} (hc : c ∉ [0x01, 0x02, 0x03, 0x04, 0x10, 0x11, 0x12, 0x13]) (by_ : Requester) (arg : W64)
    (s : State) : keepDo by_ c.toNat arg s = endKeep s 2 := by
  have hne (l : Byte) (hl : l ∈ [0x01, 0x02, 0x03, 0x04, 0x10, 0x11, 0x12, 0x13]) : c.toNat ≠ l.toNat :=
    fun h => hc (BitVec.eq_of_toNat_eq h ▸ hl)
  unfold keepDo
  split
  · exact absurd ‹_› (hne 0x01 (by simp))
  · exact absurd ‹_› (hne 0x02 (by simp))
  · exact absurd ‹_› (hne 0x03 (by simp))
  · exact absurd ‹_› (hne 0x04 (by simp))
  · exact absurd ‹_› (hne 0x10 (by simp))
  · exact absurd ‹_› (hne 0x11 (by simp))
  · exact absurd ‹_› (hne 0x12 (by simp))
  · exact absurd ‹_› (hne 0x13 (by simp))
  · rfl

theorem badCode_ends {s : State} {by_ : Requester} (hmay : MayOrder s by_ .keep) (hbusy : s.keep.busy = none)
    (hrun : s.keep.running = true) {c : Byte} (hc : c ∉ [0x01, 0x02, 0x03, 0x04, 0x10, 0x11, 0x12, 0x13]) :
    KeepEnds (.badCode by_ c) s 2 := by
  refine keepEnds_of_endKeep (u := commandBegun s) (n := 2) ?_
  change Host.Outcome.next (keepCmd s by_ _) = _
  rw [keepCmd_of_idle hmay hbusy hrun, keepDo_of_unlisted hc]

/-! ## Commands that end (R436, R438) -/

/-- The state after RESTORE_FACTORY has ended: its threads have been told, and it is in progress no more. -/
def restored (s : State) : State :=
  let u := tellThreads s.keep.restoreBy s
  { u with keep := { u.keep with restoring := none, restoreBy := [] } }

theorem restoreFactoryDone_restores {s : State} {e : Nat} (hrestoring : s.keep.restoring = some e) (hrun : s.keep.running = true)
    (he : e < epochNo s) :
    Does .restoreFactoryDone s fun s' => s'.keep.restoring = none ∧
      (s.keep.busy = some .restoreFactory → s'.keep.busy = none ∧ s'.keep.done = true ∧ s'.keep.result = 0) := by
  have hkeep : (tellThreads s.keep.restoreBy s).keep = s.keep := tellThreads_keeps (·.keep) (fun _ _ _ => rfl) _ s
  have hexec : exec .restoreFactoryDone s =
      .next (if s.keep.busy = some .restoreFactory then endKeep (restored s) 0 else restored s) := by
    change execRestoreFactoryDone s = _
    simp [execRestoreFactoryDone, restored, hrestoring, hrun, he, hkeep]
  refine ⟨_, hexec, ?_⟩
  split
  · exact ⟨rfl, fun _ => ⟨rfl, rfl, rfl⟩⟩
  · next hbusy => exact ⟨rfl, fun h => absurd h hbusy⟩

/-- Sweeps that have found their cells under their condition leave a user set of the next generation. -/
theorem sweepDone_ends {s : State} {n : Nat} {ref : W16} (hbusy : s.keep.busy = some (.sweep n ref)) (hrun : s.keep.running = true)
    (l : List (Nat × Byte)) :
    (sweepCond s n = true → Does (.sweepDone l) s fun s' =>
      s'.img.calGen = s.img.calGen + 1 ∧ (s'.img.userSets.map (·.generation)).head? = some (s.img.calGen + 1) ∧ s'.keep.result = 0 ∧
        s'.keep.busy = none) ∧
      (sweepCond s n = false → Does (.sweepDone l) s fun s' => s'.img = s.img ∧ s'.keep.result = 8 ∧ s'.keep.busy = none) := by
  have hexec : exec (.sweepDone l) s =
      .next (if sweepCond s n then endKeep (writeUserSet s n l) 0 else endKeep s 8) := by
    change execSweepDone l s = _
    simp only [execSweepDone, hbusy, hrun, Bool.not_true, Bool.false_eq_true, if_false]
    split <;> rfl
  refine ⟨fun hc => ?_, fun hc => ?_⟩
  · rw [hc] at hexec; exact ⟨_, hexec, rfl, rfl, rfl, rfl⟩
  · rw [hc] at hexec; exact ⟨_, hexec, rfl, rfl, rfl⟩

/-! ## Ends of retests (R375) -/

/-- The mask of one attention engine clears its bit. -/
theorem getLsbD_clearEngine (f : BitVec 8) (n : Fin 8) : (f &&& ~~~BitVec.ofNat 8 (2 ^ n.val)).getLsbD n = false := by
  have hbit : (BitVec.ofNat 8 (2 ^ n.val)).getLsbD n = true := by revert n; decide
  rw [BitVec.getLsbD_and, BitVec.getLsbD_not, hbit, Bool.not_true, Bool.and_false, Bool.and_false]

theorem unitOf_engine (n : Fin 8) : (unitOf 5 n).kind.toNat = 5 ∧ (unitOf 5 n).num.toNat = n := by
  revert n; decide

theorem restoreUnit_engine (s : State) (n : Fin 8) :
    restoreUnit s (unitOf 5 n) = { s with op.attnFenced := s.op.attnFenced &&& ~~~BitVec.ofNat 8 (2 ^ n.val) } := by
  obtain ⟨hkind, hnum⟩ := unitOf_engine n
  simp only [restoreUnit, hkind, hnum]

theorem endRetest_op (s : State) (u : UnitId) (ok : Bool) : (endRetest s u ok).op = s.op := by
  unfold endRetest; split <;> simp [endKeep]

theorem retestDone_ends {s : State} {n : Fin 8} (hbusy : s.keep.busy = some (.retest (unitOf 5 n))) (hrun : s.keep.running = true)
    (ok : Bool) :
    Does (.retestDone ok) s fun s' => s'.keep.busy = none ∧ s'.keep.result = (if ok then 0 else 0x0A) ∧
      s'.op.attnFenced.getLsbD n = (!ok && s.op.attnFenced.getLsbD n) := by
  have hkind : (unitOf 5 n).kind ≠ 3 := fun h => absurd (congrArg BitVec.toNat h) (by rw [(unitOf_engine n).1]; decide)
  have hexec : exec (.retestDone ok) s =
      .next (endRetest (if ok then restoreUnit s (unitOf 5 n) else s) (unitOf 5 n) ok) := by
    change execRetestDone ok s = _
    simp only [execRetestDone, hbusy, hrun, hkind, Bool.not_true, Bool.false_eq_true, if_false]
  refine ⟨_, hexec, ?_⟩
  cases ok with
  | true =>
    refine ⟨rfl, rfl, ?_⟩
    rw [if_pos rfl, endRetest_op, restoreUnit_engine]
    exact getLsbD_clearEngine s.op.attnFenced n
  | false =>
    refine ⟨rfl, rfl, ?_⟩
    rw [if_neg Bool.false_ne_true, endRetest_op, Bool.not_false, Bool.true_and]

/-! ## The Keep's time limit, its restart and its firmware (R374, R471) -/

theorem keepCommandTimeout_ends {s : State} (hbusy : s.keep.busy = some .unanswered) (hdue : s.keep.since + 400000000 ≤ s.now) :
    KeepEnds .keepCommandTimeout s 5 :=
  keepEnds_of_endKeep (n := 5) (if_pos ⟨hbusy, hdue⟩)

@[simp] theorem emitKeepRestart_keep_mbx (s : State) :
    (emitKeepRestart s).keep = s.keep ∧ (emitKeepRestart s).mbx = s.mbx := by simp [emitKeepRestart]

@[simp] theorem startDom_keep (s : State) (d : Nat) : (startDom s d).keep = s.keep := by
  unfold startDom; split <;> rfl

@[simp] theorem advanceUp_keep (n : Nat) (s : State) : (advanceUp n s).keep = s.keep := by
  induction n generalizing s with
  | zero => rfl
  | succ n ih =>
    unfold advanceUp
    dsimp only
    split
    · rfl
    · split
      · split
        · rfl
        · rw [ih]; exact foldl_keeps (·.keep) _ startDom_keep _ _
      · rfl

@[simp] theorem beginUp_keep (s : State) : (beginUp s).keep = s.keep := by
  unfold beginUp
  split
  · rw [advanceUp_keep]; exact foldl_keeps (·.keep) _ startDom_keep _ _
  · rfl

/-- The Keep as its restart finds it: a command in progress has failed with KEEP_BUSY. -/
def commandCut (s : State) : State := if s.keep.busy.isSome then endKeep s 5 else s

theorem commandCut_ends (s : State) : (commandCut s).keep.busy = none ∧ (commandCut s).mbx = s.mbx ∧
    (s.keep.busy.isSome = true → (commandCut s).keep.result = 5) := by
  unfold commandCut
  split
  · exact ⟨rfl, rfl, fun _ => rfl⟩
  · next hidle => exact ⟨by simpa using hidle, rfl, fun h => absurd h hidle⟩

/-- The record of a Keep that has restarted and runs, and the alert. -/
def bootTold (s : State) : State := updAlert (if s.keep.running then emitKeepRestart s else s)

theorem bootTold_keep_mbx (s : State) : (bootTold s).keep = s.keep ∧ (bootTold s).mbx = s.mbx := by
  unfold bootTold; split <;> simp

theorem keepWatchdog_restarts {s : State} (hrun : s.keep.running = true) (a b : Bool) :
    Does (.keepWatchdog a b) s fun s' =>
      s'.keep.running = (a || b) ∧ s'.keep.recovery = (!a && !b) ∧ s'.keep.busy = none ∧ s'.mbx = s.mbx ∧
        (s.keep.busy.isSome = true → s'.keep.result = 5) := by
  have hexec : exec (.keepWatchdog a b) s = .next (bootTold (bootKeep (commandCut s) a b)) := if_neg (by simp [hrun])
  obtain ⟨hbusy, hmbx, hresult⟩ := commandCut_ends s
  obtain ⟨hkeep, hmbx'⟩ := bootTold_keep_mbx (bootKeep (commandCut s) a b)
  refine ⟨_, hexec, ?_⟩
  simp only [hkeep, hmbx']
  exact ⟨rfl, Bool.not_or a b, hbusy, hmbx, hresult⟩

theorem pldmFirmwareUpdate_recovers {s : State} (hrec : s.keep.recovery = true) (a : Bool) :
    Does (.pldmFirmwareUpdate a) s fun s' => s'.keep.fwA = a ∧ s'.keep.running = a := by
  refine ⟨_, if_pos hrec, ?_⟩
  cases a <;> simp [bootKeep]

theorem pldmFirmwareUpdate_waits {s : State} (hrec : s.keep.recovery = false) (a : Bool) :
    Does (.pldmFirmwareUpdate a) s fun s' => s'.keep.fwA = a ∧ s'.keep.fwNew = true ∧ s'.mbx = s.mbx :=
  ⟨_, if_neg (by simp [hrec]), rfl, rfl, rfl⟩

/-! ## The obligation -/

/-- Settles O59: commands that are taken up run on the state of `commandBegun` or `argTaken`, whose readings are those of
before; what ends a command later is said per event. -/
theorem keepCommands : Obligations.KeepCommands := by
  unfold Obligations.KeepCommands
  refine ⟨?_, fun _ _ => restoreFactoryDone_restores, fun _ _ _ l hbusy hrun => sweepDone_ends hbusy hrun l,
    fun _ _ ok hbusy hrun => retestDone_ends hbusy hrun ok, fun _ => keepCommandTimeout_ends,
    fun _ a b => ⟨fun hrun => keepWatchdog_restarts hrun a b, fun hrec => pldmFirmwareUpdate_recovers hrec a,
      fun hrec => pldmFirmwareUpdate_waits hrec a⟩⟩
  intro s by_ arg hmay hbusy hrun
  refine ⟨keepRestoreFactory_begins hmay hbusy hrun, keepZeroise_bad_arg hmay hbusy hrun,
    fun hz hflag _ _ => keepZeroise_begins hmay hbusy hrun hz hflag,
    fun ref hnone _ => sweep_takes hmay hbusy hrun hnone ref, retest_takes hmay hbusy hrun, ?_,
    fun howner => owner_denied hmay hbusy hrun howner arg, fun _ => badCode_ends hmay hbusy hrun⟩
  intro howner hz hflag
  exact ⟨otpRevoke_revokes hmay hbusy hrun howner hz hflag arg, otpFloor_rises hmay hbusy hrun howner hz hflag,
    otpFloor_refuses hmay hbusy hrun howner hz hflag, otpAnchor_anchors hmay hbusy hrun howner hz hflag,
    otpPolicyBoth_sets hmay hbusy hrun howner hz hflag⟩

end Sys2Proof.Safety
end

section
/-! SUPPORT. Bytes in one stack (R6, R331, R335): an aligned range that no stack boundary cuts, and what is read where it was
written. -/

namespace Sys2Proof.Safety

open Sys2Proof Sys2Proof.Machine

/-- An aligned range whose length divides 32 KB lies in one stack (R331). -/
theorem stackOf_add {n a k : Nat} (hn : n ∣ 2 ^ 15) (ha : n ∣ a) (hk : k < n) : stackOf (a + k) = stackOf a := by
  obtain ⟨m, hm⟩ := hn
  obtain ⟨b, rfl⟩ := ha
  have hpos : 0 < n := by omega
  simp only [stackOf, hm, ← Nat.div_div_eq_div_mul, Nat.mul_add_div hpos, Nat.div_eq_of_lt hk, Nat.add_zero,
    Nat.mul_div_cancel_left b hpos]

theorem getStack_wrBytes (s : State) (i : Inst) (a : Nat) (bs : List Byte) (k : Nat) :
    getStack (wrBytes s i a bs) k = getStack s k := by
  unfold wrBytes
  split
  · rfl
  · split <;> rfl

theorem isStacked_of_le {a n : Nat} (h : a + n ≤ stackedEnd) (hn : 0 < n) : isStacked a = true := by
  rw [isStacked, decide_eq_true_eq]
  omega

/-- Bytes written to an aligned range of a stack in service are what it holds. -/
theorem cellGet_wrBytes {s : State} {a : Nat} {bs : List Byte} (hn : bs.length ∣ 2 ^ 15) (ha : bs.length ∣ a)
    (hend : a + bs.length ≤ stackedEnd) (hfence : (getStack s (stackOf a)).fenced = false) (i : Inst) {k : Nat}
    (hk : k < bs.length) : cellGet (wrBytes s i a bs).mem.cells (a + k) = bs.getD k 0 := by
  rw [wrBytes, if_pos (isStacked_of_le hend (by omega)), wrStacked_get,
    if_pos ⟨by omega, by omega, by rw [stackOf_add hn ha hk, hfence]⟩, Nat.add_sub_cancel_left]

/-- A number written to an aligned range of a stack in service is held there. -/
theorem holds_wrNat {s : State} {a n : Nat} (hn : n ∣ 2 ^ 15) (ha : n ∣ a) (hend : a + n ≤ stackedEnd)
    (hfence : (getStack s (stackOf a)).fenced = false) (i : Inst) (v : Nat) : Holds (wrNat s i a n v) a n v :=
  fun k hk => wrNat_get s i a n v k (isStacked_of_le hend (by omega)) hk (by rw [stackOf_add hn ha hk, hfence])

/-- A number that stacked memory holds is what is read there. -/
theorem rdNat_of_holds {s : State} {a n v : Nat} (h : Holds s a n v) (hend : a + n ≤ stackedEnd) :
    rdNat s a n = v % 256 ^ n := by
  have hbytes := rdBytes_of_get s a (toBytes v n) (by simpa using hend) fun k hk => by
    rw [length_toBytes] at hk
    rw [h k hk, toBytes_getD v n k hk]
  rw [length_toBytes] at hbytes
  rw [rdNat, hbytes, ofBytes_toBytes]

end Sys2Proof.Safety
end

section
/-! SUPPORT. The life of an operation (R226, R227): the start of a collective that finds no free engine, the limit of a wait,
and what a completion leaves of the operation's entry and of its status. -/

namespace Sys2Proof.Safety

open Sys2Proof Sys2Proof.Machine

/-! ## The start (R226) -/

/-- The state in which an operation has started and its checks are made. -/
def opStarted (s : State) (e : Nat) : State :=
  setOp { s with mbx.orderNo := s.mbx.orderNo + 1 } e
    { getOp s e with started := true, startAt := s.now, startNo := s.mbx.orderNo + 1 }

theorem getOp_opStarted (s : State) (e : Nat) :
    getOp (opStarted s e) e = { getOp s e with started := true, startAt := s.now, startNo := s.mbx.orderNo + 1 } :=
  getOp_setOp_same ..

theorem opBody_opStarted (s : State) (e : Nat) : opBody (opStarted s e) e = opBody s e := by
  simp only [opBody, getOp_opStarted]
  rfl

/-- The record of a group and the checks of a collective do not depend on what a start notes. -/
theorem collChecks_opStarted (s : State) (e : Nat) (i : Inst) :
    groupRec (opStarted s e) i = groupRec s i ∧ collFault (opStarted s e) i = collFault s i ∧
      freeColl (opStarted s e) = freeColl s := ⟨rfl, rfl, rfl⟩

theorem execOperationStart_of_ready {s : State} {e : OpIx} (hused : (getOp s e).used = true)
    (hstarted : (getOp s e).started = false) (hlaunch : (getOp s e).launch = none) (hresult : (getOp s e).result = none)
    (hflags : (getOp s e).flags.toNat < 2) (htime : s.now < (getOp s e).issued + 2 ^ 30 * 40) :
    execOperationStart e s = .next (startOp s e none) := by
  have hwait : bit (getOp s e).flags.toNat 1 = false := by
    rw [bit, Nat.div_eq_of_lt (by omega)]
    rfl
  have hover : waitOver s (getOp s e) = false := by
    rw [waitOver, decide_eq_false_iff_not]
    omega
  simp [execOperationStart, hused, hstarted, hlaunch, hresult, hwait, hover, waitMet]

/-- An operation of the collectives whose body can be read comes to the checks of R244. -/
theorem startOp_of_coll {s : State} {e : Nat} (hfence : s.flt.devFence = false)
    (hbody : (getOp s e).body ≠ [] ∨ rangeBad s (getOp s e).addr.toNat 128 = false)
    (hkind : 0xE0 ≤ (getOp s e).kind.toNat) : startOp s e none = bumpFree (startColl (opStarted s e) e none) := by
  have hread : ((getOp s e).body.isEmpty &&
      rangeBad (opStarted s e) (getOp s e).addr.toNat (kindSize (getOp s e).kind.toNat)) = false := by
    have hsize : kindSize (getOp s e).kind.toNat = 128 := by
      rw [kindSize, kindShort, if_neg]
      simp only [Bool.or_eq_true, beq_iff_eq]
      omega
    rw [hsize, Bool.and_eq_false_iff]
    exact hbody.imp (by simp) id
  have hdev : (opStarted s e).flt.devFence = false := hfence
  unfold startOp
  dsimp only
  change (if (opStarted s e).flt.devFence = true then _ else _) = _
  rw [hdev, if_neg Bool.false_ne_true]
  change (if ((getOp s e).body.isEmpty &&
    rangeBad (opStarted s e) (getOp s e).addr.toNat (kindSize (getOp s e).kind.toNat)) = true then _ else _) = _
  rw [hread, if_neg Bool.false_ne_true]
  repeat rw [if_neg (by omega)]
  rfl

/-! ## Collectives (R244, R323, R324) -/

/-- The work of a collective as its descriptor and the record of its group give it. -/
def collDescribed (s : State) (e : Nat) (g : GroupRec) : CollWork :=
  { collWork (opBody s e) (getOp s e).kind.toNat with
    members := g.members, rank := g.rank, coord := g.coord, listCrc := g.crc }

/-- The group of an operation's collective, by its number. -/
def collGroup (s : State) (e : Nat) : Nat := (collWork (opBody s e) (getOp s e).kind.toNat).group.toNat

/-- The number under which the collectives of an operation's group are counted. -/
def collKey (s : State) (e : Nat) : Nat := (getOp s e).inst.val * 65536 + collGroup s e

/-- The state in which a collective that passed its checks has its number in its group, and no engine. -/
def collNumbered (s : State) (e : Nat) (g : GroupRec) : State :=
  let q := tabGet 0 s.op.collSeq (collKey s e) + 1
  startWork { s with op.collSeq := tabPut s.op.collSeq (collKey s e) q } e
    (.coll { collDescribed s e g with cseq := q, startAt := s.now, timedAt := none })

theorem grantColl_of_no_engine {s : State} (h : freeColl s = none) (n : Nat) : grantColl n s = s := by
  cases n with
  | zero => rfl
  | succ n => simp only [grantColl, h]

/-- Without a free engine, a collective that passes its checks waits with its number. -/
theorem startColl_of_no_engine {s : State} {e : Nat} {g : GroupRec} (hfree : freeColl s = none)
    (hg : groupRec s (getOp s e).inst (collGroup s e) = some g)
    (hok : collFault s (getOp s e).inst (opBody s e) (collDescribed s e g) (some g) = none) :
    startColl s e none = collNumbered s e g := by
  have hfree' : freeColl (collNumbered s e g) = none := hfree
  have hg' : groupRec s (getOp s e).inst (collWork (opBody s e) (getOp s e).kind.toNat).group.toNat = some g := hg
  unfold startColl
  simp only [hg']
  change (match collFault s (getOp s e).inst (opBody s e) (collDescribed s e g) (some g) with
    | some (r, d) => failStart s e r d
    | none => grantColl 4 (collNumbered s e g)) = _
  rw [hok]
  exact grantColl_of_no_engine hfree' 4

/-- A collective that waits with its number is under way, has no engine, and its group's count is one higher. -/
theorem collNumbered_waits {s : State} {e : Nat} (hresult : (getOp s e).result = none) (g : GroupRec) :
    (getOp (collNumbered s e g) e).started = (getOp s e).started ∧ (getOp (collNumbered s e g) e).result = none ∧
      ((collOf (collNumbered s e g) e).any fun w => w.engine.isNone) = true ∧
      tabGet 0 (collNumbered s e g).op.collSeq (collKey s e) = tabGet 0 s.op.collSeq (collKey s e) + 1 := by
  have hop : getOp (collNumbered s e g) e = { getOp s e with
      work := .coll { collDescribed s e g with
        cseq := tabGet 0 s.op.collSeq (collKey s e) + 1, startAt := s.now, timedAt := none } } := getOp_setOp_same ..
  have hcoll : collOf (collNumbered s e g) e = some { collDescribed s e g with
      cseq := tabGet 0 s.op.collSeq (collKey s e) + 1, startAt := s.now, timedAt := none } := by
    simp [collOf, hop, hresult]
  refine ⟨by rw [hop], by rw [hop, hresult], by rw [hcoll]; rfl, tabGet_tabPut_same ..⟩

/-! ## The limit of a wait (R226) -/

theorem execWaitExpired_of_over {s : State} {e : OpIx} (hused : (getOp s e).used = true)
    (hstarted : (getOp s e).started = false) (hlaunch : (getOp s e).launch = none) (hresult : (getOp s e).result = none)
    (htime : (getOp s e).issued + 2 ^ 30 * 40 ≤ s.now) :
    execWaitExpired e s = .next (setOp s e { getOp s e with result := some rWaitExpired, detail := 0xFFFF }) := by
  have hover : waitOver s (getOp s e) = true := decide_eq_true htime
  simp [execWaitExpired, hused, hstarted, hlaunch, hresult, hover, setResult, rWaitExpired]

/-! ## The completion (R227) -/

/-- An entry that is freed is an unused one, whichever thread is served next. -/
theorem getOp_freeOp (s : State) (e : Nat) : getOp (freeOp s e) e = {} := by
  unfold freeOp
  dsimp only
  simp [getOp]

theorem getOp_completeWith (s : State) (e : Nat) (r : Byte) : getOp (completeWith s e r) e = {} := getOp_freeOp ..

theorem getStack_ringRecord (s : State) (n : Inst) (v : Event) (k : Nat) : getStack (ringRecord s n v) k = getStack s k := by
  unfold ringRecord
  dsimp only
  split
  · split
    · exact getStack_wrBytes ..
    · have hirq (u : State) : (raiseIrq u n 0).mem = u.mem := by simp
      rw [getStack_of_mem (hirq _)]
      exact (getStack_wrBytes ..).trans (getStack_wrBytes ..)
  · rfl

theorem getStack_emitOp (s : State) (e : Nat) (o : Op) (r : Byte) (k : Nat) :
    getStack (emitOp s e o r) k = getStack s k := by
  unfold emitOp emit
  dsimp only
  split <;> simp only [getStack_ringRecord] <;> rfl

/-- The state after an operation's record and before its status. -/
def resultTold (s : State) (e : Nat) (r : Byte) : State := if r = 0 then s else emitOp s e (getOp s e) r

theorem getStack_resultTold (s : State) (e : Nat) (r : Byte) (k : Nat) :
    getStack (resultTold s e r) k = getStack s k := by
  unfold resultTold
  split
  · rfl
  · exact getStack_emitOp ..

/-- With no counter to add to, the status is the last that a completion writes. -/
theorem completeWith_mem {s : State} {e : Nat} (hdone : (getOp s e).doneCnt = 0) (hstatus : (getOp s e).statusAddr ≠ 0)
    (r : Byte) : (completeWith s e r).mem =
      (wrBytes (resultTold s e r) (getOp s e).inst (getOp s e).statusAddr.toNat (statusBytes (getOp s e) r)).mem := by
  unfold completeWith
  dsimp only
  rw [if_pos hdone, if_neg hstatus]
  simp [resultTold]

/-- A status is the result and a byte of flags, the detail, the tag, and the two counts (R227). -/
theorem statusBytes_shape (o : Op) (r : Byte) : ∃ f rest, (statusBytes o r).length = 16 ∧
    statusBytes o r = r :: f :: (toBytes o.detail.toNat 2 ++ (toBytes o.tag.toNat 4 ++ rest)) :=
  ⟨_, toBytes (satN 32 o.countA) 4 ++ toBytes (satN 32 o.countB) 4, by simp [statusBytes], by
    simp only [statusBytes, List.append_assoc, List.cons_append, List.nil_append]
    rfl⟩

theorem statusBytes_tag (o : Op) (r : Byte) {k : Nat} (hk : k < 4) :
    (statusBytes o r).getD (4 + k) 0 = BitVec.ofNat 8 (o.tag.toNat / 256 ^ k) := by
  obtain ⟨f, rest, -, hshape⟩ := statusBytes_shape o r
  rw [hshape, show 4 + k = 2 + k + 1 + 1 by omega, List.getD_cons_succ, List.getD_cons_succ,
    List.getD_eq_getElem?_getD, List.getElem?_append_right (by rw [length_toBytes]; omega), length_toBytes, Nat.add_sub_cancel_left,
    List.getElem?_append_left (by rw [length_toBytes]; exact hk), ← List.getD_eq_getElem?_getD, toBytes_getD _ _ _ hk]

/-- With no counter to add to, the 16 bytes of a completed operation's status hold it (R227). -/
theorem completeWith_status {s : State} {e : Nat} (hdone : (getOp s e).doneCnt = 0) (hstatus : (getOp s e).statusAddr ≠ 0)
    (hend : (getOp s e).statusAddr.toNat + 16 ≤ stackedEnd) (halign : (getOp s e).statusAddr.toNat % 16 = 0)
    (hfence : (getStack s (stackOf (getOp s e).statusAddr.toNat)).fenced = false) (r : Byte) {k : Nat} (hk : k < 16) :
    cellGet (completeWith s e r).mem.cells ((getOp s e).statusAddr.toNat + k) = (statusBytes (getOp s e) r).getD k 0 := by
  obtain ⟨-, -, hlen, -⟩ := statusBytes_shape (getOp s e) r
  rw [completeWith_mem hdone hstatus]
  exact cellGet_wrBytes (by rw [hlen]; decide) (by rw [hlen]; exact Nat.dvd_of_mod_eq_zero halign) (by rwa [hlen])
    (by rw [getStack_resultTold, hfence]) _ (by rwa [hlen])

/-- The state in which a completed operation has left its engine. -/
def engineLeft (s : State) (e : Nat) : State := releaseColl (releaseXfer (dropReads s e) e) e

theorem releaseXfer_of_no_xfer {s : State} {e : Nat} (h : ∀ w, (getOp s e).work ≠ .xfer w) : releaseXfer s e = s := by
  unfold releaseXfer
  split
  next w hw => exact absurd hw (h w)
  · rfl

theorem grantColl_of_no_waiter {s : State} (h : waitingColls s = []) (n : Nat) : grantColl n s = s := by
  cases n with
  | zero => rfl
  | succ n =>
    simp only [grantColl, h, leastBy]
    split
    next hnone => cases hnone
    · rfl

/-- An engine that is free again and that nothing waits for changes neither operations nor memory. -/
theorem releaseColl_of_no_waiter {s : State} (h : waitingColls s = []) (e : Nat) :
    (releaseColl s e).op.table = s.op.table ∧ (releaseColl s e).mem = s.mem := by
  unfold releaseColl
  dsimp only
  split
  · exact ⟨rfl, rfl⟩
  · have htable (l : List Nat) : (l.foldl (fun s x => setColl s x { getColl s x with op := none }) s).op.table = s.op.table :=
      foldl_keeps (·.op.table) _ (by intros; rfl) l s
    rw [grantColl_of_no_waiter (by rw [waitingColls, htable]; exact h)]
    exact ⟨htable _, foldl_mem _ (by intros; rfl) _ s⟩

theorem engineLeft_keeps {s : State} {e : Nat} (hxfer : ∀ w, (getOp s e).work ≠ .xfer w) (hwait : waitingColls s = []) :
    (engineLeft s e).op.table = s.op.table ∧ (engineLeft s e).mem = s.mem := by
  rw [engineLeft, releaseXfer_of_no_xfer (s := dropReads s e) hxfer]
  exact releaseColl_of_no_waiter (s := dropReads s e) hwait e

theorem execOperationComplete_of_ready {s : State} {e : OpIx} {r : Byte} (hused : (getOp s e).used = true)
    (hresult : (getOp s e).result = some r) (hout : (getOp s e).grouped = true → (getOp s e).outcome.isSome = true)
    (hidle : opBusy s e = false) : execOperationComplete e s = .next (completeWith (engineLeft s e) e r) := by
  have hready : opReady s e = true := by
    cases hgrouped : (getOp s e).grouped with
    | false => simp [opReady, hused, hresult, hidle, hgrouped]
    | true => simp [opReady, hused, hresult, hidle, hout hgrouped]
  rw [execOperationComplete, if_pos hready, completeOp, hresult]
  rfl

/-- Settles O31: a collective without an engine waits in the state of `collNumbered`; a wait that is over sets the result;
a completion ends with `freeOp`, and its status is the last that it writes. -/
theorem operationLife : Obligations.OperationLife := by
  unfold Obligations.OperationLife
  refine ⟨?_, ?_, ?_⟩
  · intro s e o k hused hstarted hlaunch hresult hflags htime hfence hbody hkind hfree hok hgroup
    obtain ⟨g, hg⟩ := Option.isSome_iff_exists.1 hgroup
    have hop := getOp_opStarted s e
    have hbody' := opBody_opStarted s e
    obtain ⟨hrec, hfault, hengine⟩ := collChecks_opStarted s e o.inst
    have hcoll : startColl (opStarted s e) e none = collNumbered (opStarted s e) e g := by
      refine startColl_of_no_engine (hengine.trans hfree) ?_ ?_
      · rw [collGroup, hop, hbody', hrec]
        exact hg
      · rw [collDescribed, hop, hbody', hfault]
        exact hok g hg
    have hkey : collKey (opStarted s e) e = k := by rw [collKey, collGroup, hop, hbody']
    obtain ⟨hst, hres, hnone, hseq⟩ := collNumbered_waits (s := opStarted s e) (by rw [hop]; exact hresult) g
    refine ⟨_, execOperationStart_of_ready hused hstarted hlaunch hresult hflags htime, ?_⟩
    rw [startOp_of_coll hfence hbody hkind, hcoll]
    rw [hkey] at hseq
    exact ⟨hst.trans (by rw [hop]), hres, hnone, hseq, rfl⟩
  · intro s e o hused hstarted hlaunch hresult htime
    exact ⟨_, execWaitExpired_of_over hused hstarted hlaunch hresult htime, getOp_setOp_same ..,
      fun f hf => getOp_setOp_other _ _ _ _ hf⟩
  · intro s e r o hused hresult hout hidle
    refine ⟨_, execOperationComplete_of_ready hused hresult hout hidle, by rw [getOp_completeWith],
      fun hxfer hwait hstatus hdone hend halign hfence => ?_⟩
    obtain ⟨htable, hmem⟩ := engineLeft_keeps hxfer hwait
    have hop : getOp (engineLeft s e) e = o := by rw [getOp, htable, ← getOp]
    have hbytes {k : Nat} (hk : k < 16) :=
      completeWith_status (s := engineLeft s e) (e := e) (by rwa [hop]) (by rwa [hop]) (by rwa [hop]) (by rwa [hop])
        (by rwa [hop, getStack_of_mem hmem]) r hk
    rw [hop] at hbytes
    refine ⟨?_, fun k hk => ?_⟩
    · obtain ⟨f, rest, -, hshape⟩ := statusBytes_shape o r
      have hfirst := hbytes (k := 0) (by omega)
      rwa [hshape] at hfirst
    · rw [Nat.add_assoc, hbytes (by omega), statusBytes_tag o r hk]

end Sys2Proof.Safety
end

section
/-! SUPPORT. Quantise and seals (R233, R234, R263): what the rendezvous of a vector leaves of positions and of memory, and that
a page that is sealed reads back with DVALID set. -/

namespace Sys2Proof.Safety

open Sys2Proof Sys2Proof.Machine

/-! ## Quantise (R233, R234) -/

/-- The rows of a vector that meet at quantise. -/
def quantRows (w : PassWork) (v : Nat) : List (List W32) :=
  (nblocksOf w.items).map fun n => tabGet [] w.y (v * 65536 + n)

/-- What quantise gives for a vector: the codes, the scale without RMS, the scale to be delivered, and the flags. -/
def quantOf (w : PassWork) (v : Nat) : List (List Byte) × W32 × W32 × BitVec 4 :=
  quantise (quantRows w v) w.drain.rms w.drain.eps

/-- The codes of FP4 output written to memory. -/
def codesWritten (s : State) (inst : Inst) (w : PassWork) (v : Nat) : State :=
  ((nblocksOf w.items).zip (quantOf w v).1).foldl
    (fun s (n, c) => wrBytes s inst (w.drain.dst.toNat + v * w.drain.dstStride + n * 512) c) s

/-- The codes of FP4 output and then its scale written to memory. -/
def fp4Written (s : State) (inst : Inst) (w : PassWork) (v : Nat) : State :=
  wrNat (codesWritten s inst w v) inst (w.drain.scaleOut.toNat + 4 * v) 4 (quantOf w v).2.1.toNat

/-- The state after the memory output of a vector, if it has any. -/
def outputWritten (s : State) (inst : Inst) (w : PassWork) (v : Nat) : State :=
  if (w.drain.mem && w.drain.fmt == 4) = true then fp4Written s inst w v else s

/-- The codes of the output block that a position item names. -/
def blockCodes (w : PassWork) (v n : Nat) : List Byte :=
  match firstOf (fun (k, _) => k == n) ((nblocksOf w.items).zip (quantOf w v).1) with
  | some (_, c) => c
  | none => []

/-- The position writes that a vector makes. -/
def vectorWrites (e : Nat) (w : PassWork) (v : Nat) : List PosWrite :=
  posWrites e v w.drain.posItems (blockCodes w v) (quantOf w v).2.2.1

/-- The state after the position writes of a vector, if it makes any. -/
def writesAsked (s : State) (e : Nat) (w : PassWork) (v : Nat) : State :=
  if w.drain.pos = true then { s with op.posQueue := s.op.posQueue ++ vectorWrites e w v } else s

/-- The state after a vector's flags, its output to memory and its position writes. -/
def vectorOut (s : State) (e : Nat) (w : PassWork) (v : Nat) : State :=
  writesAsked (outputWritten (opFlags s e (quantOf w v).2.2.2) (getOp s e).inst w v) e w v

/-- The work of an operation one of whose vectors is quantised: its rows are kept no longer. -/
def vectorDone (w : PassWork) (v : Nat) : PassWork :=
  { w with quantised := v :: w.quantised, y := w.y.filter fun (k, _) => k / 65536 != v }

theorem execQuantiseRendezvous_of_known {s : State} {e : OpIx} {v : Fin 32} {w : PassWork} (hw : passOf s e = some w)
    (hneeds : needsQuant w = true) (hv : v.val < w.vectors)
    (hknown : ∀ n ∈ nblocksOf w.items, tabHas w.y (v.val * 65536 + n) = true)
    (hnew : w.quantised.contains v.val = false) (hresult : (getOp s e).result = none) :
    execQuantiseRendezvous e v s = .next (putPass (vectorOut s e w v) e (vectorDone w v)) := by
  have hready : ((nblocksOf w.items).all fun n => tabHas w.y (v.val * 65536 + n)) = true := List.all_eq_true.2 hknown
  have hgo : (needsQuant w && ((nblocksOf w.items).all fun n => tabHas w.y (v.val * 65536 + n)) && decide (v.val < w.vectors) &&
      !w.quantised.contains v.val && (getOp s e).result.isNone) = true := by
    simp only [hneeds, hready, hv, hnew, hresult, decide_true, Bool.not_false, Option.isNone_none, Bool.and_self]
  simp only [execQuantiseRendezvous, hw]
  rw [if_pos hgo]
  rfl

theorem opFlags_posQueue_seals (s : State) (e : Nat) (f : BitVec 4) :
    (opFlags s e f).op.posQueue = s.op.posQueue ∧ (opFlags s e f).op.seals = s.op.seals := by
  unfold opFlags
  dsimp only
  split <;> exact ⟨rfl, rfl⟩

theorem codesWritten_keeps (s : State) (inst : Inst) (w : PassWork) (v : Nat) :
    (codesWritten s inst w v).op = s.op ∧ ∀ k, getStack (codesWritten s inst w v) k = getStack s k :=
  ⟨foldl_op _ (by simp) _ s,
    fun k => foldl_keeps (getStack · k) _ (fun _ _ => getStack_wrBytes ..) _ s⟩

theorem outputWritten_op (s : State) (inst : Inst) (w : PassWork) (v : Nat) : (outputWritten s inst w v).op = s.op := by
  unfold outputWritten
  split
  · simp [fp4Written, codesWritten_keeps]
  · rfl

/-- The scale of FP4 output follows its codes, so that it is held whatever they overlap (R233). -/
theorem outputWritten_scale {s : State} {w : PassWork} {v : Nat} (hfp4 : (w.drain.mem && w.drain.fmt == 4) = true)
    (halign : (w.drain.scaleOut.toNat + 4 * v) % 4 = 0) (hend : w.drain.scaleOut.toNat + 4 * v + 4 ≤ stackedEnd)
    (hfence : (getStack s (stackOf (w.drain.scaleOut.toNat + 4 * v))).fenced = false) (inst : Inst) :
    Holds (outputWritten s inst w v) (w.drain.scaleOut.toNat + 4 * v) 4 (quantOf w v).2.1.toNat := by
  rw [outputWritten, if_pos hfp4]
  exact holds_wrNat (by decide) (Nat.dvd_of_mod_eq_zero halign) hend (by rw [(codesWritten_keeps s inst w v).2, hfence]) inst _

theorem writesAsked_mem (s : State) (e : Nat) (w : PassWork) (v : Nat) : (writesAsked s e w v).mem = s.mem := by
  unfold writesAsked
  split <;> rfl

theorem vectorOut_mem (s : State) (e : Nat) (w : PassWork) (v : Nat) :
    (vectorOut s e w v).mem = (outputWritten (opFlags s e (quantOf w v).2.2.2) (getOp s e).inst w v).mem :=
  writesAsked_mem ..

theorem vectorOut_posQueue (s : State) (e : Nat) (w : PassWork) (v : Nat) : (vectorOut s e w v).op.posQueue =
    if w.drain.pos = true then s.op.posQueue ++ vectorWrites e w v else s.op.posQueue := by
  have hkept : (outputWritten (opFlags s e (quantOf w v).2.2.2) (getOp s e).inst w v).op.posQueue = s.op.posQueue := by
    rw [outputWritten_op, (opFlags_posQueue_seals ..).1]
  unfold vectorOut writesAsked
  split
  · exact congrArg (· ++ _) hkept
  · exact hkept

theorem putPass_posQueue (s : State) (e : Nat) (w : PassWork) : (putPass s e w).op.posQueue = s.op.posQueue := by
  obtain ⟨l, hl⟩ := putPass_table s e w
  rw [hl]

/-- Each position item has one write of the vector, with the scale to be delivered (R234). -/
theorem vectorWrites_spec (e : Nat) (w : PassWork) (v : Nat) :
    (vectorWrites e w v).length = w.drain.posItems.length ∧
      ∀ x ∈ vectorWrites e w v, x.op = e ∧ x.vec = v ∧ x.scale = (quantOf w v).2.2.1 := by
  refine ⟨List.length_map .., fun x hx => ?_⟩
  obtain ⟨i, -, rfl⟩ := List.mem_map.1 hx
  exact ⟨rfl, rfl, rfl⟩

/-! ## Seals (R263) -/

theorem bit_setBits_one (v n : Nat) : bit (setBits v n 1 1) n = true := by
  have h := bits_setBits v n 1 1
  rw [bits] at h
  rw [bit, beq_iff_eq]
  exact h

/-- DVALID that is set reads back as set, whether it was before or not. -/
theorem setDvalid_reads {s : State} {a : Nat} (halign : a % 8 = 0) (hend : a + 8 ≤ stackedEnd)
    (hfence : (getStack s (stackOf a)).fenced = false) (inst : Inst) :
    bit (rdNat (setDvalid s inst a true) a 8) 50 = true := by
  unfold setDvalid
  dsimp only
  split
  next hset => exact hset
  · have hlow (v : Nat) : bit (v % 256 ^ 8) 50 = bit v 50 := by
      rw [bit, bit, show v % 256 ^ 8 / 2 ^ 50 % 2 = v / 2 ^ 50 % 2 by omega]
    rw [rdNat_of_holds (holds_wrNat (by decide) (Nat.dvd_of_mod_eq_zero halign) hend hfence inst _) hend, hlow]
    exact bit_setBits_one ..

/-- The state in which the digest of a page that is sealed is written, and DVALID is not yet set. -/
def digestWritten (s : State) (inst : Inst) (x : SealDue) : State :=
  let r := seqRec s x.seq.toNat
  let d := pageDigest (rdBytes s ((rdEnt s (entAddr r x.entry)).frame * 0x8000)
    (pageTokens r.kvheads r.hdim * tokenBytes r.kvheads r.hdim)) r.kvheads r.hdim
  wrBytes (opFlags s x.op d.2) inst (r.digest + x.entry * (r.kvheads * 64)) d.1

theorem digestWritten_keeps (s : State) (inst : Inst) (x : SealDue) :
    (digestWritten s inst x).op.seals = s.op.seals ∧ ∀ k, getStack (digestWritten s inst x) k = getStack s k := by
  unfold digestWritten
  dsimp only
  constructor
  · simp [opFlags_posQueue_seals]
  · intro k
    rw [getStack_wrBytes]
    exact getStack_of_mem (by simp) k

section
variable {s : State} {x : SealDue}
  (hread : rangeBad s ((rdEnt s (entAddr (seqRec s x.seq.toNat) x.entry)).frame * 0x8000)
    (pageTokens (seqRec s x.seq.toNat).kvheads (seqRec s x.seq.toNat).hdim *
      tokenBytes (seqRec s x.seq.toNat).kvheads (seqRec s x.seq.toNat).hdim) = false)
include hread

theorem sealPage_of_readable (inst : Inst) : sealPage s inst x =
    setDvalid (digestWritten s inst x) inst (entAddr (seqRec s x.seq.toNat) x.entry) true := by
  simp only [sealPage, hread, Bool.false_eq_true, if_false]
  rfl

theorem sealPage_seals (inst : Inst) : (sealPage s inst x).op.seals = s.op.seals := by
  rw [sealPage_of_readable hread, (setDvalid_keeps ..).1, (digestWritten_keeps ..).1]

/-- The entry of a page that is sealed reads back with DVALID set, wherever its digest went. -/
theorem sealPage_dvalid (halign : entAddr (seqRec s x.seq.toNat) x.entry % 8 = 0)
    (hend : entAddr (seqRec s x.seq.toNat) x.entry + 8 ≤ stackedEnd)
    (hfence : (getStack s (stackOf (entAddr (seqRec s x.seq.toNat) x.entry))).fenced = false) (inst : Inst) :
    bit (rdNat (sealPage s inst x) (entAddr (seqRec s x.seq.toNat) x.entry) 8) 50 = true := by
  rw [sealPage_of_readable hread]
  exact setDvalid_reads halign hend (by rw [(digestWritten_keeps s inst x).2, hfence]) inst

end

/-- The state in which the oldest seal due of an operation is taken from the list. -/
def sealTaken (s : State) (e : Nat) : State :=
  { s with op.seals := dropFirst (fun x : SealDue => x.op == e) s.op.seals }

/-- A seal that is due, with no key write left to come, is taken from the list and its page sealed. -/
theorem execSeal_of_due {s : State} {e : OpIx} {x : SealDue}
    (hx : firstOf (fun x : SealDue => x.op == e.val) s.op.seals = some x) (hkeys : keysLeft s e = false) :
    execSeal e s = .next (sealPage (sealTaken s e) (getOp s e).inst x) := by
  simp only [execSeal, hx, hkeys, Bool.not_false, if_true]
  rfl

/-- Settles O36: the rendezvous of a vector leaves the state of `vectorOut`; a seal ends with the write of DVALID, which reads
back. -/
theorem quantiseAndSeal : Obligations.QuantiseAndSeal := by
  unfold Obligations.QuantiseAndSeal
  constructor
  · intro s e v w ns rows q a hw hneeds hv hknown hnew hresult
    have hmem := (putPass_mem (vectorOut s e w v) e (vectorDone w v)).trans (vectorOut_mem ..)
    have hqueue := (putPass_posQueue (vectorOut s e w v) e (vectorDone w v)).trans (vectorOut_posQueue ..)
    have hflags : (opFlags s e (quantOf w v).2.2.2).mem = s.mem := by simp
    refine ⟨_, execQuantiseRendezvous_of_known hw hneeds hv hknown hnew hresult, ?_, fun hpos => ?_, fun hpos => ?_,
      fun hfp4 => ?_, fun hfp4 halign hend hfence => ?_⟩
    · rw [passOf_putPass]
      simp [vectorDone]
    · obtain ⟨hlen, hspec⟩ := vectorWrites_spec e w v
      rw [hqueue, if_pos hpos, List.length_append, hlen, List.take_left, List.drop_left]
      exact ⟨rfl, rfl, hspec⟩
    · rw [hqueue, if_neg (by simp [hpos])]
    · rw [hmem, outputWritten, if_neg (by simp [hfp4]), hflags]
    · intro k hk
      rw [hmem]
      exact outputWritten_scale hfp4 halign hend (by rw [getStack_of_mem hflags, hfence]) _ k hk
  · intro s e x r a hx hkeys hread halign hend hfence
    refine ⟨_, execSeal_of_due hx hkeys, sealPage_dvalid (s := sealTaken s e) hread halign hend hfence _, ?_⟩
    rw [sealPage_seals (s := sealTaken s e) hread]
    exact length_dropFirst hx

end Sys2Proof.Safety
end

section
/-! SUPPORT. The memory that a unit writes for an operation (R333, R336), and the work, result and counts of an operation that a
unit works for (R227). -/

namespace Sys2Proof.Safety

open Sys2Proof Sys2Proof.Machine

/-! ## Memory -/

/-- A write leaves every byte outside its range as it is. -/
theorem cellGet_wrBytes_other (s : State) (i : Inst) {a x : Nat} {bs : List Byte} (h : x < a ∨ a + bs.length ≤ x) :
    cellGet (wrBytes s i a bs).mem.cells x = cellGet s.mem.cells x := by
  unfold wrBytes
  split
  · rw [wrStacked_get, if_neg (by omega)]
  · split <;> rfl

/-- A range that can be read begins in a stack in service (R336). -/
theorem fenced_of_rangeBad {s : State} {a n : Nat} (h : rangeBad s a n = false) (ha : isStacked a = true) (hn : 0 < n) :
    (getStack s (stackOf a)).fenced = false := by
  have hreach : a / 0x8000 ≤ (a + n - 1) / 0x8000 := Nat.div_le_div_right (by omega)
  simp only [rangeBad, ha, Bool.true_and, Bool.or_eq_false_iff] at h
  obtain ⟨-, h⟩ := h
  simp only [bne_iff_ne.2 (Nat.ne_of_gt hn), Bool.true_and, upBy, List.any_cons, decide_eq_true hreach,
    Bool.or_eq_false_iff] at h
  exact h.1

/-! ## The entry of an operation -/

theorem setNth_eq_set {α : Type} (l : List α) (n : Nat) (v : α) : setNth l n v = l.set n v := by
  induction l generalizing n with
  | nil => rfl
  | cons x r ih =>
    cases n with
    | zero => rfl
    | succ n => rw [setNth, ih, List.set_cons_succ]

theorem getElem?_setNth_same {α : Type} {l : List α} {n : Nat} {x : α} (h : l[n]? = some x) (v : α) :
    (setNth l n v)[n]? = some v := by
  rw [setNth_eq_set, List.getElem?_set_self (List.getElem?_eq_some_iff.1 h).1]

/-- The end of an operation's work changes neither that work nor its count of rows or tokens. -/
theorem setResult_keeps (s : State) (e : Nat) (r : Byte) (d : Nat) :
    (getOp (setResult s e r d) e).work = (getOp s e).work ∧ (getOp (setResult s e r d) e).countA = (getOp s e).countA := by
  unfold setResult
  dsimp only
  split
  · exact ⟨rfl, rfl⟩
  · rw [getOp_setOp_same]
    exact ⟨rfl, rfl⟩

theorem result_setResult {s : State} {e : Nat} (h : (getOp s e).result = none) (r : Byte) (d : Nat) :
    (getOp (setResult s e r d) e).result = some r := by
  unfold setResult
  rw [if_neg (by simp [h]), getOp_setOp_same]

/-- What a SAMPLE shows of how far it is: its result, and the rows that it has counted (R227). -/
def progressOf (s : State) (e : Nat) : Option Byte × Nat := ((getOp s e).result, (getOp s e).countA)

theorem progressOf_of_op {s s' : State} (h : s'.op = s.op) (e : Nat) : progressOf s' e = progressOf s e := by
  simp only [progressOf, getOp_of_op h]

@[simp] theorem progressOf_bumpFree (s : State) (e : Nat) : progressOf (bumpFree s) e = progressOf s e := rfl

@[simp] theorem progressOf_wrBytes (s : State) (i : Inst) (a : Nat) (bs : List Byte) (e : Nat) :
    progressOf (wrBytes s i a bs) e = progressOf s e := progressOf_of_op (by simp) e

@[simp] theorem progressOf_wrNat (s : State) (i : Inst) (a n v e : Nat) : progressOf (wrNat s i a n v) e = progressOf s e :=
  progressOf_wrBytes ..

@[simp] theorem progressOf_opFlags (s : State) (e : Nat) (f : BitVec 4) : progressOf (opFlags s e f) e = progressOf s e := by
  unfold opFlags
  dsimp only
  split
  · rfl
  · simp only [progressOf, getOp_setOp_same]

@[simp] theorem progressOf_opCounts (s : State) (e a b : Nat) :
    progressOf (opCounts s e a b) e = ((progressOf s e).1, (progressOf s e).2 + a) := by
  simp only [progressOf, opCounts, getOp_setOp_same]

end Sys2Proof.Safety
end

section
/-! SUPPORT. Blocks of attention (R254, R268 to R272): what a page that is read, attended or lost leaves of its row. -/

namespace Sys2Proof.Safety

open Sys2Proof Sys2Proof.Machine

/-- The work that is put back is the operation's, whether every row is done or not. -/
theorem work_putAttn (s : State) (e : Nat) (w : AttnWork) : (getOp (putAttn s e w) e).work = .attn w := by
  unfold putAttn
  dsimp only
  split
  · split <;> rw [(setResult_keeps ..).1, getOp_setOp_same]
  · rw [getOp_setOp_same]

/-- A page that is lost leaves every operation as it is until its row is told. -/
theorem readPage_op_of_lost {s u : State} {e row : Nat} {w : AttnWork} {pl : PagePlace} {x b n : Nat} {d : BurstIn} {why : Byte}
    (h : readPage s e row w pl x b n d = .lost why u) : u.op = s.op := by
  cases pl with
  | local_ a =>
    dsimp only [readPage] at h
    split at h <;> cases h
    rfl
  | host a =>
    dsimp only [readPage] at h
    split at h
    · cases h
    · cases d with
      | hostError => cases h; rfl
      | data l => dsimp only at h; split at h <;> cases h
  | peer dev f =>
    dsimp only [readPage] at h
    split at h <;> cases h

/-- A page that must be fetched, where a transfer engine is in service, can be (R254). -/
theorem fetch_and_isNone {pl : PagePlace} {n : Nat} {x : Option Nat} (h : mustFetch pl n = true → x.isSome = true) :
    (mustFetch pl n && x.isNone) = false := by
  cases hm : mustFetch pl n with
  | false => rfl
  | true => rw [← Option.not_isSome, h hm]; rfl

/-- A row that is lost (R272). -/
def lostRow (r : AttnRow) (why : Byte) : AttnRow := { r with left := [], accs := [], lost := some why, done := true }

/-- A row of an operation without a result that is lost is put back as such. -/
theorem rowLost_of_left {s : State} {e i : Nat} {w : AttnWork} {r : AttnRow} (hw : (getOp s e).work = .attn w)
    (hresult : (getOp s e).result = none) (hrow : w.rows[i]? = some r) (hdone : r.done = false) (why : Byte) :
    rowLost s e i why =
      putAttn (bumpFree (writeLost s e w r)) e { w with rows := setNth w.rows i (lostRow r why) } := by
  simp only [rowLost, hw, hrow, hdone, hresult, Option.isSome_none, Bool.false_eq_true, or_self, if_false]
  rfl

/-- A page that is attended leaves the list of its row, and the last one ends the row (R268, R269). -/
theorem attendPage_row {s : State} {e i : Nat} {w : AttnWork} {r : AttnRow} (hrow : w.rows[i]? = some r)
    (hdone : r.done = false) (b : Nat) (rest : List Nat) (pg : PageData) :
    ∃ w' r', (getOp (attendPage s e i w r b rest pg) e).work = .attn w' ∧ w'.rows[i]? = some r' ∧ r'.left = rest ∧
      r'.done = rest.isEmpty ∧ w'.attended = w.attended + min (attnT w) (r.len - b * attnT w) ∧ r'.lost = r.lost := by
  cases rest with
  | nil =>
    refine ⟨_, _, work_putAttn .., getElem?_setNth_same hrow _, rfl, rfl, ?_, rfl⟩
    dsimp only
    split <;> rfl
  | cons b' rest =>
    refine ⟨_, _, work_putAttn .., getElem?_setNth_same hrow _, rfl, hdone, ?_, rfl⟩
    dsimp only
    split <;> rfl

/-- A page that is not the last of its row writes no output. -/
theorem attendPage_mem (s : State) (e i : Nat) (w : AttnWork) (r : AttnRow) (b : Nat) {rest : List Nat} (h : rest ≠ [])
    (pg : PageData) : (attendPage s e i w r b rest pg).mem = s.mem := by
  cases rest with
  | nil => exact absurd rfl h
  | cons b' rest => exact (putAttn_mem ..).trans (by simp)

section
variable {s : State} {e : OpIx} {i : Fin 1024} {w : AttnWork} {r : AttnRow} {b : Nat} {rest : List Nat}
  (hw : (getOp s e).work = .attn w) (hresult : (getOp s e).result = none) (hrow : w.rows[i.val]? = some r)
  (hdone : r.done = false) (hleft : r.left = b :: rest)
include hw hresult hrow hdone hleft

theorem execAttnBlock_of_left (d : BurstIn) : execAttnBlock e ⟨i, d⟩ s = .next (attendNext s e i w r b rest d) := by
  obtain ⟨hlt, hget⟩ := List.getElem?_eq_some_iff.1 hrow
  simp only [execAttnBlock, hw, List.drop_eq_getElem_cons hlt, hget, hdone, hresult, hleft, Option.isSome_none, Bool.false_eq_true,
    or_self, if_false]

variable {eng : Nat} {d : BurstIn} {u : State} (hgood : blockBad s w i r b = false)
  (heng : blockEngine s w (pageOf s e w r b) b = some eng)
  (hfetch : mustFetch (pageOf s e w r b) eng = true → (leastXfer s (stationXfers eng)).isSome = true)
include hgood heng hfetch

/-- The next block of a row whose page is read is attended (R268, R269). -/
theorem attnBlock_attends {pg : PageData}
    (hpage : readPage s e i w (pageOf s e w r b) ((leastXfer s (stationXfers eng)).getD 0) b
      (min (attnT w) (r.len - b * attnT w) * w.kvheads * w.hdim) d = .data pg u) :
    Does (.attnBlock e ⟨i, d⟩) s fun s' => ∃ w' r', (getOp s' e).work = .attn w' ∧ w'.rows[i.val]? = some r' ∧
      r'.left = rest ∧ r'.done = rest.isEmpty ∧ w'.attended = w.attended + min (attnT w) (r.len - b * attnT w) ∧
      r'.lost = r.lost ∧ (rest ≠ [] → s'.mem = s.mem) := by
  have hnext : attendNext s e i w r b rest d = attendPage u e i w r b rest pg := by
    simp only [attendNext, hgood, heng, fetch_and_isNone hfetch, hpage, Bool.false_eq_true, if_false]
  obtain ⟨w', r', hwork, hrow', hleft', hdone', hcount, hlost⟩ := attendPage_row (s := u) (e := e) hrow hdone b rest pg
  exact ⟨_, (execAttnBlock_of_left hw hresult hrow hdone hleft d).trans (congrArg _ hnext), w', r', hwork, hrow', hleft',
    hdone', hcount, hlost, fun hmore => (attendPage_mem u e i w r b hmore pg).trans ((readPage_mem ..).2.2 _ hpage)⟩

/-- The next block of a row whose page is lost ends the row, with the reason (R272). -/
theorem attnBlock_loses {why : Byte}
    (hpage : readPage s e i w (pageOf s e w r b) ((leastXfer s (stationXfers eng)).getD 0) b
      (min (attnT w) (r.len - b * attnT w) * w.kvheads * w.hdim) d = .lost why u) :
    Does (.attnBlock e ⟨i, d⟩) s fun s' => ∃ w' r', (getOp s' e).work = .attn w' ∧ w'.rows[i.val]? = some r' ∧
      r'.left = [] ∧ r'.done = true ∧ r'.lost = some why := by
  have hop : getOp u e = getOp s e := getOp_of_op (readPage_op_of_lost hpage) e
  have hnext : attendNext s e i w r b rest d = rowLost u e i why := by
    simp only [attendNext, hgood, heng, fetch_and_isNone hfetch, hpage, Bool.false_eq_true, if_false]
  rw [rowLost_of_left (hop ▸ hw) (hop ▸ hresult) hrow hdone] at hnext
  exact ⟨_, (execAttnBlock_of_left hw hresult hrow hdone hleft d).trans (congrArg _ hnext), _, lostRow r why,
    work_putAttn .., getElem?_setNth_same hrow _, rfl, rfl, rfl⟩

end

end Sys2Proof.Safety
end

section
/-! SUPPORT. Rows and compactions of a SAMPLE (R284 to R290, R298): what a row that is sampled leaves of the count of rows and
of its request's CTR, and what a compaction leaves of its sequence's LEN. -/

namespace Sys2Proof.Safety

open Sys2Proof Sys2Proof.Machine

/-! ## The work of a SAMPLE (R291) -/

/-- Work put back changes no count. -/
theorem countA_putSample (s : State) (e : Nat) (w : SampleWork) : (getOp (putSample s e w) e).countA = (progressOf s e).2 := by
  unfold putSample
  dsimp only
  split
  · rw [(setResult_keeps ..).2, getOp_setOp_same]; rfl
  · rw [getOp_setOp_same]; rfl

/-- With every row and compaction done, the result is OK. -/
theorem result_putSample {s : State} {e : Nat} {w : SampleWork} (h : (progressOf s e).1 = none) (hleft : w.left = [])
    (hcopies : w.copies = []) : (getOp (putSample s e w) e).result = some 0 := by
  simp only [putSample, hleft, hcopies, List.isEmpty_nil, Bool.and_self, if_true]
  exact result_setResult (by rw [getOp_setOp_same]; exact h) ..

/-! ## One sample (R285, R287, R289) -/

theorem sampleReq_of_mem {s s' : State} (h : s'.mem = s.mem) (hf : s'.free = s.free) (a : Nat) :
    sampleReq s' a = sampleReq s a := by
  simp only [sampleReq, rdBytes_of_mem h hf]

/-- The occurrence of a token is counted in memory alone. -/
theorem addCount_op (s : State) (inst : Inst) (vocab tab t : Nat) : (addCount s inst vocab tab t).1.op = s.op := by
  unfold addCount
  split
  · simp
  · rfl

/-- The state in which a sample has raised its flags and advanced CTR, and its token is not yet counted. -/
def ctrAdvanced (s : State) (e : Nat) (w : SampleWork) (a row : Nat) : State :=
  wrNat (bumpFree (opFlags s e (sampleToken s w (sampleReq s a) row).2.2)) (getOp s e).inst (a + 8) 8 ((sampleReq s a).ctr + 1)

@[simp] theorem progressOf_ctrAdvanced (s : State) (e : Nat) (w : SampleWork) (a row : Nat) :
    progressOf (ctrAdvanced s e w a row) e = progressOf s e := by
  simp [ctrAdvanced]

/-- A sample counts no row. -/
theorem progressOf_produce (s : State) (e : Nat) (w : SampleWork) (a row : Nat) :
    progressOf (produce s e w a row).1 e = progressOf s e := by
  have hcounted : ∀ vocab tab t,
      progressOf (addCount (ctrAdvanced s e w a row) (getOp s e).inst vocab tab t).1 e = progressOf s e :=
    fun _ _ _ => (progressOf_of_op (addCount_op ..) e).trans (progressOf_ctrAdvanced ..)
  unfold produce
  dsimp only
  split
  · split
    · simp only [progressOf_opCounts, progressOf_wrNat]
      exact hcounted ..
    · exact hcounted ..
  · exact progressOf_ctrAdvanced ..

/-- A sample whose token is not counted leaves CTR as its last write. -/
theorem produce_of_uncounted {s : State} {a : Nat} (h : (sampleReq s a).update = false ∨ (sampleReq s a).counts = 0) (e : Nat)
    (w : SampleWork) (row : Nat) : (produce s e w a row).1 = ctrAdvanced s e w a row := by
  have hskip : ((sampleReq s a).update && (sampleReq s a).counts != 0) = false := by
    rcases h with h | h <;> simp [h]
  unfold produce
  simp only [hskip, Bool.false_and, Bool.false_eq_true, if_false]
  rfl

/-! ## Rows by their KIND -/

/-- The rows of a unit processed, by the KIND of its request. -/
def unitSampled (s : State) (e : Nat) (w : SampleWork) (u : SampleUnit) : State × SampleWork :=
  let r := sampleReq s u.recAddr.toNat
  if r.kind = 1 then sampleDraft s e w u else if r.kind = 2 then sampleVerify s e w u else sampleOne s e w u

theorem progressOf_putOut (s : State) (e : Nat) (w : SampleWork) (row : Nat) (l : List Byte) :
    progressOf (putOut s e w row l) e = progressOf s e := progressOf_wrBytes ..

theorem progressOf_sampleOne (s : State) (e : Nat) (w : SampleWork) (u : SampleUnit) :
    progressOf (sampleOne s e w u).1 e = progressOf s e := by
  simp only [sampleOne, progressOf_bumpFree, progressOf_putOut, progressOf_produce]

theorem progressOf_sampleDraft (s : State) (e : Nat) (w : SampleWork) (u : SampleUnit) :
    progressOf (sampleDraft s e w u).1 e = progressOf s e := by
  simp only [sampleDraft, progressOf_bumpFree, progressOf_putOut, progressOf_opFlags]

/-- The walk of a draft tree counts no row of its operation: they are counted at its end. -/
theorem progressOf_verifyWalk (e : Nat) (w : SampleWork) (u : SampleUnit) (fuel n : Nat) (x : Walk) :
    progressOf (verifyWalk e w u fuel n x).st e = progressOf x.st e := by
  induction fuel generalizing n x with
  | zero => rfl
  | succ fuel ih =>
    unfold verifyWalk
    dsimp only
    split
    · exact progressOf_produce ..
    · rw [ih]
      exact progressOf_produce ..

/-- A VERIFY group counts the rows that follow its first. -/
theorem progressOf_sampleVerify (s : State) (e : Nat) (w : SampleWork) (u : SampleUnit) :
    ∃ n, progressOf (sampleVerify s e w u).1 e = ((progressOf s e).1, (progressOf s e).2 + n) := by
  simp only [sampleVerify, progressOf_opCounts, progressOf_bumpFree, progressOf_putOut, progressOf_verifyWalk]
  exact ⟨_, rfl⟩

/-- A unit that is not a VERIFY group has the one row, and leaves no compaction. -/
theorem unitSampled_of_single {s : State} {u : SampleUnit} (h : (sampleReq s u.recAddr.toNat).kind ≠ 2) (e : Nat)
    (w : SampleWork) : progressOf (unitSampled s e w u).1 e = progressOf s e ∧ (unitSampled s e w u).2 = w := by
  unfold unitSampled
  dsimp only
  split
  · exact ⟨progressOf_sampleDraft .., rfl⟩
  · exact ⟨progressOf_sampleOne .., rfl⟩

/-- A VERIFY group counts no fewer rows than there were. -/
theorem unitSampled_of_verify {s : State} {u : SampleUnit} (h : (sampleReq s u.recAddr.toNat).kind = 2) (e : Nat) (w : SampleWork) :
    (progressOf s e).2 ≤ (progressOf (unitSampled s e w u).1 e).2 := by
  obtain ⟨n, hn⟩ := progressOf_sampleVerify s e w u
  have hverify : unitSampled s e w u = sampleVerify s e w u := by
    rw [unitSampled, h]
    rfl
  rw [hverify, hn]
  exact Nat.le_add_right ..

theorem length_flatMap_toBytes (l : List Nat) (n : Nat) : (l.flatMap fun v => toBytes v n).length = n * l.length := by
  induction l with
  | nil => rfl
  | cons v r ih => rw [List.flatMap_cons, List.length_append, length_toBytes, ih, List.length_cons, Nat.mul_succ, Nat.add_comm]

theorem length_outRecord (token accept flags path : Nat) (cand : List Nat) (ctr : Nat) :
    (outRecord token accept flags path cand ctr).length = 64 := by
  have hcand : ((cand ++ List.replicate 8 0xFFFFFFFF).take 8).length = 8 := by
    rw [List.length_take, List.length_append, List.length_replicate]
    omega
  simp only [outRecord, List.length_append, length_toBytes, length_flatMap_toBytes, hcand, List.length_cons, List.length_nil]

/-- A row of KIND SAMPLE whose output lies elsewhere leaves CTR advanced by 1 (R289). -/
theorem sampleOne_ctr {s : State} {u : SampleUnit} (e : Nat) {w : SampleWork} (halign : u.recAddr.toNat % 64 = 0)
    (hend : u.recAddr.toNat + 64 ≤ stackedEnd) (hfence : (getStack s (stackOf u.recAddr.toNat)).fenced = false)
    (hskip : (sampleReq s u.recAddr.toNat).update = false ∨ (sampleReq s u.recAddr.toNat).counts = 0)
    (hapart : w.out.toNat + 64 * u.row + 64 ≤ u.recAddr.toNat + 8 ∨ u.recAddr.toNat + 16 ≤ w.out.toNat + 64 * u.row) :
    Holds (sampleOne s e w u).1 (u.recAddr.toNat + 8) 8 ((sampleReq s u.recAddr.toNat).ctr + 1) := by
  have hstack : stackOf (u.recAddr.toNat + 8) = stackOf u.recAddr.toNat :=
    stackOf_add (n := 64) (by decide) (Nat.dvd_of_mod_eq_zero halign) (by decide)
  have hmem : (bumpFree (opFlags s e (sampleToken s w (sampleReq s u.recAddr.toNat) u.row).2.2)).mem = s.mem := by simp
  have hctr : Holds (ctrAdvanced s e w u.recAddr.toNat u.row) (u.recAddr.toNat + 8) 8 ((sampleReq s u.recAddr.toNat).ctr + 1) :=
    holds_wrNat (by decide) (by omega) (by omega) (by rw [getStack_of_mem hmem, hstack, hfence]) _ _
  intro k hk
  rw [← hctr k hk, ← produce_of_uncounted hskip]
  exact cellGet_wrBytes_other _ _ (by rw [length_outRecord]; omega)

/-! ## A lane's next unit (R280) -/

/-- The work of a SAMPLE from whose units one is taken. -/
def unitTaken (w : SampleWork) (u : SampleUnit) : SampleWork := { w with left := dropFirst (fun x => x == u) w.left }

/-- A lane's next unit processed: its first row is counted when it is taken, and others at its end. -/
def laneSampled (s : State) (e : Nat) (w : SampleWork) (u : SampleUnit) : State × SampleWork :=
  unitSampled (opCounts s e 1 0) e (unitTaken w u) u

section
variable {s : State} {e : Nat} {w : SampleWork} {u : SampleUnit}

theorem sampleReq_opCounts (s : State) (e a b x : Nat) : sampleReq (opCounts s e a b) x = sampleReq s x :=
  sampleReq_of_mem (by simp) (by simp) x

theorem laneSampled_of_single (hresult : (getOp s e).result = none) (hkind : (sampleReq s u.recAddr.toNat).kind ≠ 2) :
    progressOf (laneSampled s e w u).1 e = (none, (getOp s e).countA + 1) ∧ (laneSampled s e w u).2 = unitTaken w u := by
  obtain ⟨hsame, hwork⟩ := unitSampled_of_single (s := opCounts s e 1 0) (by rwa [sampleReq_opCounts]) e (unitTaken w u)
  refine ⟨?_, hwork⟩
  rw [laneSampled, hsame, progressOf_opCounts, progressOf, hresult]

theorem laneSampled_of_verify (hkind : (sampleReq s u.recAddr.toNat).kind = 2) :
    (getOp s e).countA < (progressOf (laneSampled s e w u).1 e).2 := by
  have hmore := unitSampled_of_verify (s := opCounts s e 1 0) (by rwa [sampleReq_opCounts]) e (unitTaken w u)
  rw [progressOf_opCounts] at hmore
  exact hmore

/-- A unit whose record can be read and is of KIND SAMPLE, with its output elsewhere, leaves CTR advanced by 1. -/
theorem laneSampled_ctr (hgood : unitBad s w u = false) (hkind : (sampleReq s u.recAddr.toNat).kind = 0)
    (halign : u.recAddr.toNat % 64 = 0) (hend : u.recAddr.toNat + 64 ≤ stackedEnd)
    (hskip : (sampleReq s u.recAddr.toNat).update = false ∨ (sampleReq s u.recAddr.toNat).counts = 0)
    (hapart : w.out.toNat + 64 * u.row + 64 ≤ u.recAddr.toNat + 8 ∨ u.recAddr.toNat + 16 ≤ w.out.toNat + 64 * u.row) :
    Holds (laneSampled s e w u).1 (u.recAddr.toNat + 8) 8 ((sampleReq s u.recAddr.toNat).ctr + 1) := by
  have hread : rangeBad s u.recAddr.toNat 128 = false := by
    simp only [unitBad, Bool.or_eq_false_iff] at hgood
    obtain ⟨⟨⟨-, hrec⟩, -⟩, -⟩ := hgood
    exact hrec
  have hfence : (getStack (opCounts s e 1 0) (stackOf u.recAddr.toNat)).fenced = false := by
    rw [getStack_of_mem (s := s) (by simp), fenced_of_rangeBad hread (isStacked_of_le hend (by decide)) (by decide)]
  rw [← sampleReq_opCounts s e 1 0] at hkind hskip ⊢
  rw [laneSampled, unitSampled, hkind]
  exact sampleOne_ctr e halign hend hfence hskip hapart

end

section
variable {s : State} {e : OpIx} {lane : Fin 4} {w : SampleWork} {u : SampleUnit}
  (hnext : firstOf (fun u : SampleUnit => u.lane == lane.val) w.left = some u)
include hnext

theorem unitTaken_left_of_single (hone : w.left.length = 1) : (unitTaken w u).left = [] := by
  obtain ⟨v, hv⟩ := List.length_eq_one_iff.1 hone
  rw [hv, firstOf] at hnext
  split at hnext <;> cases hnext
  simp [unitTaken, hv, dropFirst]

theorem execSampleRow_of_next (hw : (getOp s e).work = .sample w) (hresult : (getOp s e).result = none)
    (htaken : laneTaken s e lane = false) (hfenced : s.op.samplerFenced = false) (hgood : unitBad s w u = false) :
    execSampleRow e lane s = .next (putSample (laneSampled s e w u).1 e (laneSampled s e w u).2) := by
  simp only [execSampleRow, hw, hnext, hresult, htaken, hfenced, hgood, Option.isSome_none, Bool.false_eq_true, or_self, if_false]
  rfl

end

/-! ## Compactions (R298) -/

theorem getStack_setDvalid (s : State) (inst : Inst) (a : Nat) (v : Bool) (k : Nat) :
    getStack (setDvalid s inst a v) k = getStack s k := by
  unfold setDvalid
  dsimp only
  split
  · rfl
  · exact getStack_wrBytes ..

/-- A copy changes neither what its operation shows nor which stacks are in service. -/
theorem copyToken_keeps (e : Nat) (q : SeqRec) (seqA src dst : Nat) (s : State) (layer : Nat) :
    progressOf (copyToken e q seqA src dst s layer) e = progressOf s e ∧
      ∀ k, getStack (copyToken e q seqA src dst s layer) k = getStack s k := by
  have hprogress : ∀ a, progressOf (setDvalid s (getOp s e).inst a false) e = progressOf s e :=
    fun a => progressOf_of_op (setDvalid_keeps ..).1 e
  unfold copyToken
  dsimp only
  split <;> exact ⟨(progressOf_wrBytes ..).trans ((progressOf_wrBytes ..).trans (hprogress _)),
    fun _ => (getStack_wrBytes ..).trans ((getStack_wrBytes ..).trans (getStack_setDvalid ..))⟩

/-- The copies of an accepted path. -/
def pathCopied (s : State) (e : Nat) (c : Compaction) : State :=
  let q := seqRec s c.seq.toNat
  (pathMoves c).foldl
    (fun s (d, n) => (upFrom 0 q.layers).foldl (copyToken e q c.seq.toNat (c.base + n) (c.base + d)) s) s

theorem pathCopied_keeps (s : State) (e : Nat) (c : Compaction) :
    progressOf (pathCopied s e c) e = progressOf s e ∧ ∀ k, getStack (pathCopied s e c) k = getStack s k := by
  constructor
  · exact foldl_keeps (progressOf · e) _ (fun _ _ => foldl_keeps (progressOf · e) _ (fun _ _ => (copyToken_keeps ..).1) _ _) _ s
  · intro k
    exact foldl_keeps (getStack · k) _ (fun _ _ => foldl_keeps (getStack · k) _ (fun _ _ => (copyToken_keeps ..).2 k) _ _) _ s

/-- LEN is written after the copies. -/
theorem compact_eq (s : State) (e : Nat) (c : Compaction) : compact s e c =
    wrNat (pathCopied s e c) (getOp (pathCopied s e c) e).inst (c.seq.toNat + 0x10) 8 (c.base + c.path.length + 1) := rfl

theorem execCompactionCopy_of_next {s : State} {e : OpIx} {w : SampleWork} {c : Compaction} {rest : List Compaction}
    (hw : (getOp s e).work = .sample w) (hresult : (getOp s e).result = none) (hnext : w.copies = c :: rest)
    (hgood : compactBad s c = false) :
    execCompactionCopy e s = .next (putSample (compact s e c) e { w with copies := rest }) := by
  simp only [execCompactionCopy, hw, hnext, hresult, hgood, Option.isSome_none, Bool.false_eq_true, if_false]

/-- Settles O38: a block leaves the row of `attendPage` or of `rowLost`, a unit of a lane what its KIND gives, and the last write
of a compaction is LEN. -/
theorem attentionAndSampling : Obligations.AttentionAndSampling := by
  unfold Obligations.AttentionAndSampling
  refine ⟨?_, ?_, ?_⟩
  · intro s e i w r b rest o n hw hresult hrow hdone hleft hgood eng d heng x page hfetch
    exact ⟨fun pg u hpage => attnBlock_attends hw hresult hrow hdone hleft hgood heng hfetch hpage,
      fun why u hpage => attnBlock_loses hw hresult hrow hdone hleft hgood heng hfetch hpage⟩
  · intro s e lane w u o a q hw hresult hnext htaken hfenced hgood
    refine ⟨_, execSampleRow_of_next hnext hw hresult htaken hfenced hgood, fun hkind => ?_, fun hkind => ?_,
      fun hkind halign hend hskip hapart k hk => ?_⟩
    · obtain ⟨hprogress, hwork⟩ := laneSampled_of_single (w := w) hresult hkind
      rw [countA_putSample, hprogress]
      refine ⟨rfl, fun hone hcopies => result_putSample (by rw [hprogress]) ?_ ?_⟩
      · rw [hwork, unitTaken_left_of_single hnext hone]
      · rw [hwork]
        exact hcopies
    · rw [countA_putSample]
      exact laneSampled_of_verify hkind
    · rw [putSample_mem]
      exact laneSampled_ctr hgood hkind halign hend hskip hapart k hk
  · intro s e w c rest o a hw hresult hnext hgood halign hend hfence
    obtain ⟨hprogress, hstacks⟩ := pathCopied_keeps s e c
    refine ⟨_, execCompactionCopy_of_next hw hresult hnext hgood, fun k hk => ?_, fun hleft hrest => ?_⟩
    · rw [putSample_mem, compact_eq]
      exact holds_wrNat (by decide) (Nat.dvd_of_mod_eq_zero halign) hend (by rw [hstacks, hfence]) _ _ k hk
    · refine result_putSample ?_ hleft hrest
      rw [compact_eq, progressOf_wrNat, hprogress]
      exact hresult

end Sys2Proof.Safety
end
